-- ==== Sys2Proof/Word.lean ====
section
/-! DEFINITION. The plain types every other file uses: a sparse table by number, bytes as numbers. -/

namespace Sys2Proof

/-- A sparse table: pairs of a number and a value, kept in strictly rising order of the number
(`Machine.tabWf`). An unlisted number has no entry. -/
abbrev Tab (α : Type) := List (Nat × α)

/-- Bytes as the packets, rings and structures of R8 hold them, lowest address first; each is read modulo 256. -/
abbrev Bytes := List Nat

end Sys2Proof
end

