-- ==== Sys2Proof/Config.lean ====
section
/-! DEFINITION. What the manual leaves open: opaque constants, applied to `State.freeN`, which each use advances. -/

namespace Sys2Proof

/-- A value the manual does not fix, or that a random source supplies (a proposal of R164, a nonce): free. -/
opaque Config.freeNat : Nat → Nat

/-- SY_ID.VENDOR, fixed in the part and not given by the manual (R543): free. -/
opaque Config.vendorId : BitVec 16

/-- What an analog input of SENSORS_READ or NEWEL_STATUS reads at the n-th sampling (R89, R510): free. -/
opaque Config.analog : Nat → Nat

/-- Measurement 1 of R423, the hash of the Bedrock ROM, and measurement 2 of a part with a patch: not given. -/
opaque Config.romHash : Nat
opaque Config.patchHash : Nat

end Sys2Proof
end

