-- ==== Sys2Proof/Syntax.lean ====
section
/-! DEFINITION. The commands of the M5120: one constructor of `Instr` per row of spec/opcode_table.json, in the table's
order, with the operands the rules read, and the types of those operands. -/

namespace Sys2Proof

/-- The four message classes of R139. -/
inductive Cls where
  | req | rsp | wr | mgt
  deriving DecidableEq, Repr

/-- One number per message class. -/
structure Cls4 where
  req : Nat := 0
  rsp : Nat := 0
  wr  : Nat := 0
  mgt : Nat := 0
  deriving DecidableEq, Repr

/-- Where a command packet comes from (02_command_protocol, Command paths): the command ring of an H port's PF0,
PF0 over MCTP on PCIe VDM, a bay function over VDM (by bay number), or the board controller over I3C. -/
inductive Origin where
  | ring (port : Nat)
  | vdm (port : Nat)
  | bay (bay : Nat)
  | i3c
  deriving DecidableEq, Repr

/-- What a command meets outside the command engine: bytes read from host memory, verdicts of a flash read-back, of a card's
certificate chain and algorithms, and of rerun self-tests. -/
structure Env where
  hostData   : Bytes := []
  readBackOk : Bool := true
  chainOk    : Bool := true
  algOk      : Bool := true
  testsOk    : Bool := true
  deriving DecidableEq, Repr

/-- A command packet whose opcode the row names: header fields of the packet format table with the reserved bytes 12 to 15,
the length the carrier delivered, and the PLEN bytes after the header as they are delivered: under a session the ciphertext
and the tag of R59. -/
structure Cmd where
  origin  : Origin
  tag     : Nat := 0
  plen    : Nat
  flags   : Nat := 0
  session : Nat := 0
  rsv     : Nat := 0
  carrier : Nat
  params  : Bytes := []
  env     : Env := {}
  deriving DecidableEq, Repr

/-- The 40-byte Gallery header (09_gallery_engines, Packets) and the payload after it. -/
structure Gal where
  op      : Nat
  last    : Bool := false
  spray   : Bool := false
  ce      : Bool := false
  ece     : Bool := false
  mtu     : Nat := 4
  status  : Nat := 0
  hint    : Nat := 0
  dqpn    : Nat
  sqpn    : Nat := 0
  msn     : Nat := 0
  offset  : Nat := 0
  tlen    : Nat := 0
  rmr     : Nat := 0
  roff    : Nat := 0
  ssn     : Nat := 0
  payload : Bytes := []
  deriving DecidableEq, Repr

/-- A span message: the header of R141, what the rules read of the message it carries (posted or not, read or write,
address, range, requester ID, tag, poison, the ordering attributes of R225 and R226, Gallery header), the port it entered this
device by, the H port and virtual bridge it passes (R199), and the bay that owns it (R397). -/
structure Msg where
  cls     : Cls
  kind    : Nat := 0
  dpid    : Nat := 0
  spid    : Nat := 0
  dlen    : Nat := 0
  ttl     : Nat := 64
  service : Nat := 0
  mc      : Bool := false
  group   : Nat := 0
  np      : Bool := false
  read    : Bool := false
  addr    : Option Nat := none
  len     : Nat := 0
  tag     : Nat := 0
  poison  : Bool := false
  ur      : Bool := false
  reqId   : Nat := 0
  ro      : Bool := false
  ido     : Bool := false
  gal     : Option Gal := none
  body    : Bytes := []
  rport   : Option Nat := none
  via     : Option (Nat × Nat) := none
  owner   : Option Nat := none
  deriving DecidableEq, Repr

/-- What the end finds of the partner in KEYX beside its messages (R431, R433): whether the chain of CERT ends at the Apquehus
root, the serial number and the public key of its device certificate, and, with an M1280, how its KX1 exchange has ended. -/
structure KeyxEnv where
  chainOk : Bool := true
  serial  : Nat := 0
  x       : Nat := 0
  y       : Nat := 0
  kx1     : Option Bool := none
  deriving DecidableEq, Repr

/-- A request of the standard's equalization to a transmitter lane of an H port or D port: a preset, or c(-1) and c(+1) in
1/64 of full swing (R112). -/
inductive EqAsk where
  | preset (n : Nat)
  | coef (cm1 cp1 : Int)
  deriving DecidableEq, Repr

/-- Flow-control credit the partner of an H port or D port grants at the moment of a choice, in headers and 16-byte
data units (R247, R290). -/
structure Fc where
  hdr  : Cls4 := ⟨4095, 4095, 4095, 4095⟩
  data : Cls4 := ⟨65535, 65535, 65535, 65535⟩
  deriving DecidableEq, Repr

/-- A function of the device itself on an H port: PF0 of that port, or a bay by number. -/
inductive Fn where
  | pf0 (port : Nat)
  | bay (bay : Nat)
  deriving DecidableEq, Repr

/-- Where a received TLP or CXL.mem message is bound: through a virtual bridge of the H port's VH to the D port (or
logical device) bound there, up to the H port the D port is bound to, to a PID, to one of the device's own functions, or to
no device. -/
inductive Dest where
  | bridge (n : Nat)
  | upstream (ld : Nat)
  | pid (n : Nat)
  | own
  | nowhere
  deriving DecidableEq, Repr

/-- Who issued a request of an H port, for the MPU check (R445). -/
inductive Issuer where
  | pf0 | host | bay (bay : Nat)
  deriving DecidableEq, Repr

/-- A TLP or CXL.mem message received at an H port or D port. `err` is 0, or the PORT_PROTO cause (2 to 6) the
port's checks found; `ptm` a PTM request message; `cache` a CXL.cache message; `end2` the last address of a request
that carries an address. -/
structure Tlp where
  msg    : Msg
  dest   : Dest
  issuer : Issuer := .host
  err    : Nat := 0
  ptm    : Bool := false
  cache  : Bool := false
  deriving DecidableEq, Repr

/-- What link training of an H port or D port found (R191, R192, R201, R113), whether the partner asked for precoding (R107),
and the last request of its equalization to each lane (R112). -/
structure LinkInfo where
  flit    : Bool := true
  rate    : Nat := 6
  width   : Nat
  mld     : Bool := false
  cache   : Bool := false
  precode : Bool := false
  ctle    : Nat := 0
  eq      : List (Option EqAsk) := []
  deriving DecidableEq, Repr

/-- A work request (SQ or RQ entry) as read from a ring in host memory (R344). -/
structure Wqe where
  op        : Nat
  signal    : Bool := false
  fence     : Bool := false
  phase     : Bool := true
  length    : Nat := 0
  localAddr : Nat := 0
  localMr   : Nat := 0
  remoteMr  : Nat := 0
  remoteOff : Nat := 0
  destPid   : Nat := 0
  destQpn   : Nat := 0
  wrId      : Nat := 0
  deriving DecidableEq, Repr

/-- What an engine's accesses to memory meet: the ring entries it reads in index order, the data it reads in the order it
reads it, the first page that is not resident (PAGING 1), whether translation fails, and the virtual bridge whose D port
holds the buffer (none: the host's memory). -/
structure GEnv where
  entries  : List Wqe := []
  data     : Bytes := []
  missing  : Option Nat := none
  xlatFail : Bool := false
  bridge   : Option Nat := none
  deriving DecidableEq, Repr

/-- The two sides of an Alcove (R407). -/
inductive Side where
  | bay | manager
  deriving DecidableEq, Repr

/-- The FIFOs of R410 to R413. `idx` is the index last read from the other agent, for the rings. -/
inductive Fifo where
  | toManager (bay : Nat)
  | toBay (bay : Nat)
  | cmdRing (port idx : Nat)
  | rplRing (port idx : Nat)
  | evRing (idx inFlight : Nat)
  deriving DecidableEq, Repr

/-- The LO registers that latch their HI partner (R311, R543). -/
inductive LoReg where
  | tmTime | tmPtm | tmPtmAt | atFirstTs
  deriving DecidableEq, Repr

/-- The straps of R518. -/
structure Straps where
  pmap    : Nat := 0
  mgrHall : Nat := 0
  nwAuto  : Bool := false
  cellar  : Bool := false
  deriving DecidableEq, Repr

/-- What Bedrock has found in a Mezzanine image (R420) and its VERSION, SVN and digest (R423). -/
structure Image where
  readOk  : Bool := true
  magicOk : Bool := true
  ilen    : Nat := 256
  keyslot : Nat := 0
  sigOk   : Bool := true
  version : Nat := 0
  svn     : Nat := 0
  digest  : Nat := 0
  deriving DecidableEq, Repr

/-- The uncorrectable and corrected memory errors of R457 and R458. -/
inductive MemErr where
  | hallMem (hall : Nat)
  | hallCorr (hall : Nat)
  | cellData (port : Nat) (mid : Nat)
  | centralMem (cause : Nat)
  deriving DecidableEq, Repr

/-- What a host configuration request does (R526, R222, R387, R217 to R219, R194, R203), with the maximum payload and read request
sizes (R191), an HDM decoder of the upstream switch port (R195), the L1 substates (R218), the transmission unit the bus owner
sets (R53) and a receiver margining command to a lane of the H port or of a bound D port (R127). -/
inductive CfgOp where
  | read
  | vfEnable (numVfs : Nat)
  | aspmL1 (on : Bool)
  | l0p (on : Bool)
  | ptm (on : Bool)
  | hotplug (on : Bool)
  | maxPayload (bytes : Nat)
  | maxRead (bytes : Nat)
  | hdm (i base size : Nat) (dest : Dest)
  | l1Substates (l11 l12 : Bool)
  | mctpUnit (bytes : Nat)
  | margin (port lane type payload : Nat)
  | msixMask (vector : Nat) (on : Bool)
  deriving DecidableEq, Repr

/-- Margins of one eye (R126). -/
structure Eye where
  left   : Nat := 255
  right  : Nat := 255
  top    : Nat := 255
  bottom : Nat := 255
  deriving DecidableEq, Repr

/-- What a thermal diode reads (R505). -/
inductive Diode where
  | absent
  | bad
  | temp (c : Nat)
  deriving DecidableEq, Repr

/-- The requester of a KEY_EXCHANGE (R415): PF0 or the board controller with mutual authentication, a bay, a host over
DOE, or I3C without mutual authentication (R418). -/
inductive Party where
  | officer (o : Origin) (anchor : Nat)
  | bay (bay : Nat)
  | link (port : Nat)
  | enrol
  deriving DecidableEq, Repr

/-- Where a management broadcast comes from (R278). -/
inductive BSrc where
  | port (port : Nat)
  | central (msg : Msg)
  deriving DecidableEq, Repr

/-- The commands, one per row of spec/opcode_table.json, in its order. -/
inductive Instr where
  /-- DEVICE_INFO (R89). -/
  | deviceInfo (c : Cmd)
  /-- FDID_SET (R90). -/
  | fdidSet (c : Cmd)
  /-- BUNDLE_KEY_SET (R439). -/
  | bundleKeySet (c : Cmd)
  /-- BUNDLE_LOAD (R91). -/
  | bundleLoad (c : Cmd)
  /-- BUNDLE_ACTIVATE (R79). -/
  | bundleActivate (c : Cmd)
  /-- FW_UPDATE (R92). -/
  | fwUpdate (c : Cmd)
  /-- FW_SELECT (R421). -/
  | fwSelect (c : Cmd)
  /-- DEVICE_RESET (R535). -/
  | deviceReset (c : Cmd)
  /-- DEVICE_RESET_BEGIN (R535). -/
  | deviceResetBegin
  /-- PORT_MAP_SET (R93). -/
  | portMapSet (c : Cmd)
  /-- PORT_ENABLE (R94). -/
  | portEnable (c : Cmd)
  /-- PORT_DISABLE (R94). -/
  | portDisable (c : Cmd)
  /-- PORT_DOWN (R81). -/
  | portDown (c : Cmd)
  /-- PORT_RELEASE (R232). -/
  | portRelease (c : Cmd)
  /-- PORT_STATUS (R89). -/
  | portStatus (c : Cmd)
  /-- SPAN_RESIZE (R178). -/
  | spanResize (c : Cmd)
  /-- SPAN_TIMERS (R156). -/
  | spanTimers (c : Cmd)
  /-- SPAN_POLICY (R176). -/
  | spanPolicy (c : Cmd)
  /-- HP_POWER (R219). -/
  | hpPower (c : Cmd)
  /-- VH_BIND (R199). -/
  | vhBind (c : Cmd)
  /-- VH_UNBIND (R204). -/
  | vhUnbind (c : Cmd)
  /-- LANE_TEST (R123). -/
  | laneTest (c : Cmd)
  /-- EYE_SCAN (R124). -/
  | eyeScan (c : Cmd)
  /-- PID_SET (R206). -/
  | pidSet (c : Cmd)
  /-- ROUTE_SET (R258). -/
  | routeSet (c : Cmd)
  /-- GROUP_SET (R260). -/
  | groupSet (c : Cmd)
  /-- GROUP_INDIR_SET (R266). -/
  | groupIndirSet (c : Cmd)
  /-- MCAST_SET (R271). -/
  | mcastSet (c : Cmd)
  /-- BUFFER_SET (R242). -/
  | bufferSet (c : Cmd)
  /-- MGT_TREE_SET (R95). -/
  | mgtTreeSet (c : Cmd)
  /-- LEAF_ASSIGN (R256). -/
  | leafAssign (c : Cmd)
  /-- SUBSCRIBER_SET (R299). -/
  | subscriberSet (c : Cmd)
  /-- SERVICE_SET (R293). -/
  | serviceSet (c : Cmd)
  /-- LENGTH_MODE_SET (R303). -/
  | lengthModeSet (c : Cmd)
  /-- FLIGHT_LOAD (R306). -/
  | flightLoad (c : Cmd)
  /-- METER_SET (R318). -/
  | meterSet (c : Cmd)
  /-- TIME_CONFIG (R312). -/
  | timeConfig (c : Cmd)
  /-- CTX_TABLE_SET (R339). -/
  | ctxTableSet (c : Cmd)
  /-- QP_CREATE (R338). -/
  | qpCreate (c : Cmd)
  /-- QP_MODIFY (R351). -/
  | qpModify (c : Cmd)
  /-- QP_DESTROY (R351). -/
  | qpDestroy (c : Cmd)
  /-- QP_QUERY (R89). -/
  | qpQuery (c : Cmd)
  /-- MR_REGISTER (R367). -/
  | mrRegister (c : Cmd)
  /-- MR_DEREGISTER (R371). -/
  | mrDeregister (c : Cmd)
  /-- QP_CLASS_SET (R376). -/
  | qpClassSet (c : Cmd)
  /-- BAY_CREATE (R389). -/
  | bayCreate (c : Cmd)
  /-- BAY_RESIZE (R391). -/
  | bayResize (c : Cmd)
  /-- BAY_RESET (R396). -/
  | bayReset (c : Cmd)
  /-- BAY_REMOVE (R402). -/
  | bayRemove (c : Cmd)
  /-- BAY_QUERY (R395). -/
  | bayQuery (c : Cmd)
  /-- SESSION_END (R416). -/
  | sessionEnd (c : Cmd)
  /-- MPU_WRITE (R446). -/
  | mpuWrite (c : Cmd)
  /-- GARNET_WINDOW_SET (R444). -/
  | garnetWindowSet (c : Cmd)
  /-- GARNET_COMMIT (R452). -/
  | garnetCommit (c : Cmd)
  /-- VIOLATION_READ (R451). -/
  | violationRead (c : Cmd)
  /-- IDE_STREAM_SET (R96). -/
  | ideStreamSet (c : Cmd)
  /-- SPAN_REKEY (R185). -/
  | spanRekey (c : Cmd)
  /-- LOCK_SET (R440). -/
  | lockSet (c : Cmd)
  /-- ZEROIZE (R438). -/
  | zeroize (c : Cmd)
  /-- SELFTEST (R436). -/
  | selftest (c : Cmd)
  /-- APPROVED_GET (R437). -/
  | approvedGet (c : Cmd)
  /-- EVENT_REACTION_SET (R87). -/
  | eventReactionSet (c : Cmd)
  /-- FIRST_EVENT_READ (R468). -/
  | firstEventRead (c : Cmd)
  /-- HISTORY_READ (R469). -/
  | historyRead (c : Cmd)
  /-- EVENT_RING_SET (R471). -/
  | eventRingSet (c : Cmd)
  /-- NEWEL_CONFIG (R88). -/
  | newelConfig (c : Cmd)
  /-- NEWEL_ON (R509). -/
  | newelOn (c : Cmd)
  /-- NEWEL_OFF (R509). -/
  | newelOff (c : Cmd)
  /-- NEWEL_STATUS (R510). -/
  | newelStatus (c : Cmd)
  /-- STAIRWELL_SET (R493). -/
  | stairwellSet (c : Cmd)
  /-- NEWEL_CLEAR (R503). -/
  | newelClear (c : Cmd)
  /-- COUNTERS_READ (R89). -/
  | countersRead (c : Cmd)
  /-- SENSORS_READ (R89). -/
  | sensorsRead (c : Cmd)
  /-- TELEMETRY_STREAM (R97). -/
  | telemetryStream (c : Cmd)
  /-- MCTP_COMMAND_RECEIVE (R53), with the transmission units that carry the message. -/
  | mctpCommandReceive (o : Origin) (units : List Bytes) (env : Env)
  /-- CMD_DOORBELL (R51). -/
  | cmdDoorbell (port prod : Nat)
  /-- RPL_CONS_WRITE (R550). -/
  | rplConsWrite (port cons : Nat)
  /-- RING_ENABLE (R549). -/
  | ringEnable (port value : Nat)
  /-- RING_STOP (R549). -/
  | ringStop (port value : Nat)
  /-- RING_COMMAND_FETCH (R52). -/
  | ringCommandFetch (port : Nat) (slot : Bytes) (env : Env)
  /-- AT_EVR_CONS_WRITE (R471). -/
  | atEvrConsWrite (cons : Nat)
  /-- AT_INT_STATUS_WRITE (R470). -/
  | atIntStatusWrite (value : Nat)
  /-- GE_SQ_DB (R346). -/
  | geSqDb (bay value : Nat) (env : GEnv)
  /-- GE_RQ_DB (R346). -/
  | geRqDb (bay value : Nat) (env : GEnv)
  /-- GE_CR_DB (R349). -/
  | geCrDb (bay value : Nat)
  /-- GE_SQ_PUSH (R347). -/
  | geSqPush (bay : Nat) (bytes : Bytes) (aligned : Bool) (env : GEnv)
  /-- AL_TX_DB (R408). -/
  | alTxDb (side : Side) (bay : Nat)
  /-- AL_RX_POP (R411). -/
  | alRxPop (side : Side) (bay : Nat)
  /-- AL_RX_BUF_READ (R411). -/
  | alRxBufRead (side : Side) (bay word : Nat)
  /-- FLUSH_RX (R412). -/
  | flushRx (side : Side) (bay : Nat)
  /-- FLUSH_TX (R412). -/
  | flushTx (side : Side) (bay : Nat)
  /-- FIFO_FLUSH_TAKE_EFFECT (R412). -/
  | fifoFlushTakeEffect (side : Side) (bay : Nat)
  /-- AL_STATUS_WRITE (R409). -/
  | alStatusWrite (side : Side) (bay value : Nat)
  /-- FIFO_POINTER_RESET (R413). -/
  | fifoPointerReset (fifo : Fifo)
  /-- SC_LEAF_CFG_WRITE (R287). -/
  | scLeafCfgWrite (hall leaf value : Nat)
  /-- NW_CH_BOARD_WRITE (R482). -/
  | nwChBoardWrite (ch reg value : Nat)
  /-- NW_CH_ASSOC_WRITE (R508). -/
  | nwChAssocWrite (ch value : Nat)
  /-- LATCHED_LO_READ (R311). -/
  | latchedLoRead (reg : LoReg)
  /-- RC_COUNTER_READ (R14). -/
  | rcCounterRead (via addr : Nat)
  /-- REGISTER_WRITE (R12). -/
  | registerWrite (via addr value be : Nat)
  /-- BME_CLEAR (R222). -/
  | bmeClear (fn : Fn)
  /-- BME_SET (R223). -/
  | bmeSet (fn : Fn)
  /-- FUNCTION_LEVEL_RESET (R396). -/
  | functionLevelReset (bay : Nat)
  /-- VF_ENABLE_CLEAR (R396). -/
  | vfEnableClear (port numVfs : Nat)
  /-- HOT_RESET (R527). -/
  | hotReset (port : Nat)
  /-- PERST_N_ASSERT (R527). -/
  | perstNAssert (idx : Nat)
  /-- PERST_N_DEASSERT (R525). -/
  | perstNDeassert (idx : Nat)
  /-- POR_N_LOW (R533). -/
  | porNLow
  /-- POR_N_RISE (R514). -/
  | porNRise (straps : Straps) (aonLost : Bool)
  /-- RAIL_OUT_OF_RANGE (R515). -/
  | railOutOfRange (rail : Nat)
  /-- RAIL_RESTORED (R515). -/
  | railRestored (rail : Nat)
  /-- PLL_ROOT_LOCK (R522). -/
  | pllRootLock
  /-- ATRIUM_INIT_DONE (R522). -/
  | atriumInitDone
  /-- BEDROCK_READY (R522). -/
  | bedrockReady (patchOk testsOk : Bool)
  /-- MEZZANINE_IMAGE_VERIFIED (R421). -/
  | mezzanineImageVerified (slot : Nat) (flash : Option Bytes)
  /-- MEZZANINE_RUNNING (R526). -/
  | mezzanineRunning
  /-- WATCHDOG_EXPIRY (R531). -/
  | watchdogExpiry
  /-- MEZZ_EXCEPTION (R531). -/
  | mezzException (core : Nat)
  /-- ROOT_PLL_LOCK_LOSS (R28). -/
  | rootPllLockLoss
  /-- QUAD_PLL_LOCK_LOSS (R99). -/
  | quadPllLockLoss (quad : Nat)
  /-- ELASTIC_SLIP (R101). -/
  | elasticSlip (lane : Nat)
  /-- CDR_LOCK_LOSS (R120). -/
  | cdrLockLoss (lane : Nat)
  /-- ALIGN_WORD_MISS (R120). -/
  | alignWordMiss (lane : Nat)
  /-- ALIGNMENT_FOUND (R118): the word received on each lane, the skew between lanes in UI, and the CTLE chosen on each. -/
  | alignmentFound (port : Nat) (words : List (List Nat)) (skew : Nat) (ctle : List Nat)
  /-- FLIT_RX_DATA (R138), with the line levels received on each lane since the slot before: those of the flit, after those of an
  alignment word where one precedes it. -/
  | flitRxData (port : Nat) (rx : List (List Nat))
  /-- FLIT_RX_IDLE (R135). -/
  | flitRxIdle (port : Nat) (rx : List (List Nat))
  /-- FLIT_RX_TRAIN (R162), with what each receiver lane now asks of the partner's transmitter, 0 when it is satisfied (R110). -/
  | flitRxTrain (port : Nat) (rx : List (List Nat)) (ask : List Nat)
  /-- FLIT_RX_KEYX (R430). -/
  | flitRxKeyx (port : Nat) (rx : List (List Nat)) (env : KeyxEnv)
  /-- FLIT_RX_INIT (R169). -/
  | flitRxInit (port : Nat) (rx : List (List Nat))
  /-- LEAK_IDLE_RESET (R190). -/
  | leakIdleReset (port : Nat) (cls : Cls)
  /-- RESIZE_REQ (R178). -/
  | resizeReq (port : Nat) (rx : List (List Nat))
  /-- RESIZE_ACK (R178). -/
  | resizeAck (port : Nat) (rx : List (List Nat))
  /-- RESIZE_SWITCH (R178). -/
  | resizeSwitch (port : Nat)
  /-- ACK_TMR_EXPIRY (R156). -/
  | ackTmrExpiry (port : Nat)
  /-- REPLAY_TMR_EXPIRY (R159). -/
  | replayTmrExpiry (port : Nat)
  /-- REPLAY_STALL (R161). -/
  | replayStall (port : Nat)
  /-- EQ_TIMEOUT (R111). -/
  | eqTimeout (port : Nat)
  /-- KEYX_TIMEOUT (R162). -/
  | keyxTimeout (port : Nat)
  /-- INIT_TIMEOUT (R162). -/
  | initTimeout (port : Nat)
  /-- FRESH_TRAINING_RETRY (R166). -/
  | freshTrainingRetry (port : Nat)
  /-- IDLE_HALF_WIDTH (R182). -/
  | idleHalfWidth (port : Nat)
  /-- KEY_LIMIT_REACHED (R185). -/
  | keyLimitReached (port : Nat)
  /-- KEY_NEXT (R185). -/
  | keyNext (port index : Nat)
  /-- KEY_INDEX_EXHAUSTED (R186). -/
  | keyIndexExhausted (port : Nat)
  /-- KEYX_MGT_MESSAGE (R186), with the KEYX payload the message carries. -/
  | keyxMgtMessage (port : Nat) (payload : Bytes) (env : KeyxEnv)
  /-- TIME_EXCHANGE_START (R314). -/
  | timeExchangeStart (port : Nat) (t1 : Int)
  /-- TIME_REQ (R314). -/
  | timeReq (port : Nat) (t2 t3 : Int)
  /-- TIME_RSP (R315). -/
  | timeRsp (port : Nat) (t2 t3 t4 : Int)
  /-- PTM_EXCHANGE (R194). -/
  | ptmExchange (port hostNs : Nat) (t1 t2 t3 t4 : Int)
  /-- MESSAGE_INGRESS (R245). -/
  | messageIngress (port : Nat) (fc : Fc)
  /-- TLP_RECEIVE (R239). -/
  | tlpReceive (port : Nat) (tlp : Tlp)
  /-- ENGINE_MESSAGE_WAIT (R248). -/
  | engineMessageWait (source : Nat)
  /-- DEFER_HEAD_RELEASE (R322). -/
  | deferHeadRelease (hall meter : Nat)
  /-- MESSAGE_TRANSMIT_START (R291). -/
  | messageTransmitStart (port : Nat) (fc : Fc)
  /-- TRANSMISSION_END (R563). -/
  | transmissionEnd (port : Nat)
  /-- FENCE_REMOVAL (R256). -/
  | fenceRemoval (hall leaf : Nat)
  /-- WHEEL_RELEASE (R298). -/
  | wheelRelease (hall : Nat)
  /-- FLIGHT_ENTRY_BOUNDARY (R308). -/
  | flightEntryBoundary (port : Nat)
  /-- FLIGHT_TAKEOVER (R306). -/
  | flightTakeover (port : Nat)
  /-- HOLD_GRACE_EXPIRY (R265). -/
  | holdGraceExpiry (port : Nat)
  /-- PAUSE_DRAINED (R268). -/
  | pauseDrained (group entry : Nat)
  /-- REBAL_WAIT_EXPIRY (R269). -/
  | rebalWaitExpiry (group entry : Nat)
  /-- MULTICAST_COPY_CROSS (R272). -/
  | multicastCopyCross (mid hall : Nat)
  /-- MGT_BROADCAST (R278). -/
  | mgtBroadcast (src : BSrc)
  /-- MGT_BROADCAST_COPY_LEAVE (R278). -/
  | mgtBroadcastCopyLeave (hall pipe port : Nat) (fc : Fc)
  /-- FLUSH_COMPLETION_ISSUE (R280). -/
  | flushCompletionIssue (port : Nat)
  /-- FLUSH_END (R281). -/
  | flushEnd (port : Nat)
  /-- AMBER_ENTRY (R228). -/
  | amberEntry (port : Nat)
  /-- LINK_UP (R201). -/
  | linkUp (port : Nat) (info : LinkInfo)
  /-- LINK_TRAINING_FAIL (R233). -/
  | linkTrainingFail (port : Nat)
  /-- LINK_DOWN (R39). -/
  | linkDown (port : Nat)
  /-- LOOPBACK_REQUEST (R129). -/
  | loopbackRequest (port : Nat)
  /-- IDE_INTEGRITY_FAIL (R213). -/
  | ideIntegrityFail (port stream : Nat)
  /-- IDE_KEY_PROG (R426), with the key set of the K bit and its keys: transmit posted, non-posted, completion, then receive. -/
  | ideKeyProg (port stream kind id set : Nat) (keys : List Nat)
  /-- L1_IDLE_EXPIRY (R217). -/
  | l1IdleExpiry (port : Nat)
  /-- L1_EXIT_COMPLETE (R221). -/
  | l1ExitComplete (port : Nat)
  /-- L0P_HALVE (R219). -/
  | l0pHalve (port : Nat)
  /-- L0P_FULL_WIDTH (R219). -/
  | l0pFullWidth (port : Nat)
  /-- PARTNER_POWER_REQUEST (R220). -/
  | partnerPowerRequest (port : Nat) (l1 : Bool) (width : Nat)
  /-- UNBIND_DRAIN_EXPIRY (R204). -/
  | unbindDrainExpiry (port ld : Nat)
  /-- EYE_SCAN_END (R125). -/
  | eyeScanEnd (port lane : Nat) (upper middle lower : Eye)
  /-- PRBS_LOCK_LOSS (R122), with the line symbols received. -/
  | prbsLockLoss (lane : Nat) (symbols : List Nat)
  /-- PACKET_FIRST_SEND (R376). -/
  | packetFirstSend (qpn : Nat) (env : GEnv)
  /-- CONTEXT_FETCH_COMPLETE (R365). -/
  | contextFetchComplete (qpn : Nat) (ok checkOk : Bool) (sq rq : GEnv)
  /-- CONTEXT_WRITE_BACK_DONE (R364). -/
  | contextWriteBackDone (qpn : Nat)
  /-- GALLERY_WRITE (R370). -/
  | galleryWrite (pkt : Msg) (env : GEnv)
  /-- GALLERY_READ_REQ (R382). -/
  | galleryReadReq (pkt : Msg) (env : GEnv)
  /-- GALLERY_READ_RSP (R383). -/
  | galleryReadRsp (pkt : Msg) (env : GEnv)
  /-- GALLERY_SEND (R381). -/
  | gallerySend (pkt : Msg) (env : GEnv)
  /-- GALLERY_DATAGRAM (R381). -/
  | galleryDatagram (pkt : Msg) (env : GEnv)
  /-- GALLERY_ACK (R357). -/
  | galleryAck (pkt : Msg)
  /-- GALLERY_NAK (R358). -/
  | galleryNak (pkt : Msg)
  /-- RETRY_LATER_RESEND (R359). -/
  | retryLaterResend (qpn msn offset : Nat)
  /-- RTO_EXPIRY (R357). -/
  | rtoExpiry (qpn msn offset : Nat)
  /-- COMPLETION_WRITE (R348). -/
  | completionWrite (qpn : Nat)
  /-- ATS_INVALIDATION (R373). -/
  | atsInvalidation (port page : Nat)
  /-- PAGE_RESPONSE (R375). -/
  | pageResponse (bay page : Nat) (ok : Bool)
  /-- MR_DEREGISTER_DONE (R371). -/
  | mrDeregisterDone (handle : Nat)
  /-- BAY_DRAIN_END (R399). -/
  | bayDrainEnd (bay : Nat)
  /-- DRAIN_LIMIT_EXPIRY (R400). -/
  | drainLimitExpiry (bay : Nat)
  /-- BAY_RESET_COMPLETE (R401). -/
  | bayResetComplete (bay : Nat)
  /-- DEVICE_NOTICE_POST (R406). -/
  | deviceNoticePost (bay : Nat)
  /-- TAG_QUARANTINE_RELEASE (R400). -/
  | tagQuarantineRelease (port tag : Nat)
  /-- STOP_INTERFACE (R216). -/
  | stopInterface (bay : Nat)
  /-- KEY_EXCHANGE (R417). -/
  | keyExchange (party : Party) (id period : Nat)
  /-- FINISH (R415). -/
  | spdmFinish (id : Nat) (ok : Bool)
  /-- END_SESSION (R416). -/
  | endSession (o : Origin) (id : Nat)
  /-- HEARTBEAT (R417). -/
  | heartbeat (o : Origin) (id : Nat)
  /-- HEARTBEAT_EXPIRY (R416). -/
  | heartbeatExpiry (id : Nat)
  /-- KEY_UPDATE (R426). -/
  | keyUpdate (o : Origin) (id : Nat)
  /-- GET_MEASUREMENTS (R423). -/
  | getMeasurements (o : Origin)
  /-- OFFICER_ENROL (R418). -/
  | officerEnrol (o : Origin) (session slot : Nat) (revoke : Bool) (hash : Nat)
  /-- DRBG_RESEED (R426). -/
  | drbgReseed
  /-- SELF_TEST_FAILURE (R435). -/
  | selfTestFailure (cause : Nat)
  /-- DEBUG_TOKEN (R442). -/
  | debugToken (anchor : Nat) (sigOk : Bool)
  /-- OLD_EPOCH_DRAINED (R454). -/
  | oldEpochDrained (mpu : Nat)
  /-- COMMIT_WAIT_EXPIRY (R454). -/
  | commitWaitExpiry (mpu : Nat)
  /-- EVENT_DRAIN (R464). -/
  | eventDrain (lane : Nat)
  /-- WIRED_BAY_RESET (R461). -/
  | wiredBayReset (bay : Nat)
  /-- BASALT_ENTRY (R474). -/
  | basaltEntry
  /-- ATRIUM_SELF (R473). -/
  | atriumSelf (cause : Nat)
  /-- TELEMETRY_PERIOD (R97). -/
  | telemetryPeriod (stream : Nat)
  /-- THERMAL_SAMPLE (R560). -/
  | thermalSample (die : Nat) (quarterC : Int)
  /-- WAIT_TO_QUEUED (R484). -/
  | waitToQueued (ch : Nat)
  /-- STAIRWELL_ADMISSION (R491). -/
  | stairwellAdmission (feed : Nat)
  /-- PG_ASSERT (R497). -/
  | pgAssert (ch : Nat)
  /-- PG_LOSS (R498). -/
  | pgLoss (ch : Nat)
  /-- START_TIMEOUT (R496). -/
  | startTimeout (ch : Nat)
  /-- FAST_TRIP (R499). -/
  | fastTrip (ch : Nat)
  /-- OC_TIMEOUT (R499). -/
  | ocTimeout (ch : Nat)
  /-- OVER_TEMPERATURE (R507). -/
  | overTemperature (ch : Nat)
  /-- RETRY_TIMER_EXPIRY (R485). -/
  | retryTimerExpiry (ch : Nat)
  /-- PG_HOLD_10S (R501). -/
  | pgHold10s (ch : Nat)
  /-- BOARD_INSERTION (R502). -/
  | boardInsertion (ch : Nat)
  /-- BOARD_REMOVAL (R502). -/
  | boardRemoval (ch : Nat)
  /-- FET_SHORT (R504). -/
  | fetShort (ch : Nat)
  /-- FEED_BAD (R487). -/
  | feedBad (feed volt : Nat)
  /-- FEED_GOOD (R487). -/
  | feedGood (feed volt : Nat)
  /-- DEAD_TIME_EXPIRY (R488). -/
  | deadTimeExpiry (ch : Nat)
  /-- PG_BLANKING_END (R489). -/
  | pgBlankingEnd (ch : Nat) (outputMv : Nat)
  /-- FEED_DROOP (R494). -/
  | feedDroop (feed volt : Nat)
  /-- FEED_DROOP_END (R494). -/
  | feedDroopEnd (feed volt : Nat)
  /-- VNEWEL_UNDERVOLTAGE (R512). -/
  | vnewelUndervoltage
  /-- VNEWEL_RESTORED (R512). -/
  | vnewelRestored
  /-- DIODE_MEASURE (R505). -/
  | diodeMeasure (ch : Nat) (d0 d1 d2 : Diode)
  /-- THERMAL_MODEL_UPDATE (R506). -/
  | thermalModelUpdate (ch vdsMv iMa : Nat)
  /-- NW_PERST_N_RISE (R530). -/
  | nwPerstNRise (ch : Nat)
  /-- RECEIVER_DETECT (R234). -/
  | receiverDetect (port : Nat) (detected : Bool)
  /-- UNCORRECTABLE_MEMORY_ERROR (R457). -/
  | uncorrectableMemoryError (err : MemErr)
  /-- HALL_LINK_ERROR (R457). -/
  | hallLinkError (hall : Nat)
  /-- LOCK_INTERFACE_REQUEST (R215), with the Stream ID the TDI is to use. -/
  | lockInterfaceRequest (bay stream : Nat)
  /-- START_INTERFACE_REQUEST (R215). -/
  | startInterfaceRequest (bay : Nat)
  /-- CONFIGURATION_REQUEST (R526). -/
  | configurationRequest (fn : Fn) (op : CfgOp)
  /-- HOT_RESET_EXIT (R527). -/
  | hotResetExit (port : Nat)
  /-- PRBS_CHECKER_LOCK (R122), with the line symbols received. -/
  | prbsCheckerLock (lane : Nat) (symbols : List Nat)
  /-- DEBUG_HALT (R442). -/
  | debugHalt (halt : Bool)
  deriving DecidableEq, Repr

end Sys2Proof
end

