-- ==== Sys2Proof/Decode.lean ====
section
/-! DEFINITION. The commands the table's bits spell. -/

namespace Sys2Proof

/-- No row of spec/opcode_table.json gives bits: a command is no word, and every word spells none. -/
def decodeTableWord (_nbits _w : Nat) : Option Instr := none

end Sys2Proof
end

