-- ==== Sys2Proof/Machine/Crypto.lean ====
section
/-! DEFINITION. The cryptographic functions of the standards the manual names (00_scope: NIST AES-GCM, ECDSA over P-384 with
SHA-384, and the HMAC and HKDF that SPDM builds on it), on bytes as numbers. They are written from the standards' own
algorithms; the manual names the standards and restates none of them. -/

namespace Sys2Proof.Machine.Crypto

open Sys2Proof

/-! ## Bytes and big-endian numbers -/

/-- A number from bytes, most significant first. -/
def ofBE (bs : Bytes) : Nat := bs.foldl (fun n b => 256 * n + b % 256) 0

/-- `n` bytes of a number, most significant first. -/
def toBE : Nat → Nat → Bytes
  | 0, _ => []
  | n + 1, v => v / 256 ^ n % 256 :: toBE n v

/-- Blocks of `w` bytes; the last may be shorter. `fuel` bounds the number of blocks. -/
def blocksOf (w : Nat) : Nat → Bytes → List Bytes
  | 0, _ => []
  | f + 1, bs => if bs.isEmpty then [] else bs.take w :: blocksOf w f (bs.drop w)

def blocks (w : Nat) (bs : Bytes) : List Bytes := blocksOf w bs.length bs

/-- Bytes with zeros after them up to a length. -/
def zeroTo (n : Nat) (bs : Bytes) : Bytes := bs ++ List.replicate (n - bs.length) 0

/-! ## AES-256 (the block cipher of SP 800-38D) -/

/-- The S-box, entry x in byte x. -/
def sboxWord : Nat :=
  0x16bb54b00f2d99416842e6bf0d89a18cdf2855cee9871e9b948ed9691198f8e19e1dc186b95735610ef6034866b53e708a8bbd4b1f74dde8c6b4a61c2e2578ba08ae7a65eaf4566ca94ed58d6d37c8e779e4959162acd3c25c2406490a3a32e0db0b5ede14b8ee4688902a22dc4f816073195d643d7ea7c41744975fec130ccdd2f3ff1021dab6bcf5389d928f40a351a89f3c507f02f94585334d43fbaaefd0cf584c4a39becb6a5bb1fc20ed00d153842fe329b3d63b52a05a6e1b1a2c830975b227ebe28012079a059618c323c7041531d871f1e5a534ccf73f362693fdb7c072a49cafa2d4adf04759fa7dc982ca76abd7fe2b670130c56f6bf27b777c63

def sbox (x : Nat) : Nat := (sboxWord >>> (8 * (x % 256))) % 256

/-- Multiplication by x in GF(2^8). -/
def xtime (b : Nat) : Nat := if b < 128 then 2 * b else (2 * b - 256) ^^^ 0x1B

def xorBytes (a b : Bytes) : Bytes := List.zipWith (· ^^^ ·) a b

/-- The words of the key schedule, newest first, until 60 are there. -/
def keyWords : Nat → Nat → List Bytes → List Bytes
  | 0, _, w => w
  | f + 1, i, w =>
    let last := w.headD []
    let t :=
      if i % 8 = 0 then xorBytes ((last.drop 1 ++ last.take 1).map sbox) [2 ^ (i / 8 - 1), 0, 0, 0]
      else if i % 8 = 4 then last.map sbox else last
    keyWords f (i + 1) (xorBytes (w[7]?.getD []) t :: w)

/-- The fifteen round keys of a 32-byte key. -/
def roundKeys (key : Bytes) : List Bytes :=
  blocks 16 (keyWords 52 8 (blocks 4 (zeroTo 32 key)).reverse).reverse.flatten

def shiftRows (b : Bytes) : Bytes :=
  [0, 5, 10, 15, 4, 9, 14, 3, 8, 13, 2, 7, 12, 1, 6, 11].map fun i => b[i]?.getD 0

def mixColumn : Bytes → Bytes
  | [a, b, c, d] =>
    [xtime a ^^^ xtime b ^^^ b ^^^ c ^^^ d, a ^^^ xtime b ^^^ xtime c ^^^ c ^^^ d, a ^^^ b ^^^ xtime c ^^^ xtime d ^^^ d,
     xtime a ^^^ a ^^^ b ^^^ c ^^^ xtime d]
  | l => l

/-- The rounds after the first key addition. -/
def aesRounds : List Bytes → Bytes → Bytes
  | [], b => b
  | [k], b => xorBytes (shiftRows (b.map sbox)) k
  | k :: r, b => aesRounds r (xorBytes ((blocks 4 (shiftRows (b.map sbox))).flatMap mixColumn) k)

/-- One block under round keys. -/
def aesBlock (ks : List Bytes) (b : Bytes) : Bytes := aesRounds (ks.drop 1) (xorBytes b (ks.headD []))

/-! ## GCM with a 96-bit IV and a 128-bit tag -/

/-- A product in GF(2^128) in the bit order of GCM: `n` bits of `x` remain. -/
def gfMulFrom (x : Nat) : Nat → Nat → Nat → Nat
  | 0, _, z => z
  | n + 1, v, z =>
    gfMulFrom x n (if v % 2 = 1 then (v / 2) ^^^ 0xE1000000000000000000000000000000 else v / 2)
      (if x.testBit n then z ^^^ v else z)

def gfMul (x h : Nat) : Nat := gfMulFrom x 128 h 0

def ghash (h : Nat) (bs : Bytes) : Nat := (blocks 16 bs).foldl (fun y b => gfMul (y ^^^ ofBE (zeroTo 16 b)) h) 0

/-- The counter block `n` after J0 of a 12-byte IV. -/
def gcmCtr (iv : Bytes) (n : Nat) : Bytes := zeroTo 12 iv ++ toBE 4 (1 + n)

def gcmStream (ks : List Bytes) (iv : Bytes) : Nat → List Bytes → Bytes
  | _, [] => []
  | n, b :: r => xorBytes b (aesBlock ks (gcmCtr iv n)) ++ gcmStream ks iv (n + 1) r

/-- Bytes padded with zeros to whole blocks. -/
def pad16 (bs : Bytes) : Bytes := zeroTo (16 * ((bs.length + 15) / 16)) bs

/-- The tag of a ciphertext with its additional data. -/
def gcmTagOf (ks : List Bytes) (iv aad ct : Bytes) : Bytes :=
  let h := ofBE (aesBlock ks (List.replicate 16 0))
  let s := ghash h (pad16 aad ++ pad16 ct ++ toBE 8 (8 * aad.length) ++ toBE 8 (8 * ct.length))
  toBE 16 (s ^^^ ofBE (aesBlock ks (gcmCtr iv 0)))

/-- AES-256-GCM: ciphertext and tag. -/
def gcmSeal (key iv aad pt : Bytes) : Bytes × Bytes :=
  let ks := roundKeys key
  let ct := gcmStream ks iv 1 (blocks 16 pt)
  (ct, gcmTagOf ks iv aad ct)

/-- AES-256-GCM: the plaintext when the tag verifies. -/
def gcmOpen (key iv aad ct tag : Bytes) : Option Bytes :=
  let ks := roundKeys key
  if gcmTagOf ks iv aad ct == tag then some (gcmStream ks iv 1 (blocks 16 ct)) else none

/-! ## SHA-384 -/

def w64 (n : Nat) : Nat := n % 0x10000000000000000
def rotr (n x : Nat) : Nat := x >>> n ^^^ w64 (x <<< (64 - n))

def shaK0 : List Nat := [0x428a2f98d728ae22, 0x7137449123ef65cd, 0xb5c0fbcfec4d3b2f, 0xe9b5dba58189dbbc, 0x3956c25bf348b538,
  0x59f111f1b605d019, 0x923f82a4af194f9b, 0xab1c5ed5da6d8118, 0xd807aa98a3030242, 0x12835b0145706fbe,
  0x243185be4ee4b28c, 0x550c7dc3d5ffb4e2, 0x72be5d74f27b896f, 0x80deb1fe3b1696b1, 0x9bdc06a725c71235,
  0xc19bf174cf692694, 0xe49b69c19ef14ad2, 0xefbe4786384f25e3, 0x0fc19dc68b8cd5b5, 0x240ca1cc77ac9c65]
def shaK1 : List Nat := [0x2de92c6f592b0275, 0x4a7484aa6ea6e483, 0x5cb0a9dcbd41fbd4, 0x76f988da831153b5, 0x983e5152ee66dfab,
  0xa831c66d2db43210, 0xb00327c898fb213f, 0xbf597fc7beef0ee4, 0xc6e00bf33da88fc2, 0xd5a79147930aa725,
  0x06ca6351e003826f, 0x142929670a0e6e70, 0x27b70a8546d22ffc, 0x2e1b21385c26c926, 0x4d2c6dfc5ac42aed,
  0x53380d139d95b3df, 0x650a73548baf63de, 0x766a0abb3c77b2a8, 0x81c2c92e47edaee6, 0x92722c851482353b]
def shaK2 : List Nat := [0xa2bfe8a14cf10364, 0xa81a664bbc423001, 0xc24b8b70d0f89791, 0xc76c51a30654be30, 0xd192e819d6ef5218,
  0xd69906245565a910, 0xf40e35855771202a, 0x106aa07032bbd1b8, 0x19a4c116b8d2d0c8, 0x1e376c085141ab53,
  0x2748774cdf8eeb99, 0x34b0bcb5e19b48a8, 0x391c0cb3c5c95a63, 0x4ed8aa4ae3418acb, 0x5b9cca4f7763e373,
  0x682e6ff3d6b2b8a3, 0x748f82ee5defb2fc, 0x78a5636f43172f60, 0x84c87814a1f0ab72, 0x8cc702081a6439ec]
def shaK3 : List Nat := [0x90befffa23631e28, 0xa4506cebde82bde9, 0xbef9a3f7b2c67915, 0xc67178f2e372532b, 0xca273eceea26619c,
  0xd186b8c721c0c207, 0xeada7dd6cde0eb1e, 0xf57d4f7fee6ed178, 0x06f067aa72176fba, 0x0a637dc5a2c898a6,
  0x113f9804bef90dae, 0x1b710b35131c471b, 0x28db77f523047d84, 0x32caab7b40c72493, 0x3c9ebe0a15c9bebc,
  0x431d67c49c100d4c, 0x4cc5d4becb3e42b6, 0x597f299cfc657e2a, 0x5fcb6fab3ad6faec, 0x6c44198c4a475817]

def shaK : List Nat := shaK0 ++ shaK1 ++ shaK2 ++ shaK3

def shaInit : List Nat :=
  [0xcbbb9d5dc1059ed8, 0x629a292a367cd507, 0x9159015a3070dd17, 0x152fecd8f70e5939,
   0x67332667ffc00b31, 0x8eb44a8768581511, 0xdb0c2e0d64f98fa7, 0x47b5481dbefa4fa4]

/-- The message schedule: words newest first, `n` more to come. -/
def shaSched : Nat → List Nat → List Nat
  | 0, w => w
  | n + 1, w =>
    let a := w[1]?.getD 0
    let b := w[14]?.getD 0
    let s1 := rotr 19 a ^^^ rotr 61 a ^^^ (a >>> 6)
    let s0 := rotr 1 b ^^^ rotr 8 b ^^^ (b >>> 7)
    shaSched n (w64 (s1 + w[6]?.getD 0 + s0 + w[15]?.getD 0) :: w)

def shaRound (h : List Nat) (kw : Nat × Nat) : List Nat :=
  match h with
  | [a, b, c, d, e, f, g, i] =>
    let t1 := i + (rotr 14 e ^^^ rotr 18 e ^^^ rotr 41 e) + ((e &&& f) ^^^ ((0xFFFFFFFFFFFFFFFF ^^^ e) &&& g)) + kw.1 + kw.2
    let t2 := (rotr 28 a ^^^ rotr 34 a ^^^ rotr 39 a) + ((a &&& b) ^^^ (a &&& c) ^^^ (b &&& c))
    [w64 (t1 + t2), a, b, c, w64 (d + t1), e, f, g]
  | l => l

def shaBlock (h : List Nat) (b : Bytes) : List Nat :=
  let w := (shaSched 64 ((blocks 8 b).map ofBE).reverse).reverse
  List.zipWith (fun x y => w64 (x + y)) h ((shaK.zip w).foldl shaRound h)

/-- SHA-384 (FIPS 180-4): 48 bytes. -/
def sha384 (bs : Bytes) : Bytes :=
  let n := bs.length
  let p := bs ++ 0x80 :: List.replicate ((239 - n % 128) % 128) 0 ++ toBE 16 (8 * n)
  ((((blocks 128 p).foldl shaBlock shaInit).take 6).flatMap (toBE 8))

/-! ## HMAC and HKDF with SHA-384 -/

def hmac (key msg : Bytes) : Bytes :=
  let k := zeroTo 128 (if 128 < key.length then sha384 key else key)
  sha384 (k.map (· ^^^ 0x5C) ++ sha384 (k.map (· ^^^ 0x36) ++ msg))

def hkdfExtract (salt ikm : Bytes) : Bytes := hmac salt ikm

def hkdfFrom (prk info : Bytes) : Nat → Nat → Bytes → Bytes
  | 0, _, _ => []
  | f + 1, i, t => let u := hmac prk (t ++ info ++ [i]); u ++ hkdfFrom prk info f (i + 1) u

/-- HKDF-Expand to `len` bytes. -/
def hkdfExpand (prk info : Bytes) (len : Nat) : Bytes := (hkdfFrom prk info ((len + 47) / 48) 1 []).take len

/-! ## P-384 and ECDSA -/

def pP : Nat := 0xfffffffffffffffffffffffffffffffffffffffffffffffffffffffffffffffeffffffff0000000000000000ffffffff
def pB : Nat := 0xb3312fa7e23ee7e4988e056be3f82d19181d9c6efe8141120314088f5013875ac656398d8a2ed19d2a85c8edd3ec2aef
def pN : Nat := 0xffffffffffffffffffffffffffffffffffffffffffffffffc7634d81f4372ddf581a0db248b0a77aecec196accc52973
def pGx : Nat := 0xaa87ca22be8b05378eb1c71ef320ad746e1d3b628ba79b9859f741e082542a385502f25dbf55296c3a545e3872760ab7
def pGy : Nat := 0x3617de4a96262c6f5d9e98bf9292dc29f8f41dbd289a147ce9da3113b5f0b8c00a60b1ce1d7e819d7a431d7c90ea0e5f

/-- x^e mod m, for an exponent of at most `n` bits. -/
def powMod (m x : Nat) : Nat → Nat → Nat
  | 0, _ => 1
  | n + 1, e => let h := powMod m x n (e / 2); let q := h * h % m; if e % 2 = 1 then q * x % m else q

/-- The inverse modulo a prime of at most 384 bits. -/
def invMod (m x : Nat) : Nat := powMod m x 384 (m - 2)

/-- A point of the curve in Jacobian form: x over z squared, y over z cubed; z is 0 at infinity. -/
structure Pt where
  x : Nat
  y : Nat
  z : Nat
  deriving DecidableEq, Repr

def ptInf : Pt := ⟨1, 1, 0⟩

def subMod (a b : Nat) : Nat := (a + pP - b % pP) % pP

def ptDbl (p : Pt) : Pt :=
  let dl := p.z * p.z % pP
  let g := p.y * p.y % pP
  let b := p.x * g % pP
  let al := 3 * subMod p.x dl * (p.x + dl) % pP
  let x := subMod (al * al) (8 * b)
  ⟨x, subMod (al * subMod (4 * b) x) (8 * g * g), subMod ((p.y + p.z) * (p.y + p.z)) (g + dl)⟩

def ptAdd (p q : Pt) : Pt :=
  if p.z = 0 then q
  else if q.z = 0 then p
  else
    let z1 := p.z * p.z % pP
    let z2 := q.z * q.z % pP
    let u1 := p.x * z2 % pP
    let u2 := q.x * z1 % pP
    let s1 := p.y * z2 * q.z % pP
    let s2 := q.y * z1 * p.z % pP
    if u1 = u2 then (if s1 = s2 then ptDbl p else ptInf)
    else
      let h := subMod u2 u1
      let r := subMod s2 s1
      let v := u1 * h * h % pP
      let x := subMod (r * r) (h * h * h + 2 * v)
      ⟨x, subMod (r * subMod v x) (s1 * h * h * h), h * p.z * q.z % pP⟩

/-- k times a point, for k of at most `n` bits. -/
def ptMulFrom (p : Pt) : Nat → Nat → Pt
  | 0, _ => ptInf
  | n + 1, k => let d := ptDbl (ptMulFrom p n (k / 2)); if k % 2 = 1 then ptAdd d p else d

def ptMul (k : Nat) (p : Pt) : Pt := ptMulFrom p 384 k

/-- The coordinates of a point, none at infinity. -/
def ptXY (p : Pt) : Option (Nat × Nat) :=
  if p.z = 0 then none
  else
    let i := invMod pP p.z
    some (p.x * i * i % pP, p.y * i % pP * i * i % pP)

def ptG : Pt := ⟨pGx, pGy, 1⟩

/-- The point (x, y) lies on the curve. -/
def onCurve (x y : Nat) : Bool := decide (x < pP) && decide (y < pP) && (y * y % pP == (x * x * x + (pP - 3) * x + pB) % pP)

/-- ECDSA verification (FIPS 186-5) over P-384 with SHA-384: public key (x, y), signature r then s. -/
def ecdsaOk (x y : Nat) (msg : Bytes) (r s : Nat) : Bool :=
  let w := invMod pN s
  let u := ptAdd (ptMul (ofBE (sha384 msg) * w % pN) ptG) (ptMul (r * w % pN) ⟨x, y, 1⟩)
  onCurve x y && decide (0 < r) && decide (r < pN) && decide (0 < s) && decide (s < pN)
    && (match ptXY u with | some p => p.1 % pN == r | none => false)

/-- A square root modulo p, which is 3 modulo 4. -/
def sqrtP (c : Nat) : Option Nat :=
  let y := powMod pP c 384 ((pP + 1) / 4)
  if y * y % pP = c % pP then some y else none

/-- The public keys under which a signature verifies: the key is the inverse of r times (s R - z G) for a point R whose x
coordinate is r modulo the order. -/
def ecdsaKeys (msg : Bytes) (r s : Nat) : List (Nat × Nat) :=
  let z := ofBE (sha384 msg) % pN
  let w := invMod pN r
  let rs := [r, r + pN].flatMap fun x =>
    if x < pP then
      (match sqrtP (x * x * x + (pP - 3) * x + pB) with | some y => [(x, y), (x, pP - y)] | none => [])
    else []
  rs.filterMap fun p =>
    ptXY (ptAdd (ptMul (s * w % pN) ⟨p.1, p.2, 1⟩) (ptMul ((pN - z) * w % pN) ptG))

/-- An ECDSA signature with private key `d` and per-message number `k`: r then s, 48 bytes each. -/
def ecdsaSign (d k : Nat) (msg : Bytes) : Bytes :=
  let r := match ptXY (ptMul k ptG) with | some p => p.1 % pN | none => 0
  toBE 48 r ++ toBE 48 (invMod pN k * (ofBE (sha384 msg) + r * d) % pN)

end Sys2Proof.Machine.Crypto
end

