-- ==== Sys2Proof/Machine/State.lean ====
section
/-! DEFINITION. The state of the M5120 as plain data, the reasons a step can stop, and the state right after reset.
Each field's line says: what it is; its width; the rule that names it; its reset value. A default written after `:=`
is the reset value. "model" marks a field of the model's own (log entry 1). -/

namespace Sys2Proof.Machine

open Sys2Proof

/-- A step of this model raises no fault: the manual gives every command an effect, and events that cannot arise leave
the state as it is (log entry 4). The one reason is kept for a part outside stepping B0 (R1); safe. -/
inductive Fault where
  /-- Raised by no meaning of this model; safe. -/
  | notStepB0
  deriving DecidableEq, Repr

/-- Why a command is refused. -/
inductive Refusal where
  /-- The command has no meaning in this model yet; safe. -/
  | notModelled (mnemonic : String)
  deriving DecidableEq, Repr

/-- A W1C bit that hardware sets (R12, R13): AT_INT_STATUS, CM_RING_CFG.STOPPED of an H port, TM_STATUS.STEPPED, a bit of
AL_STATUS of a bay's side, a bit of NW_CH_STATUS of a channel. -/
inductive W1c where
  | atEvent
  | atRingDrop
  | ring (port : Nat)
  | stepped
  | al (bay : Nat) (side : Side) (bit : Nat)
  | nw (ch bit : Nat)
  deriving DecidableEq, Repr

/-- An RC register that events raise (R12, R14, R544): a counter of a port, a hall, an engine or a lane by its key, a group's
SW_REBAL_UNDRAINED, a meter's colour, GN_DROP of an MPU, SW_POOL_HWM of a hall. -/
inductive CntKey where
  | port (p key : Nat)
  | hall (h key : Nat)
  | engine (e key : Nat)
  | lane (l key : Nat)
  | undrained (g : Nat)
  | meter (h m colour : Nat)
  | drop (m : Nat)
  | hwm (h : Nat)
  deriving DecidableEq, Repr

/-- What an event of the present cycle has done to an RC register: its value before the first, and the sum (R14). -/
structure Inc where
  key    : CntKey
  before : Nat
  sum    : Nat
  deriving DecidableEq, Repr

/-- The three port types (01, Port types and port states). -/
inductive PortType where
  | h | d | span
  deriving DecidableEq, Repr

/-- The port states of R37. -/
inductive PortState where
  | disabled | training | up | hold | amber | down
  deriving DecidableEq, Repr

/-- The phases of span training (R162). -/
inductive Phase where
  | align | param | rate | eq | keyx | init | failed
  deriving DecidableEq, Repr

/-- The account a stored message's cells are charged to (06, Buffer accounting; R268 for held copies). -/
inductive Acct where
  | min (port : Nat) (cls : Cls)
  | pool (port : Option Nat)
  | engine (e : Nat)
  | mcRsv
  | poolRsv
  deriving DecidableEq, Repr

/-- Where a message goes: a port, an entry of a span group's table, the member of a sprayed packet, a multicast group, a
Gallery engine of this device, nowhere (R206 to R208, R258, R264, R355). -/
inductive Egress where
  | port (p : Nat)
  | entry (g j : Nat)
  | spray (p : Nat)
  | mcast (grp : Nat)
  | engine
  | none
  deriving DecidableEq, Repr

/-- A message accepted by a port whose header has not reached the head of the ingress pipe: where it is bound, the account
of R150 it is charged to when it came without credit, whether it carries a checked access (R453), the port a completion taken
in under a binding goes to (R204), and the device's own function that issued it (R222). -/
structure Arrival where
  msg  : Msg
  dest : Dest
  ovr  : Option Acct := none
  acc  : Bool := false
  goes : Option Nat := none
  fn   : Option Fn := none
  deriving DecidableEq, Repr

/-- A message in the cell buffer (R239, R240): its hall, cells, account, reference count (R272), flow source (R252),
the port whose credits its last cell releases (R245), its group entry, the halls its copies have still to cross to
(R272), and the route of a deferred message (R322); ports toward which its descriptor waits behind a multicast copy of its
flow (R254, R276); leaves it keeps by a LEAF_ASSIGN committed after its header entered (R256), by port; whether its
transmission has begun, and the dc in which the last of its cells has crossed to another hall (R240). -/
structure Stored where
  msg  : Msg
  hall : Nat
  cells : Nat
  acct : Acct
  refs : Nat := 1
  src  : Nat
  cred : Option Nat := none
  entry : Option (Nat × Nat) := none
  cross : List (Nat × List Nat) := []
  route : Egress := .none
  targets : List Nat := []
  wait  : List Nat := []
  leafOf : Tab Nat := []
  leaving : Bool := false
  crossAt : Option Nat := none
  deriving DecidableEq, Repr

/-- An item of a leaf queue: a descriptor, or a fence of R256 with the old leaf and the messages it waits for. -/
inductive QItem where
  | desc (mid : Nat)
  | fence (source : Nat) (cls : Cls) (oldLeaf : Nat) (mids : List Nat)
  deriving DecidableEq, Repr

/-- The binding of a leaf (R286). -/
structure LeafCfg where
  port    : Nat
  service : Nat
  sub     : Nat
  deriving DecidableEq, Repr

/-- A subscriber (R295, R296): the bucket `b` in 2^-24 bytes, `e` the wheel's release time in ns, and the dc of the last change with
the bucket under the values it replaced (R299). -/
structure Sub where
  rate  : Nat
  burst : Nat
  b     : Int
  tLast : Nat := 0
  e     : Option Nat := none
  was   : Option (Nat × Int) := none
  deriving DecidableEq, Repr

/-- A Flight (R304, R305): no entries is the open Flight. -/
structure Flight where
  start   : Nat := 0
  entries : List (Nat × Nat) := []
  deriving DecidableEq, Repr

/-- The message a transmitter is sending (R563). -/
structure Sending where
  msg   : Msg
  endDc : Nat
  flits : Nat := 0
  mid   : Option Nat := none
  entry : Option (Nat × Nat) := none
  deriving DecidableEq, Repr

/-- The scheduler of a port (R291 to R293, R304 to R307). -/
structure Sched where
  /-- DWRR weights of services 2 to 7; 8 each; R293; 16 -/
  weights  : List Nat := [16, 16, 16, 16, 16, 16]
  /-- deficits of services 2 to 7 in bytes; unbounded; R292; 0 -/
  deficit  : List Nat := [0, 0, 0, 0, 0, 0]
  /-- fresh flags of services 2 to 7; 1 each; R292; 1 (a service without descriptors has it set) -/
  fresh    : List Bool := [true, true, true, true, true, true]
  /-- DWRR pointer, service 2 to 7; 3; R292; 2 -/
  ptr      : Nat := 2
  /-- last subscriber served per service; 12 each; R291; 4095 (unlisted) -/
  lastSub  : Tab Nat := []
  /-- last leaf served per subscriber and service, key 8 x subscriber + service; 12 each; R291; 4095 (unlisted) -/
  lastLeaf : Tab Nat := []
  /-- message being sent and the end of its transmission time; -; R563; none -/
  sending  : Option Sending := none
  /-- WIRE mode of LENGTH_MODE_SET; 1; R303; 0 FRAME (DESIGN CHOICE, log 20) -/
  wire     : Bool := false
  /-- OVERHEAD of LENGTH_MODE_SET; 8; R303; 0 (DESIGN CHOICE, log 20) -/
  overhead : Nat := 0
  /-- Flight in force; -; R304; open Flight -/
  flight   : Flight := {}
  /-- MASK of the entry in force; 8; R305, R309; 0xFF -/
  mask     : Nat := 255
  /-- pending Flight; -; R304, R306; none -/
  pendFlight : Option Flight := none
  deriving DecidableEq, Repr

/-- A run of slots of one message in the body of a DATA flit (R142). -/
structure Seg where
  msg   : Msg
  slots : Nat
  first : Bool
  last  : Bool
  deriving DecidableEq, Repr

/-- Outcome of the RS decoder on a received coded flit (R137, R138 step 1). -/
inductive Fec where
  | corrected (bytes : Nat)
  | uncorrectable
  deriving DecidableEq, Repr

/-- A received flit after the lane and the RS decoder: its outcome, the CRC verdict, the link header of R133 and the 240 bytes of
its payload (R131, R138). -/
structure RxFlit where
  fec     : Fec := .corrected 0
  crcOk   : Bool := true
  hdr     : BitVec 64
  payload : Bytes := []
  deriving DecidableEq, Repr

/-- One lane's entry of the TRAIN payload (R164). -/
structure TrainLane where
  eqReq    : Nat := 0
  reqTag   : Nat := 0
  ansTag   : Nat := 0
  ansFlags : Nat := 0
  cm1      : Int := 0
  cp1      : Int := 0
  deriving DecidableEq, Repr

/-- The TRAIN payload (R164). -/
structure Train where
  phase    : Nat
  fdid     : Nat := 0
  m1280    : Bool := false
  retained : Bool := false
  serial   : Nat := 0
  incarn   : Nat := 0
  maxWidth : Nat := 16
  maxRate  : Nat := 0
  width    : Nat := 16
  rate     : Nat := 0
  lanes    : List TrainLane := []
  deriving DecidableEq, Repr

/-- The INIT payload (R168). -/
structure InitP where
  incarn   : Nat := 0
  lastAcc  : Nat := 0xFFFF
  seen     : Bool := false
  retained : Bool := false
  advH     : Cls4 := {}
  advD     : Cls4 := {}
  deriving DecidableEq, Repr

/-- The body of a CTRL flit (R177). -/
structure ResizeBody where
  op       : Nat
  width    : Nat
  rate     : Nat
  maxWidth : Nat
  maxRate  : Nat
  deriving DecidableEq, Repr

/-- A sequenced flit in the Landing (R153): SEQ and KEY_PHASE of its header and its payload, ciphertext and tag, as every
transmission carries them; FLIT_TYPE is CTRL where `ctrl` holds OP, WIDTH and RATE, else DATA. `n` is its N and `seg` the run of
slots it carries, for the counts of R185, R189 and R173. -/
structure LFlit where
  seq   : Nat
  phase : Bool
  ctrl  : Option (Nat × Nat × Nat) := none
  n     : Nat := 0
  seg   : Option Seg := none
  entry : Option (Nat × Nat) := none
  payload : Bytes := []
  deriving DecidableEq, Repr

/-- The key state of a span (R183 to R187, R432). -/
structure SpanKeys where
  /-- both directions hold current keys; 1; R162; 0 -/
  have_    : Bool := false
  /-- transmit key index; 16; R183, R185; 0 -/
  txIdx    : Nat := 0
  /-- transmit N, sequenced flits sent under the key; 32; R184; 0 -/
  txN      : Nat := 0
  /-- KEY_PHASE of the next sequenced flit; 1; R185; 0 (DESIGN CHOICE, log 20) -/
  txPhase  : Bool := false
  /-- receive key index; 16; R185; 0 -/
  rxIdx    : Nat := 0
  /-- receive N; 32; R184; 0 -/
  rxN      : Nat := 0
  /-- KEY_PHASE last accepted; 1; R185; 0 (DESIGN CHOICE, log 20) -/
  rxPhase  : Bool := false
  /-- KEY_NEXT received, new index; 16; R185; none -/
  rxNext   : Option Nat := none
  /-- KEY_NEXT queued or sent and its SEQ once in the Landing; 12; R185; none -/
  nextSeq  : Option (Option Nat) := none
  /-- a fresh exchange as MGT messages is running; 1; R186; 0 -/
  fresh    : Bool := false
  /-- PRK of the transmit direction, of the receive direction, and of a fresh exchange whose keys are not in force; 384 each;
  R432; 0 and none (no keys held) -/
  txPrk    : Nat := 0
  rxPrk    : Nat := 0
  newPrk   : Option Nat := none
  /-- transmit key and salt, receive key and salt; 256 and 64 each; R183, R432; none -/
  txKey    : Bytes := []
  txSalt   : Bytes := []
  rxKey    : Bytes := []
  rxSalt   : Bytes := []
  deriving DecidableEq, Repr

/-- The resize state of a span (R177 to R182): width and rate pairs. -/
structure Resize where
  /-- own RESIZE_REQ outstanding; -; R178; none -/
  req   : Option (Nat × Nat) := none
  /-- exchange complete, agreed width and rate; -; R178; none -/
  agreed : Option (Nat × Nat) := none
  /-- the running resize is autonomous; 1; R182; 0 -/
  auto  : Bool := false
  /-- a SPAN_RESIZE that waits for an autonomous one; -; R180; none -/
  waiting : Option (Nat × Nat) := none
  /-- width and rate before the resize; -; R180; none -/
  before : Option (Nat × Nat) := none
  /-- a CTRL flit that waits for room in the Landing: OP, width, rate; -; R152, R177; none -/
  due   : Option (Nat × Nat × Nat) := none
  /-- the span runs at half width by R182; 1; R182; 0 -/
  half  : Bool := false
  deriving DecidableEq, Repr

/-- The state of a span (04_span_link). -/
structure Span where
  /-- training is retained; 1; R162; 0 -/
  retained : Bool := false
  /-- phase of training; 3; R162; ALIGN -/
  phase    : Phase := .align
  /-- alignment at the agreed rate found in RATE; 1; R162; 0 -/
  rated    : Bool := false
  /-- last TRAIN parameters received, for two identical; -; R162; none -/
  paramRx  : Option Train := none
  /-- the partner's fields were identical in two flits; 1; R162; 0 -/
  paramOk  : Bool := false
  /-- own EQ_DONE, partner's EQ_DONE; 2; R162; 0 -/
  eqDone   : Bool × Bool := (false, false)
  /-- GOT_ALL set, GOT_ALL received; 2; R430; 0 -/
  gotAll   : Bool × Bool := (false, false)
  /-- fragments of KEYX messages received: MSG, FRAG, NFRAG and data; -; R428; none -/
  keyxFrags : List (Nat × Nat × Nat × Bytes) := []
  /-- own ephemeral private key of KEYX; 384; R183; 0 (none drawn) -/
  ephKey   : Nat := 0
  /-- own HELLO and own signature, empty while not formed; 140 and 96 bytes; R429; empty -/
  hello    : Bytes := []
  sig      : Bytes := []
  /-- next message of the cycle of R430 to send; 5; R430; 0 -/
  keyxPos  : Nat := 0
  /-- the partner's INIT has been received, own SEEN; 1; R168; 0 -/
  initSeen : Bool := false
  /-- flit slots sent and received since the last alignment word; 12 each; R117, R163; 0 -/
  txSlots  : Nat := 0
  rxSlots  : Nat := 0
  /-- an acknowledgement, or with 1 a NAK, goes into the next flit sent; -; R156, R157; none -/
  ackDue   : Option Bool := none
  /-- class of the last credit record sent; 2; R148; 3 (the rotation starts at class 0) -/
  crPtr    : Nat := 3
  /-- FREED as last reported, header and data; 12, 16; R148, R188; 0 -/
  crH      : Cls4 := {}
  crD      : Cls4 := {}
  /-- target width and rate of this training; 5 and 2; R164; 0 until set -/
  tgt      : Nat × Nat := (0, 0)
  /-- target width of R182, 0 for the configured width; 5; R182; 0 -/
  homeW    : Nat := 0
  /-- agreed incarnation; 32; R165; none -/
  incarn   : Option Nat := none
  /-- own proposal; 32; R164; free value -/
  proposal : Nat := 0
  /-- stored partner SERIAL; 64; R165; none -/
  partner  : Option Nat := none
  /-- FDID of the last TRAIN flits; 8; R260; none -/
  nbr      : Option Nat := none
  /-- M1280 compatibility mode; 1; R188; 0 -/
  compat   : Bool := false
  /-- SEQ of the next sequenced flit; 12; R151; 0 -/
  seq      : Nat := 0
  /-- EXP; 12; R155; 0 -/
  exp      : Nat := 0
  /-- the Landing, oldest first; 2048 flits; R152; empty -/
  landing  : List LFlit := []
  /-- flits accepted or duplicate since the last acknowledgement; 7; R156; 0 -/
  ackCnt   : Nat := 0
  /-- NAK sent for this EXP; 12; R157; none -/
  nakFor   : Option Nat := none
  /-- end of the replay that runs; dc; R160; 0 -/
  replayEnd : Nat := 0
  /-- ACK_COAL; 7; R156; 16 -/
  ackCoal  : Nat := 16
  /-- ACK_TMR ns; 10; R156; 100 -/
  ackTmr   : Nat := 100
  /-- REPLAY_TMR ns; 17; R156; 2000 -/
  replayTmr : Nat := 2000
  /-- credits advertised by the partner, header and data; 12, 16; R146; 0 -/
  advH     : Cls4 := {}
  advD     : Cls4 := {}
  /-- CONS; 12, 16; R147; 0 -/
  consH    : Cls4 := {}
  consD    : Cls4 := {}
  /-- RET; 12, 16; R147; 0 -/
  retH     : Cls4 := {}
  retD     : Cls4 := {}
  /-- FREED; 12, 16; R148; 0 -/
  freedH   : Cls4 := {}
  freedD   : Cls4 := {}
  /-- message whose slots are still arriving, header first, and the slots still to come; -; R142; none -/
  rxPart   : Option (Bytes × Nat) := none
  /-- credits of messages received since fresh training; 12, 16; R150; 0 -/
  rcvH     : Cls4 := {}
  rcvD     : Cls4 := {}
  /-- start of the attempt, of KEYX or of INIT, or the time the attempt failed; dc; R162, R166; 0 -/
  since    : Nat := 0
  /-- the attempt has failed and waits 1 ms; 1; R166; 0 -/
  resting  : Bool := false
  /-- first flit accepted or duplicate since the last acknowledgement; dc; R156; none -/
  ackAt    : Option Nat := none
  /-- time of the NAK for the present EXP; dc; R157; 0 -/
  nakAt    : Nat := 0
  /-- start of REPLAY_TMR; dc; R159; 0 -/
  replayAt : Nat := 0
  /-- REPLAY_TMR has expired in this cycle and its replay has not begun; dc; R159, R160; none -/
  replayDue : Option Nat := none
  /-- UP entered or a flit freed last; dc; R161; 0 -/
  stallAt  : Nat := 0
  /-- last DATA or CTRL flit sent or received; dc; R182; 0 -/
  idleAt   : Nat := 0
  /-- last message of each class sent; dc; R190; 0 -/
  sentAt   : Cls4 := {}
  deriving DecidableEq, Repr

/-- Settings and compatibility state of a span kept apart from the link state. -/
structure SpanCfg where
  /-- Amber policy; 1; R176; 0 -/
  amber     : Nat := 0
  /-- compatibility retrain threshold %; 7; R176; 50 -/
  threshold : Nat := 50
  /-- idle before half width us; 20; R176; 0 -/
  idle      : Nat := 0
  /-- keys; -; R183; none held -/
  keys      : SpanKeys := {}
  /-- resize; -; R177; none -/
  rs        : Resize := {}
  /-- credit leak estimates with 16 fractional bits; 32 each; R190; 0 -/
  estH      : Cls4 := {}
  estD      : Cls4 := {}
  /-- increments of the last 1024 good flits, newest first; class, header, data; R190; empty -/
  incs      : List (Option (Cls × Nat × Nat)) := []
  /-- time of the last forced retrain; dc; R190; none -/
  lastForce : Option Nat := none
  /-- left UP at; dc; R265; none -/
  outSince  : Option Nat := none
  /-- HOLD_GRACE has passed while out of UP; 1; R265; 0 -/
  graceOut  : Bool := false
  deriving DecidableEq, Repr

/-- A binding of a D port or logical device (R199 to R204), with the cache ID of a device that uses CXL.cache (R195). -/
structure Binding where
  hport    : Nat
  bridge   : Nat
  active   : Bool := true
  cacheOff : Bool := false
  unbound  : Bool := false
  drainAt  : Nat := 0
  cacheId  : Option Nat := none
  deriving DecidableEq, Repr

/-- A non-posted request outstanding at a port (R228, R204, R193). -/
structure NpReq where
  msg  : Msg
  fn   : Option Fn := none
  deriving DecidableEq, Repr

/-- An IDE stream context (R209): KIND 0 link, 1 selective; secure, or the standard's insecure state; the
keys of the two key sets of the K bit, by set: transmit posted, non-posted and completion, then receive. -/
structure Ide where
  kind   : Nat
  id     : Nat
  secure : Bool
  keys   : Tab (List Nat) := []
  deriving DecidableEq, Repr

/-- An HDM decoder of a virtual upstream switch port: its range, and where it leads (R195). -/
structure Hdm where
  base : Nat
  size : Nat
  dest : Dest
  deriving DecidableEq, Repr

/-- The CM_ registers of a PF0 (R543, R549, R550). -/
structure Rings where
  /-- CM_CMD_BASE; 64; R543; 0 (DESIGN CHOICE, log 20) -/
  cmdBase : Nat := 0
  /-- CM_RPL_BASE; 64; R543; 0 (DESIGN CHOICE, log 20) -/
  rplBase : Nat := 0
  /-- CM_RING_CFG.LOG; 4; R549; 4 -/
  log     : Nat := 4
  /-- CM_RING_CFG.ENABLE; 1; R549; 0 -/
  enable  : Bool := false
  /-- CM_RING_CFG.STOPPED; 1; R549; 0 -/
  stopped : Bool := false
  /-- CM_CMD_PROD; 16; R51; 0 -/
  cmdProd : Nat := 0
  /-- CM_CMD_CONS; 16; R51; 0 -/
  cmdCons : Nat := 0
  /-- CM_RPL_PROD; 16; R51; 0 -/
  rplProd : Nat := 0
  /-- CM_RPL_CONS; 16; R51; 0 -/
  rplCons : Nat := 0
  /-- reply slots reserved for commands read and not replied; 16; R52; 0 -/
  resv    : Nat := 0
  /-- CM_RPL_INT.VECTOR; 11; R550; 0 -/
  vector  : Nat := 0
  /-- CM_RPL_INT.IE; 1; R550; 0 -/
  ie      : Bool := false
  /-- a reply message was sent and CM_RPL_CONS not written since; 1; R550; 0 -/
  sent    : Bool := false
  deriving DecidableEq, Repr

/-- The state of an H port or D port (05_standard_ports, 14_startup). -/
structure Std where
  /-- D port: recorded kind of the card, multi-logical or not; 1; R201; none -/
  card     : Option Bool := none
  /-- D port: the card uses CXL.cache; 1; R200; 0 (DESIGN CHOICE, log 20) -/
  cache    : Bool := false
  /-- D port: bindings by logical device, 0xFFFF for the whole port; -; R199; none -/
  binds    : Tab Binding := []
  /-- non-posted requests outstanding at the port, oldest first; -; R228, R280; none -/
  np       : List NpReq := []
  /-- tags in quarantine; -; R400; none -/
  quar     : List Nat := []
  /-- HP_AMBER_CAUSE; 32; R551; 0 -/
  amberCause : BitVec 32 := 0
  /-- IDE streams; 16 contexts; R209; none -/
  ide      : Tab Ide := []
  /-- receiver detected at a D port in TRAINING; 1; R203; 0 -/
  rxDet    : Bool := false
  /-- the port is in L1; 1; R221; 0 -/
  l1       : Bool := false
  /-- the port runs at a reduced L0p width; 1; R219; 0 -/
  l0pRed   : Bool := false
  /-- width the link trained at, the full width of R219; 5; R219; 0 -/
  linkW    : Nat := 0
  /-- poisoned completions of failing read parts that wait for the parts before them, with the number of parts after; -;
  R448; none -/
  heldCpl  : List (Msg × Nat) := []
  /-- HP_POWER L0P; 1; R217 to R219; 0 -/
  l0pEn    : Bool := false
  /-- HP_POWER L1_IDLE us; 16; R217; 256 -/
  l1Idle   : Nat := 256
  /-- host enables: ASPM L1, L0p, PTM, hot-plug; 1 each; R217, R219, R194, R203; 0 (the standard's; PRESUMED, log 20) -/
  aspm     : Bool := false
  l0pHost  : Bool := false
  ptm      : Bool := false
  hotplug  : Bool := false
  /-- PF0 Bus Master Enable; 1; R222; 0 (the standard's; PRESUMED, log 20) -/
  bme      : Bool := false
  /-- VF Enable with NumVFs, 0 when clear; 16; R387; 0 (the standard's; PRESUMED, log 20) -/
  numVfs   : Nat := 0
  /-- MSI-X messages of PF0 held pending; vectors; R222; none -/
  msixPend : List Nat := []
  /-- PF0 MSI-X vectors not masked; -; R538; none, every vector masked (the standard's; PRESUMED, log 20) -/
  msixOpen : List Nat := []
  /-- address and data words of the MSI-X table of PF0, by word; 32 each; R538; 0 (unlisted; DESIGN CHOICE, log 20) -/
  msixTab  : Tab Nat := []
  /-- PF0 is ready; 1; R526; 0 -/
  ready    : Bool := false
  /-- held in DOWN by a hot reset or link disable; 1; R527; 0 -/
  hotRst   : Bool := false
  /-- held in DOWN by PERST_N low (entered through R527); 1; R527; 0 -/
  perstDown : Bool := false
  /-- command and reply rings; -; R50; reset values of R549, R550 -/
  rings    : Rings := {}
  /-- BY_FLR_DRAIN.LIMIT; 16; R388; 1000 -/
  flrDrain : Nat := 1000
  /-- AL_PEND_CFG.VECTOR; 11; R548; 0 -/
  alVector : Nat := 0
  /-- maximum payload and maximum read request sizes the host has set, bytes; 13; R191; 128 and 512 (the standard's; PRESUMED,
  log 20) -/
  mps      : Nat := 128
  mrrs     : Nat := 512
  /-- HDM decoders of the virtual upstream switch port; 32; R195; none committed -/
  hdm      : Tab Hdm := []
  /-- host enables of L1.1 and L1.2, and the substate of L1 the port is in: 0 none, 1 L1.1, 2 L1.2; 1, 1 and 2; R218; 0 -/
  l11      : Bool := false
  l12      : Bool := false
  l1sub    : Nat := 0
  /-- an exit from L1 is under way; 1; R218; 0 -/
  l1Exit   : Bool := false
  /-- dc of the last TLP sent or received, eye scan ended or ASPM L1 enabled, from which the L1 idle time counts; unbounded;
  R217; 0 -/
  busyAt   : Nat := 0
  /-- dc from which the times of L0p count: link up, its enabling, the last change of width; unbounded; R219; 0 -/
  l0pAt    : Nat := 0
  /-- flow control advertised at the last link training, headers and 16-byte units; 12, 16; R247; 0 (no link has trained) -/
  fcH      : Cls4 := {}
  fcD      : Cls4 := {}
  /-- flow-control credits returned since then, headers and 16-byte units; unbounded; R245; 0 -/
  fcFreedH : Cls4 := {}
  fcFreedD : Cls4 := {}
  /-- MCTP transmission unit of PCIe VDM, bytes; 10; R53; 64 -/
  mctpUnit : Nat := 64
  deriving DecidableEq, Repr

/-- A captured or recorded event (R464, R469). -/
structure Event where
  ts      : Nat
  source  : Nat
  cls     : Nat
  merged  : Bool := false
  tInv    : Bool := false
  react   : Nat
  detail  : BitVec 32
  cyc     : Nat := 0
  deriving DecidableEq, Repr

/-- The first change of a port's state in a cycle: the cycle, the state before it, and what the port's DEGRADED source and
FIRST_EVENT held then, for the order of transitions that reach a port in one cycle (R40, R569; model, log 68). -/
structure Was where
  dc    : Nat
  st    : PortState
  pend  : Option Event := none
  first : Option Event := none
  deriving DecidableEq, Repr

/-- A flush of R279 to R281: the cycle of entry and the descriptors removed then, counts removed per class, Landing counts,
completions still to issue and the first cycle free for one (R280), whether removal still counts, and whether the PORT_DOWN
that met it replies ABORTED (R570). -/
structure Flush where
  at_     : Nat := 0
  n       : Nat := 0
  removed : Cls4 := {}
  landing : Cls4 := {}
  compl   : List Msg := []
  next    : Nat := 0
  active  : Bool := true
  abort   : Bool := false
  deriving DecidableEq, Repr

/-- A running LANE_TEST of a lane (R121 to R123). -/
structure LaneTest where
  mode    : Nat
  dir     : Nat
  pattern : Nat
  precode : Bool
  rate    : Nat
  preset  : Nat
  deriving DecidableEq, Repr

/-- A port in use (R29 to R38). -/
structure Port where
  /-- port type; 2; R37; by the strap map R519 -/
  typ      : PortType
  /-- configured width; 5; R30; by the strap map R519 -/
  width    : Nat
  /-- port state; 3; R37; DISABLED (R521) -/
  st       : PortState := .disabled
  /-- first change of the state in its cycle (model, log 68); -; R40; none -/
  was      : Option Was := none
  /-- width in force, the configured width while not trained; 5; R89 PORT_STATUS; configured width (DESIGN CHOICE, log 20) -/
  widthNow : Nat := 0
  /-- rate code of LANE_TEST, 255 not trained; 8; R89; 255 -/
  rate     : Nat := 255
  /-- flit mode; 1; R192; 0 until trained (DESIGN CHOICE, log 20) -/
  flit     : Bool := false
  /-- PID; 12; R206; none -/
  pid      : Option Nat := none
  /-- class minimums MIN_c; 13 each; R242, R244; 128 cells per lane divided by R244 -/
  mins     : Cls4 := {}
  /-- cells charged to each minimum; 16 each; R245, SW_BUF_USE; 0 -/
  minUse   : Cls4 := {}
  /-- shared-pool cells held; 16; R245; 0 -/
  poolUse  : Nat := 0
  /-- scheduler; -; R291; reset values of Sched -/
  sched    : Sched := {}
  /-- subscribers; -; R295; subscriber 0 with line rate and 65536 -/
  subs     : Tab Sub := []
  /-- LEAF_ASSIGN mappings, key 4 x source + class; 12 each; R255; none -/
  assign   : Tab Nat := []
  /-- fabric time role; 2; R312; 0 (DESIGN CHOICE, log 20) -/
  role     : Nat := 0
  /-- ASYM ps; 14 signed; R312; 0 (DESIGN CHOICE, log 20) -/
  asym     : Int := 0
  /-- t1 of the exchange under way, 1/8 ns; -; R314; none -/
  t1       : Option Int := none
  /-- counters of the port's own instances, keyed by register offset; 32 each, saturating; R544, R545; 0 (unlisted) -/
  cnt      : Tab Nat := []
  /-- messages accepted by the port whose header has not reached the ingress pipe's head; -; R245; none -/
  inQ      : List Arrival := []
  /-- MGT messages that wait behind a management broadcast, in the MGT minimum; -; R278; none -/
  mgtWait  : List Arrival := []
  /-- flush in progress; -; R281; none -/
  flush    : Option Flush := none
  /-- span state; -; 04_span_link R130; reset values of Span -/
  span     : Span := {}
  /-- span settings; -; R176; reset values of SpanCfg -/
  scfg     : SpanCfg := {}
  /-- H port or D port state; -; R191; reset values of Std -/
  std      : Std := {}
  deriving DecidableEq, Repr

/-- An eye scan of a lane (R124): its DWELL in ms, EYE, THRESHOLD, and the dc it began, none while it waits for the exit
from L1 (R221). -/
structure Scan where
  at_   : Option Nat
  dwell : Nat
  eye   : Nat
  thr   : Nat
  deriving DecidableEq, Repr

/-- A lane (R98 to R126, LN_ registers of R543). -/
structure Lane where
  /-- LN_STATUS.CDR_LOCK; 1; R543; 0 -/
  cdr     : Bool := false
  /-- LN_STATUS.ALIGNED; 1; R118; 0 -/
  aligned : Bool := false
  /-- LN_STATUS.INVERTED; 1; R119; 0 -/
  inverted : Bool := false
  /-- LN_STATUS.REVERSED; 1; R119; 0 -/
  reversed : Bool := false
  /-- LN_STATUS.PRECODE; 1; R107; 0 -/
  precode : Bool := false
  /-- LN_STATUS.PRBS_LOCK; 1; R122; 0 -/
  prbsLock : Bool := false
  /-- LN_STATUS.SCAN with its parameters; -; R124; none -/
  scan    : Option Scan := none
  /-- LN_STATUS.CTLE; 5; R113; 0 -/
  ctle    : Nat := 0
  /-- LN_STATUS.RATE; 4; R543; 0 -/
  rate    : Nat := 0
  /-- consecutive missed alignment words; 2; R120; 0 -/
  misses  : Nat := 0
  /-- expected position last missed; dc; R120; 0 -/
  missAt  : Nat := 0
  /-- transmitter c(-1); 5 signed; R108; 0 (DESIGN CHOICE, log 20; S3 at the start of span training, R109) -/
  cm1     : Int := 0
  /-- transmitter c(+1); 6 signed; R108; 0 (as c(-1)) -/
  cp1     : Int := 0
  /-- REQ_TAG of the partner's request answered; 8; R164; 0 -/
  ansTag  : Nat := 0
  /-- limit flag of the last answer; 1; R110; 0 -/
  limit   : Bool := false
  /-- transmit scrambler and receive scrambler of a span lane; 31 each; R103; 0 until the first alignment word -/
  txScram : Nat := 0
  rxScram : Nat := 0
  /-- last line level sent and received, y(-1) of the precoder; 2 each; R105; 0 -/
  txLevel : Nat := 0
  rxLevel : Nat := 0
  /-- identical line levels at the end of what was sent; 5; R106; 0 -/
  txRun   : Nat := 0
  /-- own request to the partner's lane, its REQ_TAG, and whether it awaits an answer; 4, 8 and 1; R110, R164; 0 -/
  eqReq   : Nat := 0
  eqTag   : Nat := 0
  eqOut   : Bool := false
  /-- 12 DFE taps: free values from this number on, as last adapted (the manual gives no coding); -; R114, R115; 0 -/
  dfe     : Nat := 0
  /-- last adaptation of the DFE; dc; R114; 0 -/
  dfeAt   : Nat := 0
  /-- lane test running; -; R123; none -/
  test    : Option LaneTest := none
  /-- sequence generator; 31; R121; 0 until a test starts -/
  gen     : Nat := 0
  /-- sequence checker and the bits it has seeded itself with; 31 and 5; R121, R122; 0 -/
  chk     : Nat := 0
  chkSeed : Nat := 0
  /-- bits seen since the seed, those without error, and the places of errors in the last 1,024; -; R122; 0 and none -/
  chkBits : Nat := 0
  chkGood : Nat := 0
  chkErrs : List Nat := []
  /-- the lane's receiver asks its partner for precoding; 1; R107; 0 -/
  rxPre   : Bool := false
  /-- receiver margining: error count limit, and the offset a margin runs at; 6 and 7; R127; 4 and none (the standard's; PRESUMED,
  log 20) -/
  mgLimit : Nat := 4
  mgStep  : Option (Bool × Nat) := none
  /-- LN_SLIP, LN_WORD_MISS, LN_PRBS_ERR, LN_PRBS_LOSS keyed by offset; 32 each; R544; 0 (unlisted) -/
  cnt     : Tab Nat := []
  deriving DecidableEq, Repr

/-- What METER_SET replaced, for the tests of its cycle (R324). -/
structure MeterWas where
  cir  : Nat
  pir  : Nat
  cbs  : Nat
  pbs  : Nat
  actY : Nat
  actR : Nat
  tc   : Nat
  tp   : Nat
  deriving DecidableEq, Repr

/-- An ingress meter (R318 to R324): buckets in 2^-24 bytes; `was` holds the CLK_S cycle of the last METER_SET. -/
structure Meter where
  port : Nat
  sub  : Nat
  cir  : Nat
  pir  : Nat
  cbs  : Nat
  pbs  : Nat
  actY : Nat
  actR : Nat
  tc   : Nat
  tp   : Nat
  tLast : Nat := 0
  defer : List Nat := []
  green : Nat := 0
  yellow : Nat := 0
  red   : Nat := 0
  orphan : Bool := false
  was   : Option (Nat × MeterWas) := none
  deriving DecidableEq, Repr

/-- A memory region entry (R367, R368). -/
structure Region where
  bay    : Nat
  gen    : Nat
  addr   : Nat
  length : Nat
  paging : Bool
  access : Nat
  ending : Bool := false
  deriving DecidableEq, Repr

/-- A cached context (R361): the list of an engine is least recently used first. -/
structure CacheEnt where
  qpn      : Nat
  bay      : Nat
  fetching : Bool := false
  writing  : Bool := false
  dirty    : Bool := false
  usedAt   : Option Nat := none
  deriving DecidableEq, Repr

/-- A write of an engine to memory on its way (R449, R453, R371, R373): the engine, QP and bay it is for, the region and
pages it uses, the answers owed when it has left flight or has failed, and the requester's message it belongs to. -/
structure Place where
  eng    : Nat
  qpn    : Nat
  bay    : Nat
  region : Option Nat := none
  pages  : List Nat := []
  ok     : Option Msg := none
  bad    : Option Msg := none
  msn    : Option Nat := none
  deriving DecidableEq, Repr

/-- A message of an engine that waits for room (R248): toward a port, or along the route of its DPID; `tok` stands for its
number in the checked accesses until it is stored. -/
structure EngMsg where
  msg   : Msg
  port  : Option Nat := none
  tok   : Option Nat := none
  place : Option Place := none
  deriving DecidableEq, Repr

/-- A Gallery engine (09_gallery_engines). -/
structure Engine where
  /-- context cache, 256 entries, least recently used first; -; R361; empty -/
  cache   : List CacheEnt := []
  /-- QPs whose fetch waits for a victim or for a write-back; -; R362, R364; none -/
  waiting : List Nat := []
  /-- engine reserve cells in use; 9; R248; 0 -/
  resUse  : Nat := 0
  /-- messages waiting for room; -; R248; none -/
  outQ    : List EngMsg := []
  /-- cached translations by bay and page, oldest first; 4096; R372; none -/
  atc     : List (Nat × Nat) := []
  /-- GE_DGRAM_DROP, GE_PARK_FULL, GE_RX_PROTO, GE_RX_DUP keyed by offset; 32 each; R544; 0 (unlisted) -/
  cnt     : Tab Nat := []
  deriving DecidableEq, Repr

/-- The replication stage of a pipe (R278): the broadcast it holds, its arrival port, the ports still to leave. -/
structure Stage where
  msg     : Msg
  arrival : Option Nat
  ports   : List Nat
  deriving DecidableEq, Repr

/-- A hall (R22; 06_switch_core, 07_scheduling). -/
structure Hall where
  /-- ALPHA code; 3; R244; 3 -/
  alpha    : Nat := 3
  /-- MC_RSV cells; 14; R244; 1024 -/
  mcRsv    : Nat := 1024
  /-- POOL_RSV cells; 14; R244; 1024 -/
  poolRsv  : Nat := 1024
  /-- shared-pool cells in use; 16; R245; 0 -/
  poolUsed : Nat := 0
  /-- SW_POOL_HWM; 16; R543; 0 -/
  poolHwm  : Nat := 0
  /-- the dc each egress pipe last gave to a port that started a message, and the port; -; R289; none -/
  pipeAt   : Tab (Nat × Nat) := []
  /-- SW_MC_USE; 16; R272; 0 -/
  mcUse    : Nat := 0
  /-- pool-reserve cells in use; 14; R150; 0 -/
  prUse    : Nat := 0
  /-- SC_LEAF_CFG of leaves 256 to 4095 with VALID 1; 32 each; R286; 0 (unlisted) -/
  leaves   : Tab LeafCfg := []
  /-- PORT, SERVICE and SUBSCRIBER of leaves 256 to 4095 with VALID 0; 31 each; R286; 0 (unlisted) -/
  leafOff  : Tab LeafCfg := []
  /-- leaf queues, head first; -; R284; empty -/
  queues   : Tab (List QItem) := []
  /-- subscribers on the Spiral wheel in the order entered: port and subscriber; -; R297; none -/
  wheel    : List (Nat × Nat) := []
  /-- last CLK_S cycle in which the wheel released; ns; R298; none -/
  wheelAt  : Option Nat := none
  /-- meters in use; 8192; R318; none -/
  meters   : Tab Meter := []
  /-- region entries in use; 16384; R368; none -/
  mrs      : Tab Region := []
  /-- generation count per region entry; 15 each; R368; 0 (unlisted; DESIGN CHOICE, log 20) -/
  mrGen    : Tab Nat := []
  /-- Gallery engines 0 to 7; -; R338; reset values of Engine (unlisted) -/
  engines  : Tab Engine := []
  /-- replication stages of pipes 0 to 3; -; R278; empty -/
  stages   : Tab Stage := []
  /-- hall counters of SW_, SC_ and GE_, keyed by offset with the block's base of R542; 32 each; R544; 0 (unlisted) -/
  cnt      : Tab Nat := []
  deriving DecidableEq, Repr

/-- A route (R258): KIND 0 span, 1 span group, 2 multicast group. -/
structure Route where
  kind   : Nat
  target : Nat
  deriving DecidableEq, Repr

/-- A paused entry of a span group (R268): old members, start, and messages held. -/
structure Pause where
  old   : List Nat
  start : Nat
  held  : List Nat := []
  deriving DecidableEq, Repr

/-- A span group (R260 to R270). Table entries name member ports. -/
structure Group where
  members : List Nat
  wait    : Nat := 100
  grace   : Nat := 10
  rebal   : Bool := true
  home    : List Nat
  live    : List Nat
  paused  : Tab Pause := []
  deriving DecidableEq, Repr

/-- QP states (R351). -/
inductive QpState where
  | reset | init | rtr | rts | error
  deriving DecidableEq, Repr

/-- A work request in progress on the requester (R377, R378, R380, R383): packets first sent, the lowest index not yet
acknowledged with the indices above it that are, and the READ_RSP bytes received. -/
structure Wr where
  wqe   : Wqe
  msn   : Nat
  ssn   : Nat
  sent  : Nat := 0
  base  : Nat := 0
  bits  : List Nat := []
  bytes : Nat := 0
  done  : Option Nat := none
  deriving DecidableEq, Repr

/-- An outstanding-packet entry (R357): the packet as first sent, its message and index, the time of the last send in ns,
re-sends counted, the number of the first send, the earliest re-send after RETRY_LATER in ns, whether its READ_RSP
waits for a page (R375), and the dc in which its RTO has expired, until that expiry acts (R360). -/
structure Outst where
  msn    : Nat
  idx    : Nat
  pkt    : Msg
  sentAt : Nat
  tries  : Nat := 0
  no     : Nat
  notBefore : Option Nat := none
  paged  : Bool := false
  due    : Option Nat := none
  deriving DecidableEq, Repr

/-- A reassembly record (R380): bits are the received indices at or above `base`. -/
structure Rec where
  msn   : Nat
  op    : Nat
  ssn   : Nat := 0
  total : Option Nat := none
  count : Nat := 0
  base  : Nat := 0
  bits  : List Nat := []
  wrId  : Nat := 0
  status : Nat := 0
  complete : Bool := false
  deriving DecidableEq, Repr

/-- A completion entry (R347) without its PHASE. -/
structure Cqe where
  wrId   : Nat
  bytes  : Nat := 0
  seq    : Nat := 0
  status : Nat := 0
  kind   : Nat := 0
  srcPid : Nat := 0
  srcQpn : Nat := 0
  deriving DecidableEq, Repr

/-- What QP_MODIFY sets (R351 and the QP_MODIFY table). -/
structure QpCfg where
  sqAddr : Nat := 0
  rqAddr : Nat := 0
  crAddr : Nat := 0
  sqLog  : Nat := 8
  rqLog  : Nat := 8
  crLog  : Nat := 9
  vector : Option Nat := none
  peerPid : Nat := 0xFFFF
  peerQpn : Nat := 0
  mtu    : Nat := 4
  spray  : Bool := false
  rto    : Nat := 100
  retry  : Nat := 7
  deriving DecidableEq, Repr

/-- A QP with its context (R338 to R384). -/
structure Qp where
  /-- owning bay; 11; R338; by QP_CREATE -/
  bay     : Nat
  /-- serving engine, 8 x hall + engine; 6; R338; by QP_CREATE -/
  engine  : Nat
  /-- class; 3; R376; by QP_CREATE -/
  cls     : Nat
  /-- WINDOW_MAX; 10; R376; by QP_CREATE -/
  wmax    : Nat
  /-- PIN; 1; R363; by QP_CREATE -/
  pin     : Bool
  /-- context slot; 20; R339; by QP_CREATE -/
  slot    : Nat
  /-- state; 3; R351; RESET -/
  st      : QpState := .reset
  /-- datagram QP, fixed on RTR; 1; R342; none -/
  dgram   : Option Bool := none
  /-- settings of QP_MODIFY; -; R343; defaults of its table -/
  cfg     : QpCfg := {}
  /-- W with 8 fractional bits; 18; R376; 0 until RTS (DESIGN CHOICE, log 20) -/
  w       : Nat := 0
  /-- decrease armed at this number of first sends; -; R376; none -/
  armed   : Option Nat := none
  /-- SQ, RQ consumer counts, CR producer and consumer counts; 12 each (RQ 24, that of SSN); R344, R349, R351, R381; 0 -/
  sqCons  : Nat := 0
  rqCons  : Nat := 0
  crProd  : Nat := 0
  crCons  : Nat := 0
  /-- next MSN and SSN to send; 24 each; R351; 0 -/
  nextMsn : Nat := 0
  nextSsn : Nat := 0
  /-- NEXT of the responder, SSN next to complete; 24 each; R379; 0 -/
  next    : Nat := 0
  nextRcv : Nat := 0
  /-- work requests in progress, SQ order; -; R378; none -/
  wrs     : List Wr := []
  /-- outstanding-packet entries; -; R357; none -/
  outst   : List Outst := []
  /-- reassembly records; -; R380; none -/
  recs    : List Rec := []
  /-- RQ entries taken and not complete, by SSN; -; R381; none -/
  rqes    : Tab Wqe := []
  /-- parked packets, arrival order, with what their handling meets in memory; -; R365; none -/
  parked  : List (Msg × GEnv) := []
  /-- READ_REQ packets that wait for earlier messages; -; R382; none -/
  reads   : List (Msg × GEnv) := []
  /-- an SQ doorbell, an RQ doorbell waits for the context; 1 each; R361; 0 -/
  dbPend  : Bool := false
  rqPend  : Bool := false
  /-- completions held; -; R349, R353; none -/
  held    : List Cqe := []
  /-- an MSI-X was sent and GE_CR_DB not written since; 1; R350; 0 -/
  msiSent : Bool := false
  /-- stalled on this page, for the message of this MSN; 52 and 24; R375; none -/
  stall   : Option (Nat × Nat) := none
  /-- QP_QUERY SENT, RESENT, RETRY_LATER, NAKS; 32 each; R89; 0 -/
  sent    : Nat := 0
  resent  : Nat := 0
  later   : Nat := 0
  naks    : Nat := 0
  deriving DecidableEq, Repr

/-- Bay states (BY_STATUS.STATE). -/
inductive BayState where
  | active | draining | squashing
  deriving DecidableEq, Repr

/-- TDI states (R214 to R216). -/
inductive Tdi where
  | unlocked | locked | run | error
  deriving DecidableEq, Repr

/-- The seven resources of R390. -/
structure Res where
  qp      : Nat := 0
  ctx     : Nat := 0
  leaves  : Nat := 0
  rate    : Nat := 0
  meters  : Nat := 0
  msix    : Nat := 1
  windows : Nat := 0
  deriving DecidableEq, Repr

/-- One side of an Alcove: staging words, and the AL_STATUS and AL_CTL bits of the side (R407, R409). -/
structure AlSide where
  /-- AL_TX_BUF0 to 15; 32 each; R407; 0 (DESIGN CHOICE, log 20) -/
  tx       : List Nat := [0, 0, 0, 0, 0, 0, 0, 0, 0, 0, 0, 0, 0, 0, 0, 0]
  /-- word last returned by each AL_RX_BUF; 32 each; R411; 0 -/
  lastRx   : List Nat := [0, 0, 0, 0, 0, 0, 0, 0, 0, 0, 0, 0, 0, 0, 0, 0]
  /-- UNDERRUN; 1; R407; 0 -/
  underrun : Bool := false
  /-- MSG; 1; R409; 0 -/
  msg      : Bool := false
  /-- PTR_RESET; 1; R413; 0 -/
  ptrReset : Bool := false
  /-- REFUSED; 1; R408; 0 -/
  refused  : Bool := false
  /-- FLUSH_PEND; 1; R412; 0 -/
  flushPend : Bool := false
  /-- the head message is in read; 1; R412; 0 -/
  inRead   : Bool := false
  /-- AL_CTL.IE; 1; R407; 1 -/
  ie       : Bool := true
  deriving DecidableEq, Repr

/-- A reset of a bay in progress (R396 to R403), with the dc it started in (R224). -/
structure BayReset where
  removal  : Bool
  deadline : Nat
  drained  : Nat := 0
  squashed : Nat := 0
  work     : Nat := 0
  ended    : Bool := false
  start    : Nat := 0
  deriving DecidableEq, Repr

/-- A bay (10_bays_and_alcoves). -/
structure Bay where
  /-- H port; 9; R385; by BAY_CREATE -/
  hport   : Nat
  /-- local index; 8; R385; by BAY_CREATE -/
  loc     : Nat
  /-- STATE; 3; R388; ACTIVE at BAY_CREATE -/
  st      : BayState := .active
  /-- resource targets; -; R390; by BAY_CREATE -/
  tgt     : Res := {}
  /-- CAUSE of the last reset; 5; R388; 0 -/
  cause   : Nat := 0
  /-- context table address and NSLOT; 64 and 20; R339; none -/
  ctx     : Option (Nat × Nat) := none
  /-- TDI state; 2; R214; CONFIG_UNLOCKED -/
  tdi     : Tdi := .unlocked
  /-- Stream ID the TDI uses; 8; R213; none until locked -/
  stream  : Option Nat := none
  /-- Bus Master Enable of the function; 1; R222; 0 (the standard's; PRESUMED, log 20) -/
  bme     : Bool := false
  /-- MSI-X vectors held pending; -; R222; none -/
  msixPend : List Nat := []
  /-- MSI-X vectors not masked; -; R409, R546; none, every vector masked (the standard's; PRESUMED, log 20) -/
  msixOpen : List Nat := []
  /-- address and data words of the MSI-X table, by word; 32 each; R546; 0 (unlisted; DESIGN CHOICE, log 20) -/
  msixTab : Tab Nat := []
  /-- to-manager FIFO, 16 messages of 64 bytes; -; R405; empty -/
  toMgr   : List Bytes := []
  /-- to-bay FIFO, 16 messages of 64 bytes; -; R405; empty -/
  toBay   : List Bytes := []
  /-- bay side of the Alcove; -; R407; reset values of AlSide -/
  bside   : AlSide := {}
  /-- manager side of the Alcove; -; R407; reset values of AlSide -/
  mside   : AlSide := {}
  /-- RESOURCES notice pending; 1; R406; 0 -/
  pendRes : Bool := false
  /-- RESET_DONE notice pending: cause, drained, squashed; -; R406; none -/
  pendDone : Option (Nat × Nat × Nat) := none
  /-- SEQ of the next notice; 16; R405; 0 -/
  nseq    : Nat := 0
  /-- reset in progress; -; R398; none -/
  rst     : Option BayReset := none
  /-- pages whose PRI response failed; -; R374; none -/
  badPages : List Nat := []
  /-- pages with a PRI request outstanding; -; R374; none -/
  priOut  : List Nat := []
  deriving DecidableEq, Repr

/-- Roles of a session (R415). -/
inductive Role where
  | officer | user (bay : Nat) | link (port : Nat) | enrol
  deriving DecidableEq, Repr

/-- An SPDM session with Bedrock (R415 to R417): `beatAt` is the dc of its start or last HEARTBEAT, `keyNo` counts
KEY_UPDATE; the secrets of the two directions, from which the application-data keys follow, and the counts of verified
commands and of encrypted replies under them (R59, R426); `ending` marks a session whose SESSION_END is being answered. -/
structure Session where
  id     : Nat
  role   : Role
  origin : Option Origin
  period : Nat := 10
  done   : Bool := false
  lastApproved : Bool := true
  cmds   : Nat := 0
  anchor : Nat := 0
  beatAt : Nat := 0
  keyNo  : Nat := 0
  reqSecret : Nat := 0
  rspSecret : Nat := 0
  rsps   : Nat := 0
  ending : Bool := false
  deriving DecidableEq, Repr

/-- Security state of Bedrock (11_security). -/
structure Sec where
  /-- open sessions; -; R415; none -/
  sessions : List Session := []
  /-- BD_LOCK bits [5:0]; 6; R439; CERTIFIED and ANCHOR from OTP, DEBUG equal to CERTIFIED, the rest 0 -/
  lock     : BitVec 6 := 0
  /-- BD_STATUS.SELFTEST_OK; 1; R437; 0 -/
  testsOk  : Bool := false
  /-- unwrapped identity key held; 1; R426; 0 until Bedrock is ready -/
  identity : Bool := false
  /-- DRBG state held; 1; R426; 0 until Bedrock is ready -/
  drbg     : Bool := false
  /-- DRBG requests since the seed; 21; R426; 0 -/
  drbgReqs : Nat := 0
  /-- SELFTEST runs: the dc it ends at, and whether its tests pass; -; R436; none -/
  testing  : Option (Nat × Bool) := none
  /-- management cores halted through the test port; 1; R442; 0 -/
  halted   : Bool := false
  /-- test port opened by a debug token; 1; R442; 0 -/
  token    : Bool := false
  deriving DecidableEq, Repr

/-- State that outlives every reset (R534): OTP, flash, bundle keys. -/
structure Nv where
  /-- Officer anchor slots: hash and revoke bit; 384 + 1 each; R418; empty (DESIGN CHOICE, log 21) -/
  anchors  : List (Option Nat × Bool) := [(none, false), (none, false), (none, false), (none, false)]
  /-- CERTIFIED in OTP; 1; R439; 0 (DESIGN CHOICE, log 21) -/
  certified : Bool := false
  /-- ANCHOR in OTP; 1; R439; 0 (DESIGN CHOICE, log 21) -/
  anchorLk : Bool := false
  /-- SVN floor; 32; R420; 0 (DESIGN CHOICE, log 21) -/
  svnFloor : Nat := 0
  /-- Mezzanine signing key slots: SHA-384 of the public key, and revoked; 384 + 1 each; R420; 0 (DESIGN CHOICE, log 21) -/
  keySlots : List (Nat × Bool) := [(0, false), (0, false), (0, false), (0, false)]
  /-- OTP anchors a Bedrock patch; 1; R523; 0 (DESIGN CHOICE, log 21) -/
  patch    : Bool := false
  /-- factory fuse; 1; R477; 1 (every shipped part) -/
  fused    : Bool := true
  /-- grade CX; 1; R2; 0 (DESIGN CHOICE, log 21) -/
  gradeCx  : Bool := false
  /-- device serial; 64; R164; 0 (DESIGN CHOICE, log 21) -/
  serial   : Nat := 0
  /-- identity key; 384; R426; 1 (DESIGN CHOICE, log 21) -/
  identKey : Nat := 1
  /-- certificate chain of slot 0 in DER, at most 4,096 bytes; -; R424, R429; an empty sequence (DESIGN CHOICE, log 21) -/
  certChain : Bytes := [0x30, 0]
  /-- image in flash slots 0 and 1; -; R420; none (DESIGN CHOICE, log 21) -/
  images   : Tab Image := []
  /-- slot last chosen by FW_SELECT; 1; R421; none -/
  select   : Option Nat := none
  /-- bundle keys by slot, x and y; 384 each; R439; none (DESIGN CHOICE, log 21) -/
  bundleKeys : Tab (Nat × Nat) := []
  /-- BSEQ of the last activated bundle; 32; R77; 0 -/
  bseq     : Nat := 0
  /-- SHA-384 of the last activated bundle; 384; R423; 0 (DESIGN CHOICE, log 21) -/
  bundleHash : Nat := 0
  deriving DecidableEq, Repr

/-- A Garnet window (R443, R444). -/
structure Window where
  base   : Nat
  log    : Nat
  colour : Nat
  owner  : Nat
  valid  : Bool
  deriving DecidableEq, Repr

/-- A region entry of an MPU (R445, R446). -/
structure Rgn where
  owner : Nat
  valid : Bool
  read  : Bool
  write : Bool
  key   : Nat
  base  : Nat
  limit : Nat
  deriving DecidableEq, Repr

/-- A violation report (R450). -/
structure Viol where
  write    : Bool
  region   : Option Nat
  permFail : Bool
  colFail  : Bool
  epoch    : Nat
  actor    : Nat
  addr     : Nat
  winCol   : Nat
  key      : Nat
  deriving DecidableEq, Repr

/-- An MPU (R445 to R454). -/
structure Mpu where
  /-- shadow region entries; 64; R446; invalid (unlisted) -/
  shadow : Tab Rgn := []
  /-- active region entries; 64; R452; invalid (unlisted) -/
  active : Tab Rgn := []
  /-- locked entries; 64; R440; none -/
  locks  : List Nat := []
  /-- epoch; 4; R452; 0 -/
  epoch  : Nat := 0
  /-- violation report; -; R450; empty -/
  rep    : Option Viol := none
  /-- GN_VIOL_CNT.COUNT; 16; R450; 0 -/
  cnt    : Nat := 0
  /-- GN_DROP; 32; R448; 0 -/
  drop   : Nat := 0
  /-- GN_EPOCH.COMMIT_PEND; 1; R543; 0 -/
  pend   : Bool := false
  /-- old-epoch accesses squashed by the commit in progress; 32; R86; 0 -/
  squashed : Nat := 0
  deriving DecidableEq, Repr

/-- A checked access in flight (R453): its MPU, epoch, and the stored message or (port, tag) it ends with. -/
structure Access where
  mpu   : Nat
  epoch : Nat
  write : Bool
  mid   : Option Nat
  port  : Nat
  tag   : Nat
  dead  : Bool := false
  deriving DecidableEq, Repr

/-- Garnet (R443 to R455). -/
structure Garnet where
  /-- shadow window table; 65536; R444; invalid (unlisted) -/
  shadowW : Tab Window := []
  /-- active window table; 65536; R452; invalid (unlisted) -/
  activeW : Tab Window := []
  /-- MPUs 0 to 131; -; R86; reset values of Mpu (unlisted) -/
  mpus    : Tab Mpu := []
  /-- accesses in flight; -; R453; none -/
  acc     : List Access := []
  /-- a GARNET_COMMIT with MPU 0xFFFF is in progress; 1; R454; 0 -/
  winPend : Bool := false
  /-- end of COMMIT_WAIT per commit in progress; dc; R454; none -/
  waits   : Tab Nat := []
  deriving DecidableEq, Repr

/-- A wired reaction on its way (R461). -/
structure Wired where
  source : Nat
  react  : Nat
  cause  : Nat
  object : Nat
  actor  : Nat
  due    : Nat
  deriving DecidableEq, Repr

/-- Atrium (12_atrium). -/
structure Atrium where
  /-- pending bits with the capture of R464; 2048; R464; clear (unlisted) -/
  pend     : Tab Event := []
  /-- reactions changed from the reset reaction; 3 each; R460; reset reactions (unlisted) -/
  react    : Tab Nat := []
  /-- sources whose reaction was changed: the CLK_A cycle of the commit, the reaction before it; -; R462; none (unlisted) -/
  reactWas : Tab (Nat × Nat) := []
  /-- sources that fired while pending: the first such firing of the latest CLK_A cycle with one, and MERGED before that
  cycle; -; R465; none (unlisted) -/
  again    : Tab (Event × Bool) := []
  /-- FIRST_EVENT; -; R468; empty -/
  first    : Option Event := none
  /-- the firing of the lowest source in the latest CLK_A cycle with a firing; -; R468; none -/
  fired    : Option Event := none
  /-- history, ascending key, 32 entries; -; R469; empty -/
  hist     : List Event := []
  /-- AT_OVERFLOW.HIST; 16; R469; 0 -/
  ovHist   : Nat := 0
  /-- AT_OVERFLOW.RING; 16; R471; 0 -/
  ovRing   : Nat := 0
  /-- AT_INT_STATUS.EVENT; 1; R470; 0 -/
  event    : Bool := false
  /-- AT_INT_STATUS.RING_DROP; 1; R471; 0 -/
  ringDrop : Bool := false
  /-- AT_INT_CFG.VECTOR; 11; R470; 0 -/
  vector   : Nat := 0
  /-- AT_INT_CFG.MSI_EN; 1; R470; 0 -/
  msiEn    : Bool := false
  /-- AT_INT_CFG.ALERT_EN; 1; R470; 1 -/
  alertEn  : Bool := true
  /-- CLK_A cycle of the last change of EVENT or ALERT_EN, and whether both were 1 before it; -; R470; 0 and 0 -/
  alertWas : Nat × Bool := (0, false)
  /-- event ring: address, slots, MIN_CLASS; -; R471; none -/
  ring     : Option (Nat × Nat × Nat) := none
  /-- AT_EVR_PROD; 16; R471; 0 -/
  prod     : Nat := 0
  /-- AT_EVR_CONS; 16; R471; 0 -/
  cons     : Nat := 0
  /-- SEQ of the event ring; 32; R471; 0 -/
  seq      : Nat := 0
  /-- drain lane pointers; 8 each; R464; 255 (unlisted) -/
  lanePtr  : Tab Nat := []
  /-- CLK_A cycle of a lane's last drain (model: a lane drains once in a cycle); unbounded; R464; none (unlisted) -/
  laneAt   : Tab Nat := []
  /-- AT_BASALT; 11 + 1; R476; none at power-on (R516) -/
  basaltRec : Option Nat := none
  /-- wired reactions not yet in effect; -; R461; none -/
  wired    : List Wired := []
  /-- ROOT_PLL lost lock, collection stopped; 1; R468; 0 -/
  stopped  : Bool := false
  /-- THERMAL_WARN fired and not re-armed, by die; 10; R560; none -/
  warm     : List Nat := []
  /-- THERMAL_TRIP fired, by die; 10; R560; none -/
  hot      : List Nat := []
  deriving DecidableEq, Repr

/-- Newel channel states (R483). -/
inductive ChState where
  | off | wait | queued | ramp | on | lockout | short
  deriving DecidableEq, Repr

/-- A Newel channel (13_newel_power). -/
structure Chan where
  /-- STATE; 3; R483; OFF -/
  st       : ChState := .off
  /-- NW_CH_BOARD; 32; R481; RSENSE 1000, SLEW 3, PRES_EN 1, INRUSH 10 -/
  board    : BitVec 32 := 0x00AB03E8
  /-- NW_CH_THERM; 32; R481; OT_TRIP 150, T_REF 70, RTH 20, TAU 10 -/
  therm    : BitVec 32 := 0x0A144696
  /-- NW_CH_ASSOC; 32; R508; 0 -/
  assoc    : BitVec 32 := 0
  /-- ILIMIT 100 mA; 10; R88; 100 -/
  ilimit   : Nat := 100
  /-- DEAD_TIME us; 8; R88; 20 -/
  dead     : Nat := 20
  /-- RETRY_TMR ms; 16; R88; 1000 -/
  retryTmr : Nat := 1000
  /-- RETRY_CNT; 4; R88; 3 -/
  retryCnt : Nat := 3
  /-- FEED_PRI; 1; R88; 0 -/
  feedPri  : Nat := 0
  /-- TEMP_MODE; 1; R88; 0 -/
  tempMode : Nat := 0
  /-- PRIORITY; 3; R88; 0 -/
  prio     : Nat := 0
  /-- PG; 1; R497; 0 -/
  pg       : Bool := false
  /-- PRESENT; 1; R502; 0 -/
  present  : Bool := false
  /-- FEED in use; 1; R488; 0 -/
  feed     : Nat := 0
  /-- feed switch closed; 1; R488; 0 -/
  closed   : Bool := false
  /-- switching to this feed during DEAD_TIME; 1; R488; none -/
  moving   : Option Nat := none
  /-- PG blanking of a feed switch; 1; R489; 0 -/
  blank    : Bool := false
  /-- REQUESTED; 1; R509; 0 -/
  requested : Bool := false
  /-- RETRIES; 5; R500; 0 -/
  retries  : Nat := 0
  /-- FET_SHORT; 1; R504; 0 -/
  fetShort : Bool := false
  /-- TRIP; 1; R499; 0 -/
  trip     : Bool := false
  /-- OC; 1; R499; 0 -/
  oc       : Bool := false
  /-- OT; 1; R507; 0 -/
  ot       : Bool := false
  /-- START_TO; 1; R496; 0 -/
  startTo  : Bool := false
  /-- REMOVED; 1; R502; 0 -/
  removed  : Bool := false
  /-- SENSOR; 1; R505; 0 -/
  sensor   : Bool := false
  /-- pass-FET temperature in 2^-32 degrees C; -; R505, R506; 0 -/
  tj       : Int := 0
  /-- retry timer running, expiry in dc; -; R485; none -/
  timer    : Option Nat := none
  /-- last expiry of the retry timer; dc; R484; none -/
  expAt    : Option Nat := none
  /-- admission to RAMP; dc; R496; 0 -/
  admitAt  : Nat := 0
  /-- PG asserted last; dc; R501, R530; 0 -/
  pgAt     : Nat := 0
  /-- old feed switch opened; dc; R488, R489; 0 -/
  moveAt   : Nat := 0
  /-- gate last commanded off; dc; R504; 0 -/
  offAt    : Nat := 0
  /-- front of its priority on the other feed; 1; R490; 0 -/
  front    : Bool := false
  /-- NW_PERST_N high; 1; R530; 0 -/
  perst    : Bool := false
  deriving DecidableEq, Repr

/-- A Newel feed (R487, R491 to R494). -/
structure Feed where
  /-- VOLT 10 mV; 11; R487; 0 -/
  volt   : Nat := 0
  /-- GOOD; 1; R487; 0 -/
  good   : Bool := false
  /-- DROOP; 1; R494; 0 -/
  droopy : Bool := false
  /-- OV; 1; R487; 0 -/
  ov     : Bool := false
  /-- last admission; dc; R491; none -/
  lastAdm : Option Nat := none
  /-- BUDGET A; 9; R493; 40 -/
  budget : Nat := 40
  /-- DROOP threshold 10 mV; 11; R493; 1100 -/
  droop  : Nat := 1100
  deriving DecidableEq, Repr

/-- An event of a channel that a later row of its CLK_P cycle may have to come before (R486). -/
inductive ChanEv where
  | inserted | off | on | clear | expiry | eligible
  | admitted (feed : Nat)
  deriving DecidableEq, Repr

/-- The Newel block. -/
structure Newel where
  /-- channels 0 to 31; -; R479; reset values of Chan (unlisted) -/
  chs    : Tab Chan := []
  /-- feeds 0 A and 1 B; -; R487; reset values of Feed (unlisted) -/
  feeds  : Tab Feed := []
  /-- VNEWEL undervoltage holds every gate and switch off; 1; R512; 0 -/
  under  : Bool := false
  /-- the CLK_P cycle of the events noted below; -; R486; 0 -/
  cyc    : Nat := 0
  /-- channels' events of that cycle in the order taken, with the channel each one found; -; R486; none -/
  done   : List (Nat × ChanEv × Chan) := []
  deriving DecidableEq, Repr

/-- Mezzanine (R521, R526, R531). -/
inductive Mezz where
  | stopped | loading | started | running
  deriving DecidableEq, Repr

/-- Power-up, reset and device identification state (14_startup). -/
structure Boot where
  /-- POR_N low, or a rail monitor or DEVICE_RESET KIND 2 acting so; 1; R517; 1 -/
  por      : Bool := true
  /-- the POR_N pin is low; 1; R514; 1 -/
  pin      : Bool := true
  /-- rails out of range; 4; R515; none -/
  rails    : List Nat := []
  /-- straps sampled; 9; R518; 0 until POR_N rises -/
  straps   : Straps := {}
  /-- SY_STRAP.PMAP_BAD; 1; R519; 0 -/
  pmapBad  : Bool := false
  /-- managing H port, none with MGR_NONE; 9; R520; none until the strap map -/
  mgr      : Option Nat := none
  /-- PLL_ROOT locked, core domains running; 1; R522; 0 -/
  pll      : Bool := false
  /-- Atrium and tables initialized; 1; R522; 0 -/
  atr      : Bool := false
  /-- Bedrock ready; 1; R522; 0 -/
  bedrock  : Bool := false
  /-- Mezzanine; 2; R44, R522; stopped -/
  mezz     : Mezz := .stopped
  /-- slot of the running or started image; 1; R421; 0 -/
  slot     : Nat := 0
  /-- running image; -; R423; none -/
  image    : Option Image := none
  /-- slots rejected in this load; -; R421; none -/
  rejected : List Nat := []
  /-- times of Mezzanine stops, newest first; dc; R532; none -/
  stops    : List Nat := []
  /-- restart limit reached; 1; R532; 0 -/
  limit    : Bool := false
  /-- MEZZ_RESTARTS, measurement 7; 8; R537; 0 -/
  restarts : Nat := 0
  /-- SY_RESET_CAUSE [6:0]; 7; R537; by cause (0 before the first POR_N rise) -/
  cause    : BitVec 7 := 0
  /-- causes gathered for the cold reset in progress; 7; R516, R537; POWER_ON and AON_LOST -/
  causeNext : BitVec 7 := 0x41
  /-- DEVICE_RESET that waits its 100 us: KIND and the dc it begins at; 2; R535; none -/
  resetPend : Option (Nat × Nat) := none
  /-- a warm reset runs until Mezzanine is running; 1; R536; 0 -/
  warm     : Bool := false
  /-- PERST_N inputs that are high; 64; R525; none (DESIGN CHOICE, log 20) -/
  perst    : List Nat := []
  /-- Basalt; 1; R474; 0 -/
  basalt   : Bool := false
  /-- FDID; 8; R521; 0 -/
  fdid     : Nat := 0
  /-- quads whose PLL has lost lock; 128; R99, CK_QUAD_LOCK; none -/
  quadLost : List Nat := []
  deriving DecidableEq, Repr

/-- Fabric time (R311 to R316), in 1/8 ns where not said otherwise. -/
structure FTime where
  /-- fabric time less the CLK_S count; 67; R311; 0 -/
  off     : Int := 0
  /-- correction still to be slewed; -; R315; 0 -/
  slew    : Int := 0
  /-- TM_STATUS.VALID; 1; R316; 0 until a grandmaster or an exchange -/
  valid   : Bool := false
  /-- TM_STATUS.STEPPED; 1; R315; 0 -/
  stepped : Bool := false
  /-- THETA; 14 signed; R543; 0 -/
  theta   : Int := 0
  /-- DELAY; 14; R543; 0 -/
  delay   : Int := 0
  /-- last 8 values of theta, newest first; -; R315; none -/
  thetas  : List Int := []
  /-- TM_PTM host time ns; 64; R543; 0 -/
  ptm     : Nat := 0
  /-- TM_PTM_AT ns; 64; R543; 0 -/
  ptmAt   : Nat := 0
  /-- HI words latched by a LO read, by LoReg number; 32 each; R311; none -/
  latch   : Tab Nat := []
  /-- CLK_S count at the last slew step, ns; -; R315; 0 -/
  slewAt  : Nat := 0
  /-- an exchange has completed since the last cold reset; 1; R316; 0 -/
  exch    : Bool := false
  deriving DecidableEq, Repr

/-- A clamp record (R67). -/
structure Clamp where
  field     : Nat
  requested : Nat
  applied   : Nat
  deriving DecidableEq, Repr

/-- A reply (02_command_protocol, Replies); `enc` says it is encrypted under its session (R59). Its bytes are those of
`replyBytes`. -/
structure Reply where
  origin  : Origin
  opcode  : Nat
  tag     : Nat
  status  : Nat
  session : Nat
  field   : Nat := 0xFFFF
  clamps  : List Clamp := []
  data    : Bytes := []
  enc     : Bool := false
  deriving DecidableEq, Repr

/-- What an operation that outlasts its commit acts on (R74). -/
inductive OpKind where
  | portDown (port : Nat)
  | zeroDown (port : Nat)
  | spanResize (port : Nat)
  | bayReset (bay : Nat)
  | bayRemove (bay : Nat)
  | garnet (mpu : Nat)
  | flight (port : Nat)
  | newelOff (ch port : Nat)
  | unbind (port ld : Nat)
  | eyeScan (port lane : Nat)
  | deregister (handle : Nat)
  | rekey (port : Nat)
  | bundle
  | selftest
  deriving DecidableEq, Repr

/-- A command accepted and not yet replied (R58, R74): the reply it will give, filled so far, what it acts on, and whether
it came in a bundle, whose commands give no reply of their own (R79). -/
structure Op where
  reply : Reply
  kind  : OpKind
  quiet : Bool := false
  deriving DecidableEq, Repr

/-- A bundle that is being applied (R79): the BUNDLE_ACTIVATE that began it, its BSEQ, its packets, and the index of the next. -/
structure BundleRun where
  cmd  : Cmd
  seq  : Nat
  pkts : List Bytes
  next : Nat := 0
  deriving DecidableEq, Repr

/-- What leaves the device, in the order it leaves (newest first in `State.out`). -/
inductive Output where
  | reply (r : Reply) (slot : Option Nat) (bytes : Bytes)
  | msix (fn : Fn) (vector : Nat)
  | sendMsg (port : Nat) (m : Msg)
  | flit (port : Nat) (bytes : Bytes) (lanes : List (List Nat))
  | word (port : Nat) (lanes : List (List Nat))
  | kx1 (port : Nat)
  | pattern (lane : Nat) (levels : List Nat)
  | margin (lane type payload : Nat)
  | hostWrite (port addr : Nat) (bytes : Bytes)
  | gallery (engine : Nat) (m : Msg)
  | central (m : Msg)
  | pri (bay page : Nat)
  | ats (bay page : Nat)
  | atsDone (port page : Nat)
  | aer (port : Nat) (bridge : Option Nat) (code : Nat)
  | tdisp (bay : Nat) (error : Bool) (state : Tdi)
  | hotplug (port bridge : Nat) (presence link : Bool)
  | config (fn : Fn) (retry : Bool)
  | drop (port : Nat) (m : Msg)
  | spdm (id : Nat) (status : Nat)
  | measurements (words : List Nat)
  | newelGate (ch : Nat) (on : Bool)
  | readValue (addr value : Nat)
  | time (port : Nat) (t2 t3 : Int)
  deriving DecidableEq, Repr

/-- A telemetry stream (R97): `at_` is the dc its period began. -/
structure Tele where
  block  : Nat
  inst   : Nat
  offset : Nat
  count  : Nat
  period : Nat
  seq    : Nat := 0
  at_    : Nat := 0
  deriving DecidableEq, Repr

/-- The staging store (R77, R91): bytes written since it was last emptied, and the verified bundle. -/
structure Staging where
  bytes    : Bytes := []
  verified : Option (Nat × List Bytes) := none
  deriving DecidableEq, Repr

/-- The state of the M5120. -/
structure State where
  /-- CLK_D cycles since the last cold reset (model: the time base, log 2); unbounded; R10; 0 -/
  dc      : Nat := 0
  /-- fabric time; -; R311; reset values of FTime -/
  ft      : FTime := {}
  /-- power-up and device state; -; R517; reset values of Boot -/
  boot    : Boot := {}
  /-- OTP, flash and what every reset keeps; -; R534; reset values of Nv -/
  nv      : Nv := {}
  /-- ports in use by PORT number; -; R31; none until the strap map -/
  ports   : Tab Port := []
  /-- lanes 0 to 511; -; R29; reset values of Lane (unlisted) -/
  lanes   : Tab Lane := []
  /-- halls 0 to 7; -; R22; reset values of Hall (unlisted) -/
  halls   : Tab Hall := []
  /-- stored messages by number; -; R239; none -/
  cells   : Tab Stored := []
  /-- first free cycle of the cell channel of a hall-to-hall link, key 8 x from + to; unbounded; R241; 0 (unlisted) -/
  links   : Tab Nat := []
  /-- number of the next stored message (model, log 1); unbounded; R239; 0 -/
  nextMid : Nat := 0
  /-- route table; 4096; R258; none -/
  routes  : Tab Route := []
  /-- span groups; 64; R260; none -/
  groups  : Tab Group := []
  /-- management-core messages waiting for room, with their egress port; -; R248; none -/
  coreQ   : List (Nat × Msg) := []
  /-- SW_REBAL_UNDRAINED per group; 32 each; R269; 0 (unlisted) -/
  undrained : Tab Nat := []
  /-- multicast target sets; 4096; R271; empty -/
  mcast   : Tab (List Nat) := []
  /-- management tree ports; 64; R277; empty -/
  tree    : List Nat := []
  /-- QPs by QPN; 1048576; R338; none -/
  qps     : Tab Qp := []
  /-- engine writes on their way by number of the stored message; -; R449, R453; none -/
  places  : Tab Place := []
  /-- STEP and DEC per class; 7 each; R376; 1 and 2 (unlisted; DESIGN CHOICE, log 20) -/
  qcls    : Tab (Nat × Nat) := []
  /-- bays by number; 2048; R385; none -/
  bays    : Tab Bay := []
  /-- Bedrock; -; R414; reset values of Sec -/
  sec     : Sec := {}
  /-- Garnet; -; R443; reset values of Garnet -/
  gn      : Garnet := {}
  /-- staging store; 1048576 bytes; R77; empty -/
  stage   : Staging := {}
  /-- Atrium; -; R456; reset values of Atrium -/
  atr     : Atrium := {}
  /-- Newel; -; R479; reset values of Newel -/
  nw      : Newel := {}
  /-- bundle being applied; -; R79; none -/
  bundle  : Option BundleRun := none
  /-- operations accepted and not replied; -; R74; none -/
  ops     : List Op := []
  /-- telemetry streams; 16; R97; none -/
  tele    : Tab Tele := []
  /-- die temperatures in 0.25 degrees C; 16 signed each; R89; 0 (unlisted; DESIGN CHOICE, log 20) -/
  temps   : Tab Int := []
  /-- CLK_M cycle in which the command engine last accepted a command; unbounded; R55; none -/
  lastCmd : Option Nat := none
  /-- path the command engine served last: an H port's ring by PORT, 512 PCIe VDM, 513 I3C; 10; R55; 513 (the rotation starts at the
  lowest ring) -/
  rot     : Nat := 513
  /-- W1C bits that hardware set in the cycle of the first component (model, log 64); -; R13; none -/
  hwSet   : Nat × List W1c := (0, [])
  /-- RC registers that events raised in the cycle of the first component (model, log 64); -; R14; none -/
  incNow  : Nat × List Inc := (0, [])
  /-- next free value to draw (model, log 3); unbounded; -; 0 (DESIGN CHOICE, log 3) -/
  freeN   : Nat := 0
  /-- what has left the device, newest first (model, log 1); -; -; empty -/
  out     : List Output := []
  /-- commands waiting, first in first out (model, the block's queue); -; -; empty -/
  pending : List Instr := []
  deriving DecidableEq, Repr

/-- The machine right after reset: a power-on with POR_N low (R516, R517), before POR_N_RISE (log entry 5). -/
def State.reset : State := {}

end Sys2Proof.Machine
end

