-- ==== Sys2Proof/Machine/Ops.lean ====
section
/-! DEFINITION. The shared operations: tables, bytes, per-class numbers, updates of one component, time, Atrium firing,
interrupts, replies and the operations that reply later. -/

namespace Sys2Proof.Machine

open Sys2Proof

/-! ## Tables, bytes, classes -/

/-- The entry of a table at `k`. -/
def tget {α : Type} : Tab α → Nat → Option α
  | [], _ => none
  | (j, v) :: r, k => if j = k then some v else tget r k

/-- The entry at `k`, or what an unlisted number reads as. -/
def tgetD {α : Type} (t : Tab α) (k : Nat) (d : α) : α := (tget t k).getD d

/-- The table with `v` at `k`, in rising order. -/
def tset {α : Type} : Tab α → Nat → α → Tab α
  | [], k, v => [(k, v)]
  | (j, w) :: r, k, v =>
    if k < j then (k, v) :: (j, w) :: r else if k = j then (k, v) :: r else (j, w) :: tset r k v

/-- The table without an entry at `k`. -/
def tdel {α : Type} (t : Tab α) (k : Nat) : Tab α := t.filter fun e => e.1 != k

/-- The table with the entry at `k` changed where it exists. -/
def tmod {α : Type} (t : Tab α) (k : Nat) (f : α → α) : Tab α :=
  match tget t k with
  | some v => tset t k (f v)
  | none => t

/-- The canonical form of a table: numbers strictly rising. -/
def tabWf {α : Type} : Tab α → Bool
  | [] => true
  | [_] => true
  | (j, _) :: (k, v) :: r => decide (j < k) && tabWf ((k, v) :: r)

/-- The numbers a table lists. -/
def tkeys {α : Type} (t : Tab α) : List Nat := t.map (·.1)

/-- Every entry of a table changed. -/
def tmap {α β : Type} (t : Tab α) (f : Nat → α → β) : Tab β := t.map fun e => (e.1, f e.1 e.2)

/-- The entries of a table that satisfy `f`. -/
def tfilter {α : Type} (t : Tab α) (f : Nat → α → Bool) : Tab α := t.filter fun e => f e.1 e.2

/-- A saturating 32-bit counter table with `n` more at `k` (R15, R544). -/
def tbump (t : Tab Nat) (k n : Nat) : Tab Nat := tset t k (min 0xFFFFFFFF (tgetD t k 0 + n))

/-- A number with `n` more, at most `2^bits - 1` (R15). -/
def satAdd (bits x n : Nat) : Nat := min (2 ^ bits - 1) (x + n)

/-- The lowest number from 0 below `n` that a list does not hold. -/
def lowestFree (used : List Nat) (n : Nat) : Option Nat := (List.range n).find? fun k => !used.contains k

/-- `n` bytes of a value, little-endian (R8). -/
def le : Nat → Nat → Bytes
  | 0, _ => []
  | n + 1, v => v % 256 :: le n (v / 256)

/-- The value of little-endian bytes (R8). -/
def unle : Bytes → Nat
  | [] => 0
  | b :: r => b % 256 + 256 * unle r

/-- `n` bytes: bytes a short list does not give read 0. -/
def fit (n : Nat) (bs : Bytes) : Bytes := (bs ++ List.replicate (n - bs.length) 0).take n

/-- `w` bytes at offset `off`. -/
def slice (bs : Bytes) (off w : Nat) : Bytes := (bs.drop off).take w

/-- A signed field: the value of `w` bytes in two's complement (R564). -/
def signed (w v : Nat) : Int := if v < 2 ^ (8 * w - 1) then (v : Int) else (v : Int) - 2 ^ (8 * w)
/-- Two's complement in `w` bytes. -/
def unsigned (w : Nat) (v : Int) : Nat := (v % 2 ^ (8 * w)).toNat

/-- Bits `[hi:lo]` of a number (R7). -/
def bits (v hi lo : Nat) : Nat := v / 2 ^ lo % 2 ^ (hi + 1 - lo)

/-- Bit `n` of a number. -/
def bit (v n : Nat) : Bool := v / 2 ^ n % 2 == 1

/-- A bit as a number. -/
def b2n (b : Bool) : Nat := if b then 1 else 0

/-- Division rounded up. -/
def ceilDiv (a b : Nat) : Nat := (a + b - 1) / b

/-- The code of a class (R139). -/
def clsNum : Cls → Nat
  | .req => 0 | .rsp => 1 | .wr => 2 | .mgt => 3

/-- The class of a code. -/
def clsOf (n : Nat) : Cls := if n % 4 = 0 then .req else if n % 4 = 1 then .rsp else if n % 4 = 2 then .wr else .mgt

/-- The number of one class. -/
def cget (x : Cls4) : Cls → Nat
  | .req => x.req | .rsp => x.rsp | .wr => x.wr | .mgt => x.mgt

/-- The numbers with one class set. -/
def cset (x : Cls4) (c : Cls) (v : Nat) : Cls4 :=
  match c with
  | .req => { x with req := v }
  | .rsp => { x with rsp := v }
  | .wr => { x with wr := v }
  | .mgt => { x with mgt := v }

/-- The numbers with `n` more in one class. -/
def cadd (x : Cls4) (c : Cls) (n : Nat) : Cls4 := cset x c (cget x c + n)

/-- The numbers with `n` fewer in one class. -/
def csub (x : Cls4) (c : Cls) (n : Nat) : Cls4 := cset x c (cget x c - n)

/-- The sum over the classes. -/
def csum (x : Cls4) : Nat := x.req + x.rsp + x.wr + x.mgt

/-- The four classes in the order of their codes. -/
def allCls : List Cls := [.req, .rsp, .wr, .mgt]

/-! ## Updates of one component -/

def getPort (s : State) (p : Nat) : Option Port := tget s.ports p
def setPort (p : Nat) (f : Port → Port) (s : State) : State := { s with ports := tmod s.ports p f }
def setSpan (p : Nat) (f : Span → Span) (s : State) : State := setPort p (fun q => { q with span := f q.span }) s
def setScfg (p : Nat) (f : SpanCfg → SpanCfg) (s : State) : State := setPort p (fun q => { q with scfg := f q.scfg }) s
def setStd (p : Nat) (f : Std → Std) (s : State) : State := setPort p (fun q => { q with std := f q.std }) s
def setSched (p : Nat) (f : Sched → Sched) (s : State) : State := setPort p (fun q => { q with sched := f q.sched }) s
def getLane (s : State) (l : Nat) : Lane := tgetD s.lanes l {}
def setLane (l : Nat) (f : Lane → Lane) (s : State) : State := { s with lanes := tset s.lanes l (f (getLane s l)) }
def getHall (s : State) (h : Nat) : Hall := tgetD s.halls h {}
def setHall (h : Nat) (f : Hall → Hall) (s : State) : State := { s with halls := tset s.halls h (f (getHall s h)) }
/-- Engine `8 x hall + engine` (R252). -/
def getEngine (s : State) (e : Nat) : Engine := tgetD (getHall s (e / 8)).engines (e % 8) {}
def setEngine (e : Nat) (f : Engine → Engine) (s : State) : State :=
  setHall (e / 8) (fun h => { h with engines := tset h.engines (e % 8) (f (tgetD h.engines (e % 8) {})) }) s
def setBay (b : Nat) (f : Bay → Bay) (s : State) : State := { s with bays := tmod s.bays b f }
def setQp (q : Nat) (f : Qp → Qp) (s : State) : State := { s with qps := tmod s.qps q f }
def setGroup (g : Nat) (f : Group → Group) (s : State) : State := { s with groups := tmod s.groups g f }
def getMpu (s : State) (m : Nat) : Mpu := tgetD s.gn.mpus m {}
def setMpu (m : Nat) (f : Mpu → Mpu) (s : State) : State :=
  { s with gn := { s.gn with mpus := tset s.gn.mpus m (f (getMpu s m)) } }
def getChan (s : State) (c : Nat) : Chan := tgetD s.nw.chs c {}
def setChan (c : Nat) (f : Chan → Chan) (s : State) : State :=
  { s with nw := { s.nw with chs := tset s.nw.chs c (f (getChan s c)) } }
def getFeed (s : State) (f : Nat) : Feed := tgetD s.nw.feeds f {}
def setFeed (k : Nat) (f : Feed → Feed) (s : State) : State :=
  { s with nw := { s.nw with feeds := tset s.nw.feeds k (f (getFeed s k)) } }
def setBoot (f : Boot → Boot) (s : State) : State := { s with boot := f s.boot }
def setNv (f : Nv → Nv) (s : State) : State := { s with nv := f s.nv }
def setSec (f : Sec → Sec) (s : State) : State := { s with sec := f s.sec }
def setGn (f : Garnet → Garnet) (s : State) : State := { s with gn := f s.gn }
def setAtr (f : Atrium → Atrium) (s : State) : State := { s with atr := f s.atr }
def setFt (f : FTime → FTime) (s : State) : State := { s with ft := f s.ft }
def emit (o : Output) (s : State) : State := { s with out := o :: s.out }

/-- A free value (R164, R429 and the like): the next one the model draws. -/
def freeVal (s : State) : Nat := Config.freeNat s.freeN
def drawn (s : State) : State := { s with freeN := s.freeN + 1 }

/-- Bedrock takes random bits from its DRBG: one request of the count of R426 (DESIGN CHOICE, log 35). -/
def drbgUse (s : State) : State := setSec (fun x => { x with drbgReqs := x.drbgReqs + 1 }) s

/-! ## Events of one cycle beside accesses of software (R13, R14) -/

/-- Hardware sets a W1C bit in the present cycle (R13). -/
def noteSet (b : W1c) (s : State) : State :=
  { s with hwSet := if s.hwSet.1 = s.dc then (s.dc, b :: s.hwSet.2) else (s.dc, [b]) }

/-- A write of 1 leaves the bit set: hardware set it in the same cycle (R13). -/
def setNow (s : State) (b : W1c) : Bool := s.hwSet.1 == s.dc && s.hwSet.2.contains b

/-- A W1C bit after a write of this bit of the word (R12, R13). -/
def w1c (s : State) (b : W1c) (old one : Bool) : Bool := old && (!one || setNow s b)

/-- The entry of an RC register in the present cycle (R14). -/
def incOf (s : State) (k : CntKey) : Option Inc := if s.incNow.1 = s.dc then s.incNow.2.find? fun i => i.key == k else none

/-- The entries of the present cycle with one of them replaced. -/
def putInc (i : Inc) (s : State) : State :=
  { s with incNow := (s.dc, i :: (if s.incNow.1 = s.dc then s.incNow.2.filter fun j => j.key != i.key else [])) }

/-- The value of an RC register. -/
def cntVal (s : State) : CntKey → Nat
  | .port p k => match getPort s p with | some q => tgetD q.cnt k 0 | none => 0
  | .hall h k => tgetD (getHall s h).cnt k 0
  | .engine e k => tgetD (getEngine s e).cnt k 0
  | .lane l k => tgetD (getLane s l).cnt k 0
  | .undrained g => tgetD s.undrained g 0
  | .meter h m c =>
    match tget (getHall s h).meters m with
    | some x => if c = 0 then x.green else if c = 1 then x.yellow else x.red
    | none => 0
  | .drop m => (getMpu s m).drop
  | .hwm h => (getHall s h).poolHwm

/-- A counter table with `v` at `k`; 0 is unlisted. -/
def tput (t : Tab Nat) (k v : Nat) : Tab Nat := if v = 0 then tdel t k else tset t k v

/-- An RC register set. -/
def setCnt (key : CntKey) (v : Nat) (s : State) : State :=
  match key with
  | .port p k => setPort p (fun q => { q with cnt := tput q.cnt k v }) s
  | .hall h k => setHall h (fun x => { x with cnt := tput x.cnt k v }) s
  | .engine e k => setEngine e (fun x => { x with cnt := tput x.cnt k v }) s
  | .lane l k => setLane l (fun x => { x with cnt := tput x.cnt k v }) s
  | .undrained g => { s with undrained := tput s.undrained g v }
  | .meter h m c =>
    setHall h (fun x => { x with meters := tmod x.meters m fun y =>
      if c = 0 then { y with green := v } else if c = 1 then { y with yellow := v } else { y with red := v } }) s
  | .drop m => setMpu m (fun u => { u with drop := v }) s
  | .hwm h => setHall h (fun x => { x with poolHwm := v }) s

/-- `n` events raise an RC register, which saturates at 32 bits (R14, R15, R544). -/
def bump (k : CntKey) (n : Nat) (s : State) : State :=
  let i : Inc := (incOf s k).getD { key := k, before := cntVal s k, sum := 0 }
  setCnt k (satAdd 32 (cntVal s k) n) (putInc { i with sum := satAdd 32 i.sum n } s)

/-- The high-water mark of a hall's pool meets a use (SW_POOL_HWM). -/
def highWater (h use : Nat) (s : State) : State :=
  if (getHall s h).poolHwm < use then
    let i : Inc := (incOf s (.hwm h)).getD { key := .hwm h, before := (getHall s h).poolHwm, sum := 0 }
    setCnt (.hwm h) use (putInc { i with sum := use } s)
  else s

/-- What a read of an RC register returns: its value before the events of the cycle (R14). -/
def cntRead (s : State) (k : CntKey) : Nat := match incOf s k with | some i => i.before | none => cntVal s k

/-- What a read leaves in it: 0, or the increment of the cycle (R12, R14). -/
def cntClear (k : CntKey) (s : State) : State :=
  match incOf s k with
  | some i => setCnt k i.sum (putInc { i with before := 0 } s)
  | none => setCnt k 0 s

/-- A counter of a port's own instances, by its offset (R543, R544). -/
def bumpPort (p off n : Nat) (s : State) : State := bump (.port p off) n s
/-- A hall counter, by its block base and offset. -/
def bumpHall (h off n : Nat) (s : State) : State := bump (.hall h off) n s
/-- A counter of one engine, by its offset. -/
def bumpEngine (e off : Nat) (s : State) : State := bump (.engine e off) 1 s
/-- A counter of a lane, by its offset. -/
def bumpLane (l off n : Nat) (s : State) : State := bump (.lane l off) n s

/-! ## Ports, halls, conditions -/

/-- The hall of a port (R31). -/
def hallOf (p : Nat) : Nat := p / 64
/-- The pipe of a port (R238). -/
def pipeOf (p : Nat) : Nat := p % 64 / 16
/-- The global lanes of a port (R29, R30). -/
def portLanes (p : Nat) (q : Port) : List Nat := (List.range q.width).map (p + ·)

/-- Core domains run, tables are initialized and the device is not in Basalt (R517, R522, R474). -/
def live (s : State) : Bool := !s.boot.por && s.boot.pll && s.boot.atr && !s.boot.basalt

/-- The step of an event of a running core: its effect while `live`, else none. -/
def act (s : State) (f : State → State) : Host.Outcome State Fault Refusal := .next (if live s then f s else s)

/-- H ports of the map in force, in ascending PORT order. -/
def hPorts (s : State) : List Nat := (s.ports.filter fun e => e.2.typ == .h).map (·.1)

/-- Is the port in use and of the type? -/
def isType (s : State) (t : PortType) (p : Nat) : Bool :=
  match getPort s p with
  | some q => q.typ == t
  | none => false

def inUse (s : State) (p : Nat) : Bool := (getPort s p).isSome
def portSt (s : State) (p : Nat) : Option PortState := (getPort s p).map (·.st)

/-- The MPU of an H port: 68 and its rank in ascending PORT order (R86). -/
def hMpu (s : State) (p : Nat) : Nat := 68 + ((hPorts s).filter (· < p)).length

/-- The H port of an ingress-agent MPU. -/
def mpuHPort (s : State) (m : Nat) : Option Nat := if m < 68 then none else (hPorts s)[m - 68]?

/-- The PERST_N number 8h + k of an H port (14, Host ports during boot). -/
def perstIdx (s : State) (p : Nat) : Nat :=
  8 * hallOf p + ((hPorts s).filter fun q => q < p && hallOf q == hallOf p).length

/-- The H port a PERST_N number names. -/
def perstPort (s : State) (i : Nat) : Option Nat := (hPorts s).find? fun p => perstIdx s p == i

/-- The H port of a bay's local index. -/
def bayAt (s : State) (hport loc : Nat) : Option Nat :=
  (s.bays.find? fun e => e.2.hport == hport && e.2.loc == loc).map (·.1)

/-- The H port of a bay. -/
def bayPort (s : State) (b : Nat) : Option Nat := (tget s.bays b).map (·.hport)

/-- The line rate of a port in Mb/s: configured width times the highest lane rate (R295, R331). -/
def lineRate (q : Port) : Nat := q.width * (if q.typ == .span then 256000 else 128000)

/-- The effective lane rate R of R331 in Mb/s for a LANE_TEST rate code, as numerator and denominator. -/
def laneRate (code : Nat) : Nat × Nat :=
  match code with
  | 0 => (2000, 1) | 1 => (4000, 1) | 2 => (8000 * 128, 130) | 3 => (16000 * 128, 130) | 4 => (32000 * 128, 130)
  | 5 => (64000, 1) | 6 => (128000, 1) | 7 => (256000, 1) | 8 => (128000, 1) | 9 => (64000, 1) | _ => (1, 1)

/-- The data rate of a port, width in force times R (R250), as numerator and denominator in Mb/s. -/
def dataRate (q : Port) : Nat × Nat := (q.widthNow * (laneRate q.rate).1, (laneRate q.rate).2)

/-! ## Time -/

/-- The count of CLK_S cycles in ns (R296). -/
def nsNow (s : State) : Nat := s.dc / 2

/-- Fabric time in 1/8 ns (R311). -/
def fabric8 (s : State) : Nat := (8 * (s.dc / 2 : Int) + s.ft.off).toNat

/-- Fabric time in whole ns (R311). -/
def fabricNs (s : State) : Nat := fabric8 s / 8

/-- The device is a grandmaster: no port has ROLE 1 (R313). -/
def grandmaster (s : State) : Bool := s.ports.all fun e => e.2.role != 1

/-- The slew of R315 between two CLK_S counts: at most 1 ns per 1,024 ns. -/
def slewBy (f : FTime) (ns : Nat) : FTime :=
  let room : Int := ((ns - f.slewAt) * 8 / 1024 : Nat)
  let c : Int := if f.slew ≥ 0 then min f.slew room else max f.slew (-room)
  if c = 0 then (if f.slew = 0 then { f with slewAt := ns } else f)
  else { f with off := f.off + c, slew := f.slew - c, slewAt := ns }

/-- The clock at `dc`, with the slew of the time that has passed; the clock never goes back. -/
def clockTo (dc : Nat) (s : State) : State :=
  if dc ≤ s.dc then s else { s with dc := dc, ft := slewBy s.ft (dc / 2) }

/-! ## Atrium: sources, firing (R456 to R468) -/

def srcLink (p : Nat) : Nat := p / 64 * 256 + p % 64
def srcProto (p : Nat) : Nat := srcLink p + 64
def srcDegr (p : Nat) : Nat := srcLink p + 128
def srcPipe (p : Nat) : Nat := p / 64 * 256 + 192 + pipeOf p
def srcEngine (e : Nat) : Nat := e / 8 * 256 + 196 + e % 8
def srcEngCorr (e : Nat) : Nat := e / 8 * 256 + 204 + e % 8
def srcCentral (c : Nat) : Nat := c / 16 * 256 + 240 + c % 16
def srcHall (h loc : Nat) : Nat := h * 256 + loc

/-- The source of an MPU's violations (R457, R458). -/
def srcMpu (s : State) (m : Nat) : Nat :=
  if m < 64 then m / 8 * 256 + 212 + m % 8
  else if m < 68 then srcCentral (11 + (m - 64))
  else
    match mpuHPort s m with
    | some p => hallOf p * 256 + 220 + ((hPorts s).filter fun q => q < p && hallOf q == hallOf p).length
    | none => srcCentral 15

/-- The central number c of a source, if it is central (R458). -/
def centralNum (src : Nat) : Option Nat := if src % 256 < 240 then none else some (16 * (src / 256) + (src % 256 - 240))

/-- The class of a source: 0 CORRECTED, 1 DEGRADED, 2 CONTAINED, 3 FATAL (R457, R458). -/
def srcClass (src : Nat) : Nat :=
  match centralNum src with
  | none =>
    let l := src % 256
    if l < 128 then 2 else if l < 192 then 1 else if l < 196 then 0 else if l < 204 then 1 else if l < 212 then 0
    else if l < 229 then 1 else if l = 229 then 0 else if l = 230 then 1 else if l < 233 then 3 else 0
  | some c =>
    if c < 5 then 3 else if c < 9 then 1 else if c < 11 then 0 else if c < 15 then 1 else if c = 15 then 0
    else if c < 48 then 1 else 0

/-- The reset reaction of a source (R457, R458). -/
def srcReset (src : Nat) : Nat :=
  match srcClass src with
  | 0 => 0 | 1 => 1 | 2 => 2 | _ => 4

/-- Sources marked fixed in R457 and R458. -/
def srcFixed (src : Nat) : Bool :=
  match centralNum src with
  | none => decide (src % 256 < 64)
  | some c => decide (c < 5)

/-- The reaction in force of a source. -/
def reactOf (s : State) (src : Nat) : Nat := tgetD s.atr.react src (srcReset src)

/-- The reaction that applies to a firing now: a change committed in this CLK_A cycle applies from the next firing (R462). -/
def reactNow (s : State) (src : Nat) : Nat :=
  match tget s.atr.reactWas src with
  | some (k, r) => if k = s.dc / 8 then r else reactOf s src
  | none => reactOf s src

/-- The detail word of R459. -/
def detailOf (cause object actor : Nat) : BitVec 32 :=
  BitVec.ofNat 32 (cause % 256 + 256 * (object % 512) + 2 ^ 17 * (actor % 4096))

def detCause (d : BitVec 32) : Nat := d.toNat % 256
def detObject (d : BitVec 32) : Nat := d.toNat / 256 % 512
def detActor (d : BitVec 32) : Nat := d.toNat / 2 ^ 17 % 4096

/-- No actor known (R459). -/
def noActor : Nat := 0xFFC

/-- FIRST_EVENT after a firing: frozen on the lowest source of the first CLK_A cycle (R468). -/
def firstAfter (f : Option Event) (e : Event) : Option Event :=
  match f with
  | none => some e
  | some g => if g.cyc = e.cyc && e.source < g.source then some e else some g

/-- The firing of the lowest source of the latest CLK_A cycle with one (R468). -/
def lowestFired (f : Option Event) (e : Event) : Event :=
  match f with
  | some g => if g.cyc = e.cyc && decide (g.source ≤ e.source) then g else e
  | none => e

/-- A source fires while its bit is set: the firing that sets the bit again, should this CLK_A cycle drain the source, and
MERGED as it was before this cycle (R465). -/
def againAfter (a : Option (Event × Bool)) (old e : Event) : Event × Bool :=
  match a with
  | some (g, m) => if g.cyc = e.cyc then ({ g with merged := true }, m) else (e, old.merged)
  | none => (e, old.merged)

/-- A source fires (R464, R465, R467, R468): its pending bit and capture, FIRST_EVENT, and its wired reaction (R461). -/
def fire (src cause object actor : Nat) (s : State) : State :=
  if s.atr.stopped || !s.boot.atr then s
  else
    let react := reactNow s src
    let cls := srcClass src
    let e : Event := { ts := fabricNs { s with dc := s.dc / 8 * 8 }, source := src, cls := cls, tInv := !s.ft.valid, react := react,
                       detail := detailOf cause object actor, cyc := s.dc / 8 }
    let w : List Wired :=
      if cls ≥ 2 && react ≥ 2 then
        [{ source := src, react := react, cause := cause, object := object, actor := actor,
           due := s.dc + (if react = 4 then 10 else 6) }]
      else []
    setAtr (fun a => { a with
      pend := (match tget a.pend src with
               | some old => tset a.pend src { old with merged := true }
               | none => tset a.pend src e),
      again := (match tget a.pend src with
                | some old => tset a.again src (againAfter (tget a.again src) old e)
                | none => a.again),
      first := firstAfter a.first e, fired := some (lowestFired a.fired e),
      wired := a.wired ++ w }) s

/-- The DEGRADED source of a port (R457). -/
def fireDegr (p cause : Nat) (s : State) : State := fire (srcDegr p) cause p noActor s
/-- The CORRECTED source of a port's pipe (R457). -/
def firePipe (p cause : Nat) (s : State) : State := fire (srcPipe p) cause p noActor s
/-- The Newel event of a channel (R511). -/
def fireNewel (ch cause : Nat) (s : State) : State := fire (srcCentral (16 + ch)) cause ch noActor s

/-! ## Interrupts -/

/-- Vectors a bay may signal: below the amount held of MSIX, the larger of the target and the vectors its QPs name
(R390, R394). -/
def msixHeld (s : State) (b : Nat) (y : Bay) : Nat :=
  max y.tgt.msix ((s.qps.filter fun e => e.2.bay == b).foldl
    (fun m e => match e.2.cfg.vector with | some v => max m (v + 1) | none => m) 0)

/-- An MSI-X message of a function, held pending while its Bus Master Enable is clear, the vector is masked or the link is
down (R222, R394, R398, R409; the link's part DEDUCED, log 6). -/
def msix (fn : Fn) (v : Nat) (s : State) : State :=
  match fn with
  | .pf0 p =>
    match getPort s p with
    | some q =>
      if q.std.bme && q.std.msixOpen.contains v && q.st == .up && !s.boot.basalt then emit (.msix fn v) s
      else setStd p (fun d => { d with msixPend := if d.msixPend.contains v then d.msixPend else d.msixPend ++ [v] }) s
    | none => s
  | .bay b =>
    match tget s.bays b with
    | some y =>
      if y.st != .active || v ≥ msixHeld s b y then s
      else if y.bme && y.tdi != .error && y.msixOpen.contains v && portSt s y.hport == some .up && !s.boot.basalt then
        emit (.msix fn v) s
      else setBay b (fun z => { z with msixPend := if z.msixPend.contains v then z.msixPend else z.msixPend ++ [v] }) s
    | none => s

/-! ## Sessions -/

/-- Sessions that satisfy `f` end, their secrets with them (R416, R426). -/
def endSessions (f : Session → Bool) (s : State) : State :=
  setSec (fun x => { x with sessions := x.sessions.filter fun y => !f y }) s

/-! ## The keys of a session (R59; DSP0277 of SPDM, PRESUMED, log 65) -/

/-- A label of the SPDM key schedule: length, version, label. -/
def spdmLabel (len : Nat) (label : Bytes) : Bytes := le 2 len ++ [0x73, 0x70, 0x64, 0x6D, 0x31, 0x2E, 0x33, 0x20] ++ label

/-- The AES-256 key of a direction secret: label "key". -/
def appKey (secret : Nat) : Bytes := Crypto.hkdfExpand (Crypto.toBE 48 secret) (spdmLabel 32 [0x6B, 0x65, 0x79]) 32

/-- The nonce of the n-th message under a direction secret: label "iv", with the sequence number over it. -/
def appNonce (secret n : Nat) : Bytes :=
  Crypto.xorBytes (Crypto.hkdfExpand (Crypto.toBE 48 secret) (spdmLabel 12 [0x69, 0x76]) 12) (le 12 n)

/-- The secret that follows by KEY_UPDATE: label "traffic upd". -/
def nextSecret (secret : Nat) : Nat :=
  Crypto.ofBE (Crypto.hkdfExpand (Crypto.toBE 48 secret)
    (spdmLabel 48 [0x74, 0x72, 0x61, 0x66, 0x66, 0x69, 0x63, 0x20, 0x75, 0x70, 0x64]) 48)

/-! ## Replies and operations -/

/-- A clamp record: FIELD, reserved bytes, REQUESTED, APPLIED (02, Replies). -/
def clampBytes (k : Clamp) : Bytes := le 2 k.field ++ le 6 0 ++ le 8 k.requested ++ le 8 k.applied

/-- What follows a reply's header in plaintext: the clamp records, then the result data (R72). -/
def replyBody (r : Reply) : Bytes := r.clamps.flatMap clampBytes ++ r.data

/-- The reply header (02, Replies); RLEN counts the tag of an encrypted reply (R72). -/
def replyHeader (r : Reply) (enc : Bool) : Bytes :=
  le 2 r.opcode ++ le 2 r.tag ++ le 2 ((replyBody r).length + (if enc then 16 else 0)) ++ le 2 r.status ++ le 4 r.session
    ++ le 2 r.clamps.length ++ le 2 r.field

/-- The session that encrypts a reply (R59). -/
def replySession (s : State) (r : Reply) : Option Session :=
  if r.enc then s.sec.sessions.find? fun x => x.id == r.session else none

/-- The bytes of a reply (R8, R17, R59, R60, R72): header, clamp records, result data; under its session the part after the
header is encrypted, the header is additional data and the tag follows. When that session has ended the reply is its header
alone (DESIGN CHOICE, log 65). -/
def replyBytes (s : State) (r : Reply) : Bytes :=
  match replySession s r with
  | some x =>
    let h := replyHeader r true
    let e := Crypto.gcmSeal (appKey x.rspSecret) (appNonce x.rspSecret x.rsps) h (replyBody r)
    h ++ e.1 ++ e.2
  | none =>
    let r := if r.enc then { r with clamps := [], data := [] } else r
    replyHeader r false ++ replyBody r

/-- A reply leaves with its bytes, and its session counts it (R59). -/
def putReply (r : Reply) (slot : Option Nat) (s : State) : State :=
  let t := emit (.reply r slot (replyBytes s r)) s
  if r.enc then
    setSec (fun x => { x with sessions := x.sessions.map fun y => if y.id = r.session then { y with rsps := y.rsps + 1 } else y }) t
  else t

/-- The success code after clamps: OK_SQUASHED before OK_CLAMPED (R73). -/
def okStatus (clamps : List Clamp) (squashed : Bool) : Nat := if squashed then 2 else if clamps.isEmpty then 0 else 1

/-- Both rings hold 2^LOG slots; a LOG below 4 acts as 4, above 10 as 10 (R543). -/
def ringLog (r : Rings) : Nat := max 4 (min 10 r.log)

/-- A reply leaves on the path of its command (R52, R53, R59, R527, R550, R567); a path whose link is down carries none
(DEDUCED, log 6), and PF0 writes none while its Bus Master Enable is clear (R222). -/
def sendReply (r : Reply) (s : State) : State :=
  match r.origin with
  | .i3c => putReply r none s
  | .vdm p => if s.boot.basalt || portSt s p != some .up then s else putReply r none s
  | .bay b =>
    if s.boot.basalt || ((tget s.bays b).bind fun y => portSt s y.hport) != some .up then s else putReply r none s
  | .ring p =>
    match getPort s p with
    | some q =>
      if s.boot.basalt || !q.std.rings.enable then s
      else if !q.std.bme || q.st != .up then
        setStd p (fun d => { d with rings := { d.rings with resv := d.rings.resv - 1 } })
          (if q.st == .up then bumpPort p 0x018 1 s else s)
      else
        let k := q.std.rings.rplProd
        let sends := q.std.rings.ie && !q.std.rings.sent
        let s := putReply r (some (k % 2 ^ ringLog q.std.rings)) s
        let s := setStd p (fun d => { d with rings := { d.rings with
                   rplProd := (k + 1) % 65536, resv := d.rings.resv - 1, sent := d.rings.sent || sends } }) s
        if sends then msix (.pf0 p) q.std.rings.vector s else s
    | none => s

/-- The operation on an object, if one is in progress (R74). -/
def findOp (s : State) (k : OpKind) : Option Op := s.ops.find? fun o => o.kind == k

/-- An operation ends and replies (R74). -/
def endOp (k : OpKind) (status : Nat) (data : Bytes) (s : State) : State :=
  match findOp s k with
  | some o =>
    let st := if status = 0 then okStatus o.reply.clamps false else status
    let clamps := if st < 0x10 then o.reply.clamps else []
    let t := { s with ops := s.ops.erase o }
    if o.quiet then t else sendReply { o.reply with status := st, data := data, clamps := clamps } t
  | none => s

/-- An operation replies ABORTED (R75, R76, R570). -/
def abortOp (k : OpKind) (s : State) : State := endOp k 0x41 [] s

/-- Every operation that satisfies `f` replies ABORTED. -/
def abortOps (f : OpKind → Bool) (s : State) : State :=
  s.ops.foldl (fun s o => if f o.kind then abortOp o.kind s else s) s

/-- AER report in a virtual bridge of an H port (R204, R230), or in its virtual upstream switch port (R448). -/
def aer (p : Nat) (bridge : Option Nat) (code : Nat) (s : State) : State := emit (.aer p bridge code) s

/-- Non-posted requests that PF0 and the bays of an H port may have outstanding: 2,048, and no more than the 10-bit tags of
non-flit mode (R191, R193). -/
def tagLimit (q : Port) : Nat := if q.flit then 2048 else 1024

/-- A tag is free for one more request of PF0 or a bay (R193, R400). -/
def tagRoom (q : Port) : Bool := decide ((q.std.np.filter fun r => r.fn.isSome).length + q.std.quar.length < tagLimit q)

/-- A tag is free on the H port of a bay. -/
def bayTag (s : State) (b : Nat) : Bool := match (bayPort s b).bind (getPort s) with | some q => tagRoom q | none => false

/-- The requester ID of a function within its H port: PF0 is 0, the bay of local index j is j + 1 (R386). -/
def fnId (s : State) : Fn → Nat
  | .pf0 _ => 0
  | .bay b => match tget s.bays b with | some y => y.loc + 1 | none => 0

/-- The TDI of a bay does not keep it from issuing requests: a TDI in ERROR issues none, but what a reset drains still goes on
(R216, R399). -/
def tdiIssues (s : State) (b : Nat) : Bool :=
  match tget s.bays b with
  | some y => y.tdi != .error || y.st != .active
  | none => false

/-- A TLP passes an H port or D port: the idle time of R217 starts again. -/
def noteTlp (p : Nat) (s : State) : State := setStd p (fun d => { d with busyAt := s.dc }) s

/-- An exit from L1 starts, with CLKREQ_N asserted (R218, R221). -/
def startL1Exit (p : Nat) (s : State) : State :=
  match getPort s p with
  | some q => if q.typ == .h && q.std.l1 then setStd p (fun d => { d with l1Exit := true }) s else s
  | none => s

/-- CLKREQ_N of an H port is asserted: it is released in L1.1 and L1.2 until the exit starts (R218). -/
def clkreqN (q : Port) : Bool := q.std.l1sub == 0 || q.std.l1Exit

/-- The L1 exit latency an H port advertises, the standard's code for 4 us to less than 8 us (R218). -/
def l1ExitLatency : Nat := 3

/-- Before AT_INT_STATUS or AT_INT_CFG changes: what ALERT_N followed at the start of this CLK_A cycle (R470). -/
def noteAlert (s : State) : State :=
  if s.atr.alertWas.1 = s.dc / 8 then s else setAtr (fun a => { a with alertWas := (s.dc / 8, a.event && a.alertEn) }) s

/-- ALERT_N is asserted: one CLK_A cycle after EVENT and ALERT_EN are both 1, and until one cycle after either falls (R470,
R517). -/
def alertN (s : State) : Bool :=
  !s.boot.por && (if s.atr.alertWas.1 = s.dc / 8 then s.atr.alertWas.2 else s.atr.event && s.atr.alertEn)

/-- BASALT_N is asserted (R474, R517). -/
def basaltN (s : State) : Bool := !s.boot.por && s.boot.basalt

end Sys2Proof.Machine
end

