-- ==== Sys2Proof/Machine/Codes.lean ====
section
/-! DEFINITION. The codes of a span lane and flit: striping, scrambling, Gray mapping, precoding, the run guard, the
alignment word (03_lanes), the CRC-64, the RS parity, the link header (04_span_link) and the CRC-16 of R263. -/

namespace Sys2Proof.Machine

open Sys2Proof

/-- The span lane that carries byte `i` at width `w` (R102). -/
def stripeLane (i w : Nat) : Nat := i % w

/-- The four bit pairs of a byte, first sent first; each pair is (first, second) bit of the Gray pair (R102). -/
def bytePairs (b : Nat) : List (Nat × Nat) := (List.range 4).map fun k => (b / 2 ^ (2 * k + 1) % 2, b / 2 ^ (2 * k) % 2)

/-- One shift of the scrambler x^31 + x^28 + 1: the next state and the output bit (R103). DEDUCED: the output is the
bit that enters the register (log 7). -/
def scramShift (st : Nat) : Nat × Nat :=
  let fb := (st / 2 ^ 30 + st / 2 ^ 27) % 2
  ((2 * st + fb) % 2 ^ 31, fb)

/-- The seed of span lane `l` (R103). -/
def scramSeed (l : Nat) : Nat := 0x2B4E0000 + l + 1

/-- Bits XORed with the scrambler from a state (R103). -/
def scramble : Nat → List Nat → List Nat
  | _, [] => []
  | st, b :: r => let (st', o) := scramShift st; (b + o) % 2 :: scramble st' r

/-- The Gray symbol of a bit pair (R104). -/
def gray (p : Nat × Nat) : Nat :=
  match p.1 % 2, p.2 % 2 with
  | 0, 0 => 0 | 0, 1 => 1 | 1, 1 => 2 | _, _ => 3

/-- The precoder from the last level sent (R105). -/
def precode : Nat → List Nat → List Nat
  | _, [] => []
  | y, g :: r => let z := (g + 4 - y % 4) % 4; z :: precode z r

/-- The bit pair of a Gray symbol (R104). -/
def ungray (g : Nat) : Nat × Nat :=
  match g % 4 with
  | 0 => (0, 0) | 1 => (0, 1) | 2 => (1, 1) | _ => (1, 0)

/-- The scrambler after `n` bits (R103). -/
def scramAfter : Nat → Nat → Nat
  | 0, st => st
  | n + 1, st => scramAfter n (scramShift st).1

/-- Bits taken in pairs. -/
def pairUp : List Nat → List (Nat × Nat)
  | a :: b :: r => (a, b) :: pairUp r
  | _ => []

/-- The bytes of bit pairs, four to a byte, first sent first (R102). -/
def bytesOfPairs : List (Nat × Nat) → Bytes
  | a :: b :: c :: d :: r =>
    (2 * a.1 + a.2 + 4 * (2 * b.1 + b.2) + 16 * (2 * c.1 + c.2) + 64 * (2 * d.1 + d.2)) :: bytesOfPairs r
  | _ => []

/-- The receiver's recovery of Gray symbols from levels (R105). -/
def unprecode : Nat → List Nat → List Nat
  | _, [] => []
  | y, z :: r => (z + y) % 4 :: unprecode z r

/-- The longest run of identical levels, with the current level and run so far. -/
def longestRun : Nat → Nat → List Nat → Nat
  | _, n, [] => n
  | y, n, z :: r => if z = y then longestRun y (n + 1) r else max n (longestRun z 1 r)

/-- Identical levels at the end of what was sent, with the level and the run before. -/
def endRun : Nat → Nat → List Nat → Nat
  | _, n, [] => n
  | y, n, z :: r => if z = y then endRun y (n + 1) r else endRun z 1 r

/-- Line levels of bytes on a span lane, from its scrambler and the last level sent (R102 to R105). -/
def laneLevels (st y : Nat) (bs : Bytes) : List Nat :=
  precode y ((pairUp (scramble st (bs.flatMap fun b => (bytePairs b).flatMap fun p => [p.1, p.2]))).map gray)

/-- The bytes a span lane's levels carry, from its receive scrambler and the last level received (R102 to R105). -/
def laneBytes (st y : Nat) (levels : List Nat) : Bytes :=
  bytesOfPairs (pairUp (scramble st ((unprecode y levels).flatMap fun g => [(ungray g).1, (ungray g).2])))

/-- The bytes of span lane `k` of a coded flit at width `w`: byte `i` goes on lane `stripeLane i w` (R102). -/
def stripe (w k : Nat) (coded : Bytes) : Bytes :=
  (coded.zipIdx.filter fun e => stripeLane e.2 w == k).map (·.1)

/-- A coded flit from the bytes of its lanes, in the order of span lanes (R102). -/
def unstripe (n : Nat) (lanes : List Bytes) : Bytes :=
  (List.range n).map fun i => (lanes.getD (stripeLane i lanes.length) []).getD (i / lanes.length) 0

/-- The run guard holds: no run of more than 20 identical levels, with the run that stands before (R106). -/
def guardOk (y n : Nat) (levels : List Nat) : Bool := longestRun y n levels ≤ 20

/-- The alignment word of span lane `l` in line levels (R116). -/
def alignWord (l : Nat) : List Nat :=
  [0, 3, 0, 3, l / 4 % 4, l % 4, l / 4 % 4, l % 4] ++ List.replicate 24 3 ++ List.replicate 24 0
    ++ [3, 0, 3, 0, 3, 0, 3, 0]

/-- A pattern of LANE_TEST over `n` UI (03_lanes, PATTERN). -/
def patternLevels (pat l n : Nat) : List Nat :=
  (List.range n).map fun i =>
    match pat with
    | 0 => 0
    | 1 => 3
    | 2 => if i % 16 < 8 then 3 else 0
    | 3 => if i % 2 = 0 then 3 else 0
    | 4 => i % 4
    | _ => (alignWord l)[i % 64]?.getD 0

/-- One PRBS shift: the taps of PRBS7, PRBS13 and PRBS31 (R121). -/
def prbsShift (mode st : Nat) : Nat :=
  match mode with
  | 1 => (2 * st + (st / 2 ^ 6 + st / 2 ^ 5) % 2) % 2 ^ 7
  | 2 => (2 * st + (st / 2 ^ 12 + st / 2 ^ 11 + st / 2 + st) % 2) % 2 ^ 13
  | _ => (2 * st + (st / 2 ^ 30 + st / 2 ^ 27) % 2) % 2 ^ 31

/-- The span presets S0 to S7: c(-1) and c(+1) (R109). -/
def preset (n : Nat) : Int × Int :=
  match n with
  | 0 => (0, 0) | 1 => (0, -8) | 2 => (0, -16) | 3 => (-4, -8) | 4 => (-4, -16) | 5 => (-8, -8) | 6 => (-8, -16)
  | _ => (-6, -20)

/-- The coefficient limits (R108). -/
def coefOk (cm1 cp1 : Int) : Bool :=
  decide (-12 ≤ cm1) && decide (cm1 ≤ 0) && decide (-24 ≤ cp1) && decide (cp1 ≤ 0) && decide (-cm1 + -cp1 ≤ 32)

/-- The standard's transmitter presets P0 to P10 of an H port or D port: c(-1) and c(+1) in 1/64 of full swing, by the ratios of the
PCI Express Base Specification (R112; PRESUMED, log 82). -/
def stdPreset (n : Nat) : Int × Int :=
  match n with
  | 0 => (0, -16) | 1 => (0, -11) | 2 => (0, -13) | 3 => (0, -8) | 4 => (0, 0) | 5 => (-6, 0) | 6 => (-8, 0) | 7 => (-6, -13)
  | 8 => (-8, -8) | 9 => (-11, 0) | _ => (0, -22)

/-- The standard's range of coefficients at full swing: the pre-cursor at most a quarter of it, and the levels between the cursors
not below a third (R112; PRESUMED, log 82). -/
def stdCoefOk (cm1 cp1 : Int) : Bool :=
  decide (-16 ≤ cm1) && decide (cm1 ≤ 0) && decide (cp1 ≤ 0) && decide (21 ≤ 64 + 2 * cm1 + 2 * cp1)

/-- The main cursor (R108). -/
def mainCursor (cm1 cp1 : Int) : Int := 64 + cm1 + cp1

/-- A reflected CRC-64 bit step (R136). -/
def crc64Bit (r : Nat) : Nat := if r % 2 = 1 then (r / 2) ^^^ 0xC96C5795D7870F42 else r / 2

def crc64Byte (r b : Nat) : Nat :=
  crc64Bit (crc64Bit (crc64Bit (crc64Bit (crc64Bit (crc64Bit (crc64Bit (crc64Bit (r ^^^ (b % 256)))))))))

/-- The CRC-64 of bytes (R136). -/
def crc64 (bs : Bytes) : Nat := (bs.foldl crc64Byte (2 ^ 64 - 1)) ^^^ (2 ^ 64 - 1)

/-- One bit of the CRC-16 of R263, most significant bit first. -/
def crc16Bit (r : Nat) : Nat := if r / 2 ^ 15 % 2 = 1 then (2 * r % 2 ^ 16) ^^^ 0x1021 else 2 * r % 2 ^ 16

def crc16Byte (r b : Nat) : Nat :=
  crc16Bit (crc16Bit (crc16Bit (crc16Bit (crc16Bit (crc16Bit (crc16Bit (crc16Bit (r ^^^ (b % 256 * 256)))))))))

/-- The CRC-16 of bytes (R263). -/
def crc16 (bs : Bytes) : Nat := bs.foldl crc16Byte 0

/-- Multiplication by alpha in GF(2^8) with x^8 + x^4 + x^3 + x^2 + 1 (R137). -/
def gfX (a : Nat) : Nat := if a / 128 % 2 = 1 then (2 * a % 256) ^^^ 0x1D else 2 * a % 256

/-- Multiplication in GF(2^8) (R137), over the low 8 bits of `b`. -/
def gfMulAux : Nat → Nat → Nat → Nat
  | 0, _, _ => 0
  | n + 1, a, b => (if b % 2 = 1 then a else 0) ^^^ gfMulAux n (gfX a) (b / 2)

def gfMul (a b : Nat) : Nat := gfMulAux 8 a b

/-- alpha to a power. -/
def gfPow : Nat → Nat
  | 0 => 1
  | n + 1 => gfX (gfPow n)

/-- A polynomial times (x - r), highest coefficient first. -/
def polyTimes (p : List Nat) (r : Nat) : List Nat :=
  List.zipWith (· ^^^ ·) (p ++ [0]) (0 :: p.map (gfMul r))

/-- The generator polynomial of RS(272,256), highest coefficient first (R137). -/
def rsGen : List Nat := (List.range 16).foldl (fun p i => polyTimes p (gfPow i)) [1]

/-- One byte into the division by the generator: the remainder's coefficients, highest first. -/
def rsStep (gen rem : List Nat) (b : Nat) : List Nat :=
  match rem with
  | [] => []
  | h :: t => let f := h ^^^ (b % 256); List.zipWith (· ^^^ ·) (t ++ [0]) (gen.map (gfMul f))

/-- The 16 parity bytes of a flit's 256 bytes (R137). -/
def rsParity (bs : Bytes) : Bytes := bs.foldl (rsStep rsGen.tail) (List.replicate 16 0)

/-- A syndrome of a coded flit: its polynomial at alpha^i (R137). -/
def rsSyndrome (bs : Bytes) (i : Nat) : Nat := bs.foldl (fun acc b => gfMul acc (gfPow i) ^^^ (b % 256)) 0

/-! ## The RS decoder (R137) -/

/-- Powers of alpha from `a` on. -/
def gfPowsFrom : Nat → Nat → List Nat
  | 0, _ => []
  | n + 1, a => a :: gfPowsFrom n (gfX a)

/-- The inverse in GF(2^8): a to the power 254. -/
def gfInv (a : Nat) : Nat :=
  ((List.range 7).foldl (fun (e : Nat × Nat) _ => let q := gfMul e.1 e.1; (q, gfMul e.2 q)) (a, 1)).2

/-- Sums and products of polynomials, lowest coefficient first. -/
def polyAdd : List Nat → List Nat → List Nat
  | [], b => b
  | a, [] => a
  | x :: a, y :: b => (x ^^^ y) :: polyAdd a b

def polyScale (f : Nat) (p : List Nat) : List Nat := p.map (gfMul f)

def polyMul (p : List Nat) : List Nat → List Nat
  | [] => []
  | x :: r => polyAdd (polyScale x p) (0 :: polyMul p r)

def polyEval (p : List Nat) (x : Nat) : Nat := p.foldr (fun a acc => a ^^^ gfMul acc x) 0

/-- A step of the Berlekamp-Massey search for the error locator: locator, its last copy, degree, distance, last discrepancy. -/
def bmStep (syn : List Nat) (e : List Nat × List Nat × Nat × Nat × Nat) (n : Nat) : List Nat × List Nat × Nat × Nat × Nat :=
  let (c, b, l, m, bb) := e
  let d := (List.range (l + 1)).foldl (fun a i => a ^^^ gfMul (c.getD i 0) (syn.getD (n - i) 0)) 0
  if d = 0 then (c, b, l, m + 1, bb)
  else
    let c' := polyAdd c (List.replicate m 0 ++ polyScale (gfMul d (gfInv bb)) b)
    if 2 * l ≤ n then (c', c, n + 1 - l, 1, d) else (c', b, l, m + 1, bb)

/-- A byte XORed at a place. -/
def xorAt (bs : Bytes) (i v : Nat) : Bytes := bs.modify i (· ^^^ v)

/-- The flits that errors at given powers of alpha explain. Powers 0 to 16 stand for two bytes each, since a flit is longer than
255 bytes. -/
def rsFixes : List (Nat × Nat) → Bytes → List Bytes
  | [], bs => [bs]
  | (e, v) :: r, bs =>
    rsFixes r (xorAt bs (271 - e) v) ++ (if e ≤ 16 then rsFixes r (xorAt bs (16 - e) v) else [])

/-- The decoder of RS(272,256): the number of bytes corrected, at most 8, and the flits they give; none when the flit is
uncorrectable (R137). -/
def rsDecode (bs : Bytes) : Option (Nat × List Bytes) :=
  if rsParity (bs.take 256) == bs.drop 256 then some (0, [bs])
  else
    let syn := (List.range 16).map (rsSyndrome bs)
    let (c, _, l, _, _) := (List.range 16).foldl (bmStep syn) ([1], [1], 0, 1, 1)
    if 8 < l then none
    else
      let pows := gfPowsFrom 255 1
      let inv := fun e => pows[(255 - e) % 255]?.getD 0
      let roots := (List.range 255).filter fun e => polyEval c (inv e) == 0
      if roots.length != l then none
      else
        let om := (polyMul syn c).take 16
        let dc := c.tail.zipIdx.map fun e => if e.2 % 2 = 0 then e.1 else 0
        some (l, rsFixes (roots.map fun e =>
          (e, gfMul (pows[e]?.getD 0) (gfMul (polyEval om (inv e)) (gfInv (polyEval dc (inv e)))))) bs)

/-! ## The flit (R131, R136 to R138) -/

/-- The 272 bytes of a flit with a header and a payload (R131). -/
def codedFlit (h : BitVec 64) (payload : Bytes) : Bytes :=
  let b := le 8 h.toNat ++ (payload ++ List.replicate (240 - payload.length) 0).take 240
  let f := b ++ le 8 (crc64 b)
  f ++ rsParity f

/-- The CRC of a flit's first 256 bytes holds (R136). -/
def flitCrcOk (bs : Bytes) : Bool := crc64 (bs.take 248) == unle (slice bs 248 8)

/-- A coded flit as the receiver finds it (R138 steps 1 and 2). Of the flits that one set of errors explains, it is the one whose
CRC holds (DEDUCED, log 73). -/
def decodeFlit (coded : Bytes) : RxFlit :=
  match rsDecode coded with
  | none => { fec := .uncorrectable, crcOk := false, hdr := 0 }
  | some (n, l) =>
    let bs := (l.find? flitCrcOk).getD (l.headD [])
    { fec := .corrected n, crcOk := flitCrcOk bs, hdr := BitVec.ofNat 64 (unle (bs.take 8)), payload := slice bs 8 240 }

/-! ## The link header (R133) -/

def hType (h : BitVec 64) : Nat := (h.extractLsb' 0 4).toNat
def hSeq (h : BitVec 64) : Nat := (h.extractLsb' 4 12).toNat
def hPhase (h : BitVec 64) : Bool := h.getLsbD 16
def hAckSeq (h : BitVec 64) : Nat := (h.extractLsb' 18 12).toNat
def hAck (h : BitVec 64) : Bool := h.getLsbD 30
def hNak (h : BitVec 64) : Bool := h.getLsbD 31
def hCrValid (h : BitVec 64) : Bool := h.getLsbD 32
def hCrClass (h : BitVec 64) : Cls := clsOf (h.extractLsb' 33 2).toNat
def hCrHdr (h : BitVec 64) : Nat := (h.extractLsb' 35 12).toNat
def hCrData (h : BitVec 64) : Nat := (h.extractLsb' 47 16).toNat

/-- The link header from its fields (R133). -/
def mkHdr (type seq : Nat) (phase : Bool) (ackSeq : Nat) (ack nak crValid : Bool) (crCls : Cls) (crHdr crData : Nat) :
    BitVec 64 :=
  BitVec.ofNat 64 (type % 16 + 2 ^ 4 * (seq % 4096) + 2 ^ 16 * b2n phase + 2 ^ 18 * (ackSeq % 4096) + 2 ^ 30 * b2n ack
    + 2 ^ 31 * b2n nak + 2 ^ 32 * b2n crValid + 2 ^ 33 * clsNum crCls + 2 ^ 35 * (crHdr % 4096)
    + 2 ^ 47 * (crData % 65536))

/-- The 16 bytes of the span message header (R141). -/
def msgHeader (m : Msg) : Bytes :=
  [clsNum m.cls + 16 * (m.kind % 16)] ++ le 3 (m.dpid % 4096 + 4096 * (m.spid % 4096)) ++ le 2 m.dlen ++ [m.ttl % 256]
    ++ [m.service % 8 + 8 * b2n m.mc] ++ le 2 (m.group % 4096) ++ [0, 0, 0, 0, 0, 0]

/-- The AAD of a flit: H[17:0] in 4 bytes (R184). -/
def flitAad (h : BitVec 64) : Bytes := le 4 (h.extractLsb' 0 18).toNat

/-- The GCM nonce of a flit from the salt of its key (R184). -/
def flitNonce (salt n : Nat) : Bytes := le 8 salt ++ le 4 n

/-- The HKDF info of a direction key (R432). -/
def keyInfo (s t incarn n : Nat) : Bytes :=
  [0x6D, 0x65, 0x68, 0x72, 0x65] ++ le 8 s ++ le 8 t ++ le 4 incarn ++ le 2 n

/-! ## The P-384 curve (BUNDLE_KEY_SET) -/

def p384p : Nat := 2 ^ 384 - 2 ^ 128 - 2 ^ 96 + 2 ^ 32 - 1
def p384b : Nat :=
  0xb3312fa7e23ee7e4988e056be3f82d19181d9c6efe8141120314088f5013875ac656398d8a2ed19d2a85c8edd3ec2aef

/-- The point (x, y) lies on P-384 (FIPS 186-5, named by 00_scope): y^2 = x^3 - 3x + b. -/
def onP384 (x y : Nat) : Bool :=
  decide (x < p384p) && decide (y < p384p) && decide (y * y % p384p = (x * x * x + (p384p - 3) * x + p384b) % p384p)

end Sys2Proof.Machine
end

