-- ==== Sys2Proof/Machine/Operands.lean ====
section
/-! DEFINITION. Command packets: status codes, parameter layouts, field checks and clamps (02_command_protocol R56, R57,
R64 to R72, R564, R565). -/

namespace Sys2Proof.Machine

open Sys2Proof

/-! ## Status codes (R73) -/

def stOk : Nat := 0x00
def stSquashed : Nat := 0x02
def stInvalidLength : Nat := 0x10
def stInvalidOpcode : Nat := 0x11
def stInvalidParam : Nat := 0x12
def stOutOfRange : Nat := 0x13
def stTooLarge : Nat := 0x14
def stInvalidState : Nat := 0x20
def stBusy : Nat := 0x21
def stNoResource : Nat := 0x22
def stLocked : Nat := 0x23
def stDenied : Nat := 0x30
def stAuthFail : Nat := 0x31
def stNotApproved : Nat := 0x32
def stStale : Nat := 0x33
def stNotReady : Nat := 0x40
def stAborted : Nat := 0x41
def stBundlePartial : Nat := 0x42

/-- A rejection: STATUS and FIELD. -/
structure Rej where
  status : Nat
  field  : Nat := 0xFFFF
  deriving DecidableEq, Repr

/-- A check that gathers clamp records and may reject (R64 step 5 and 6, R67). -/
abbrev Chk := StateT (List Clamp) (Except Rej)

/-- Reject with a status and no field. -/
def reject {α : Type} (st : Nat) : Chk α := throw { status := st }
/-- Reject naming a field. -/
def rejectAt {α : Type} (st i : Nat) : Chk α := throw { status := st, field := i }
/-- Reject with a status when a condition holds. -/
def rejectIf (b : Bool) (st : Nat) : Chk Unit := if b then reject st else pure ()
/-- Reject naming a field when a condition holds. -/
def rejectIfAt (b : Bool) (st i : Nat) : Chk Unit := if b then rejectAt st i else pure ()

/-- The parameters of a command in check: the P bytes of R57 and whether NO_CLAMP is in force. -/
structure Params where
  bytes   : Bytes
  noClamp : Bool := false
  deriving DecidableEq, Repr

/-- The value of a field, none when it lies wholly beyond P (R57). -/
def raw (c : Params) (off w : Nat) : Option Nat :=
  if off < c.bytes.length then some (unle (slice c.bytes off w)) else none

/-- An identifying field: its value or its default, rejected with INVALID_PARAM out of range (R64, R65, R57). -/
def idF (c : Params) (i off w : Nat) (dflt : Option Nat) (ok : Nat → Bool) : Chk Nat :=
  match raw c off w with
  | some v => if ok v then pure v else rejectAt stInvalidParam i
  | none =>
    match dflt with
    | some v => if ok v then pure v else rejectAt stInvalidParam i
    | none => rejectAt stInvalidParam i

/-- One clamp record per field, with the value finally applied (R67). -/
def recordClamp (i req app : Nat) (l : List Clamp) : List Clamp :=
  if l.any (·.field == i) then l.map fun k => if k.field = i then { k with applied := app } else k
  else l ++ [{ field := i, requested := req, applied := app }]

/-- A value a check has clamped: recorded, or rejected under NO_CLAMP (R66). -/
def clamped (c : Params) (i req app : Nat) : Chk Nat :=
  if req = app then pure app
  else if c.noClamp then rejectAt stOutOfRange i
  else do
    modify (recordClamp i req app)
    pure app

/-- A configuration field with the value applied to each value requested (R66). -/
def cfgF (c : Params) (i off w dflt : Nat) (app : Nat → Nat) : Chk Nat :=
  let v := (raw c off w).getD dflt
  clamped c i v (app v)

/-- The nearer bound of a range (R66). -/
def nearer (lo hi v : Nat) : Nat := if v < lo then lo else if v > hi then hi else v

/-- A configuration field clamped to the nearer bound. -/
def rangeF (c : Params) (i off w dflt lo hi : Nat) : Chk Nat := cfgF c i off w dflt (nearer lo hi)

/-- A configuration field with one applied value for every value out of range. -/
def elseF (c : Params) (i off w dflt : Nat) (ok : Nat → Bool) (app : Nat) : Chk Nat :=
  cfgF c i off w dflt fun v => if ok v then v else app

/-- A configuration field without default, clamped to the nearer bound: wholly beyond P it is rejected (R57). -/
def rangeNoneF (c : Params) (i off w lo hi : Nat) : Chk Nat :=
  match raw c off w with
  | some v => clamped c i v (nearer lo hi v)
  | none => rejectAt stInvalidParam i

/-- A field every value of which is legal. -/
def anyF (c : Params) (off w dflt : Nat) : Chk Nat := pure ((raw c off w).getD dflt)

/-! ## Layouts -/

/-- A counted list at the end of a parameter block: its offset, bytes per entry, the offset and width of the count, and
the byte that must hold a value for the list to be there. -/
structure ListSpec where
  off   : Nat
  size  : Nat
  cOff  : Nat
  cW    : Nat
  cond  : Option (Nat × Nat) := none
  deriving DecidableEq, Repr

/-- A parameter block: fields by offset and width, its end, and its list (R564, R565). -/
structure Layout where
  flds : List (Nat × Nat) := []
  fin  : Nat := 0
  list : Option ListSpec := none
  deriving DecidableEq, Repr

/-- The general part of R57: P ends at the end of the block or before, and inside no field. -/
def endsWell (flds : List (Nat × Nat)) (fin p : Nat) : Bool :=
  p ≤ fin && flds.all fun f => !(f.1 < p && p < f.1 + f.2)

/-- R57: the parameter length suits the layout. A list of no entries adds nothing to the block (DEDUCED, log 8). -/
def lengthOk (l : Layout) (bs : Bytes) : Bool :=
  match l.list with
  | none => endsWell l.flds l.fin bs.length
  | some k =>
    if (match k.cond with | some (o, v) => (raw { bytes := bs } o 1).getD 0 != v | none => false) then
      endsWell l.flds k.off bs.length
    else
    match raw { bytes := bs } k.cOff k.cW with
    | none => endsWell l.flds k.off bs.length
    | some 0 => endsWell l.flds k.off bs.length
    | some n => decide (bs.length = k.off + n * k.size)

/-- A body's result: done with a status and result data, or an operation that replies later (with the result data a
CHECK_ONLY reply gives). -/
inductive Ans where
  | done (status : Nat) (data : Bytes)
  | later (kind : OpKind) (data : Bytes)
  deriving DecidableEq, Repr

/-- What a command does once steps 1 to 4 of R64 have passed: its checks of fields and state, and its effect. -/
abbrev Body := Params → Cmd → State → Chk (State × Ans)

/-- Reply OK with result data. -/
def okWith (s : State) (data : Bytes) : Chk (State × Ans) := pure (s, .done 0 data)

/-- Scope of a command of a PF0 that is not the managing one (R54, R566). -/
inductive Scope where
  | always
  | never
  | port
  | portStatus
  | bufferSet
  | bay
  | qpn
  | handle
  | counters
  deriving DecidableEq, Repr

/-- An opcode: its code, its P column (0 not privileged, 1 CO, 2 CO/U), scope, layout and body. -/
structure OpSpec where
  code   : Nat
  priv   : Nat := 0
  scope  : Scope := .never
  layout : Layout := {}
  body   : Body

end Sys2Proof.Machine
end

