-- ==== Sys2Proof/Machine/Commands.lean ====
section
/-! DEFINITION. The command engine: length, session, role, scope, availability, the run of a body, and the reply
(02_command_protocol R51 to R74, R566; 11_security R415, R416; 12_atrium R475). -/

namespace Sys2Proof.Machine

open Sys2Proof

/-! ## Sessions (R416) -/

/-- The session of an ID. -/
def findSession (s : State) (id : Nat) : Option Session := s.sec.sessions.find? fun x => x.id == id

/-- A PF0's command ring and its MCTP over PCIe VDM are one endpoint (R416). -/
def sameEndpoint : Origin → Origin → Bool
  | .ring p, .vdm q => p == q
  | .vdm p, .ring q => p == q
  | a, b => a == b

/-- The established session a command names, when it is valid on the command's path (R416). -/
def sessionOn (s : State) (o : Origin) (id : Nat) : Option Session :=
  match findSession s id with
  | some x =>
    match x.origin with
    | some e => if x.done && sameEndpoint e o then some x else none
    | none => none
  | none => none

/-- Bedrock's count of verified commands of a session advances (R59). -/
def countCommand (id : Nat) (s : State) : State :=
  setSec (fun x => { x with sessions := x.sessions.map fun y => if y.id = id then { y with cmds := y.cmds + 1 } else y }) s

/-- A session whose SESSION_END has been answered is closed, its keys with it (R89 SESSION_END). -/
def closeEnded (s : State) : State := endSessions (·.ending) s

/-! ## Step 1 of R64: length -/

/-- P of R57. -/
def paramLen (c : Cmd) : Nat := c.plen - (if c.session = 0 then 0 else 16)

/-- The PLEN bytes after the header; bytes a short list does not give read 0. -/
def carried (c : Cmd) : Bytes := fit c.plen c.params

/-- The 16-byte header of a packet (02, Packet format). -/
def packetHeader (code : Nat) (c : Cmd) : Bytes :=
  le 2 code ++ le 2 c.tag ++ le 2 c.plen ++ le 2 c.flags ++ le 4 c.session ++ le 4 c.rsv

/-- The P parameter bytes in plaintext: Bedrock decrypts those of a session, whose header is additional data; none when the
tag fails (R59, R60). -/
def openParams (s : State) (code : Nat) (c : Cmd) : Option Bytes :=
  if c.session = 0 then some (carried c)
  else
    match findSession s c.session with
    | some x =>
      Crypto.gcmOpen (appKey x.reqSecret) (appNonce x.reqSecret x.cmds) (packetHeader code c)
        ((carried c).take (paramLen c)) ((carried c).drop (paramLen c))
    | none => none

/-- The tag of R59 verifies, or the command carries none. -/
def tagOk (s : State) (code : Nat) (c : Cmd) : Bool := (openParams s code c).isSome

/-- The parameters a command's checks read. -/
def paramBytes (s : State) (code : Nat) (c : Cmd) : Bytes := (openParams s code c).getD []

/-- R56, and the session part of R57. On a ring the carrier length is 16 + PLEN itself. -/
def carrierOk (c : Cmd) : Bool :=
  decide (c.plen ≤ 4080)
    && (match c.origin with
        | .ring _ => true
        | _ => c.carrier == 16 + c.plen)
    && (c.session == 0 || decide (16 ≤ c.plen))

/-- The checks of R57 that need no field value: the end of P against the fields before a list. -/
def plainLengthOk (l : Layout) (p : Nat) : Bool :=
  match l.list with
  | none => endsWell l.flds l.fin p
  | some k => decide (k.off ≤ p) || endsWell l.flds k.off p

/-! ## Step 3 of R64: role and scope -/

/-- R61, R62 with the roles of R415: may this command issue an opcode of this P column? -/
def roleOk (priv : Nat) (o : Origin) (x : Option Session) : Bool :=
  match o with
  | .bay b => priv == 2 && (match x with | some y => y.role == .user b | none => false)
  | _ =>
    match x with
    | none => priv == 0
    | some y =>
      match y.role with
      | .officer => true
      | .link _ => false
      | _ => priv == 0

/-- The PF0 of an H port that is not the managing one (R54). -/
def limitedPf0 (s : State) : Origin → Option Nat
  | .ring p => if s.boot.mgr == some p then none else some p
  | .vdm p => if s.boot.mgr == some p then none else some p
  | _ => none

/-- A region handle: entry index, hall, generation (R368). -/
def handleParts (h : Nat) : Nat × Nat × Nat := (h % 2 ^ 14, h / 2 ^ 14 % 8, h / 2 ^ 17 % 2 ^ 15)

/-- The region of a current handle (R368). -/
def findRegion (s : State) (h : Nat) : Option Region :=
  let (i, hall, gen) := handleParts h
  match tget (getHall s hall).mrs i with
  | some r => if r.gen = gen && h < 2 ^ 32 then some r else none
  | none => none

/-- A field outside the scope: its value is given and fails. -/
def outside (c : Params) (off w : Nat) (ok : Nat → Bool) : Bool :=
  match raw c off w with
  | some v => !ok v
  | none => false

/-- R54, R566: the FIELD that places a command of PF0 of H port `p` outside its scope. DESIGN CHOICE (log 88): a
    PORT_STATUS with COUNT 0 reaches no other port and is taken as in scope. -/
def scopeField (s : State) (p : Nat) (sc : Scope) (c : Params) : Option Nat :=
  let own := fun (b : Nat) => bayPort s b == some p
  match sc with
  | .always => none
  | .never => some 0xFFFF
  | .port => if outside c 0 2 (· == p) then some 0 else none
  | .portStatus =>
    if outside c 0 2 (· == p) then some 0 else if outside c 2 2 (· ≤ 1) then some 1 else none
  | .bufferSet =>
    let h := getHall s (hallOf p)
    if outside c 0 2 (· == p) then some 0
    else if outside c 10 1 (· == h.alpha) then some 5
    else if outside c 12 2 (· == h.mcRsv) then some 6
    else if outside c 14 2 (· == h.poolRsv) then some 7 else none
  | .bay => if outside c 0 2 own then some 0 else none
  | .qpn =>
    if outside c 0 4 (fun q => match tget s.qps q with | some x => own x.bay | none => false) then some 0 else none
  | .handle =>
    if outside c 0 4 (fun h => match findRegion s h with | some r => own r.bay | none => false) then some 0 else none
  | .counters =>
    if outside c 0 1 (· == 2) then some 0 else if outside c 2 2 (· == p) then some 2 else none

/-! ## The checks before a body -/

/-- Mezzanine answers: it runs and is not halted by debug (R45, R442). -/
def mezzRuns (s : State) : Bool := s.boot.mezz == .running && !s.sec.halted

/-- The commands Basalt answers (R475). -/
def basaltCode (code : Nat) : Bool := code == 0x0101 || code == 0x0802 || code == 0x0803 || code == 0x0904

/-- PORT_DOWN, BAY_REMOVE and ZEROIZE, which receive BUSY under R58 alone (R75). -/
def preempts (code : Nat) : Bool := code == 0x0204 || code == 0x0604 || code == 0x0709

/-- R58, and the limit of eight outstanding of the command paths, which does not touch the commands of R75: the command is
turned away with BUSY. -/
def tagBusy (s : State) (code : Nat) (c : Cmd) : Bool :=
  let l := s.ops.filter fun o => o.reply.origin == c.origin && !o.quiet
  l.any (·.reply.tag == c.tag)
    || (match c.origin with
        | .ring _ => false
        | _ => decide (8 ≤ l.length) && !preempts code)

/-- Steps 1 to 3 of R64 up to the tag of R59. -/
def preTag (sp : OpSpec) (c : Cmd) (s : State) : Except Rej Unit :=
  if !carrierOk c || !plainLengthOk sp.layout (paramLen c) then throw { status := stInvalidLength }
  else if c.session = 0 then pure ()
  else if (sessionOn s c.origin c.session).isNone then throw { status := stDenied }
  else if !tagOk s sp.code c then throw { status := stAuthFail }
  else pure ()

/-- Steps 1 to 4 of R64 after the tag, on the parameters in plaintext: lengths that need a value, role, scope, Mezzanine. -/
def postTag (sp : OpSpec) (c : Cmd) (bs : Bytes) (s : State) : Except Rej Params :=
  let p : Params := { bytes := bs, noClamp := bit c.flags 1 }
  if !lengthOk sp.layout p.bytes then throw { status := stInvalidLength }
  else if !roleOk sp.priv c.origin (if c.session = 0 then none else sessionOn s c.origin c.session) then
    throw { status := stDenied }
  else
    match (limitedPf0 s c.origin).bind fun q => scopeField s q sp.scope p with
    | some f => throw { status := stDenied, field := f }
    | none =>
      if sp.priv = 0 && !mezzRuns s && !s.boot.basalt then throw { status := stNotReady }
      else pure p

/-- The reply a command starts from: header fields echoed (02, Replies). -/
def baseReply (code : Nat) (c : Cmd) (enc : Bool) : Reply :=
  { origin := c.origin, opcode := code, tag := c.tag, status := 0, session := c.session, enc := enc }

/-- A rejection leaves nothing applied and answers (R64, R67). -/
def rejected (r : Reply) (e : Rej) (s : State) : State := sendReply { r with status := e.status, field := e.field } s

/-! ## Objects of commands, and what a running bundle or SELFTEST keeps busy (R75, R79, R436) -/

/-- What a command acts on: an object of a kind, by its number; `all` is every object of every kind. -/
inductive Obj where
  | all
  | port (n : Nat)
  | bay (n : Nat)
  | qp (n : Nat)
  | region (n : Nat)
  | group (n : Nat)
  | mcast (n : Nat)
  | mpu (n : Nat)
  | source (n : Nat)
  | channel (n : Nat)
  | stream (n : Nat)
  | qcls (n : Nat)
  | fdid | routes | tree | windows | locks | record | ring | stairwell | staging
  deriving DecidableEq, Repr

/-- The objects a command changes; a query changes none (R74). -/
def objects (code : Nat) (bs : Bytes) : List Obj :=
  let w := fun o => unle (slice bs o 2)
  let b := fun o => unle (slice bs o 1)
  if code = 0x0201 then [.all]
  else if code = 0x0206 then []
  else if code = 0x020B then [.port (w 0), .port (w 2)]
  else if 0x0202 ≤ code && decide (code ≤ 0x020E) then [.port (w 0)]
  else if code = 0x0301 || code == 0x0306 || code == 0x0308 then [.port (w 0)]
  else if 0x0401 ≤ code && decide (code ≤ 0x0406) then [.port (w 0)]
  else if code = 0x0706 || code == 0x0707 then [.port (w 0)]
  else if code = 0x0102 then [.fdid]
  else if 0x0104 ≤ code && decide (code ≤ 0x0105) then [.staging]
  else if code = 0x0302 then [.routes]
  else if code = 0x0303 || code == 0x0304 then [.group (b 0)]
  else if code = 0x0305 then [.mcast (w 0)]
  else if code = 0x0307 then [.tree]
  else if code = 0x0501 || code == 0x0502 || code == 0x0506 then [.bay (w 0)]
  else if code = 0x0503 || code == 0x0504 then [.qp (unle (slice bs 0 4))]
  else if code = 0x0507 then [.region (unle (slice bs 0 4))]
  else if code = 0x0508 then [.qcls (b 0)]
  else if code = 0x0601 then [.port (w 0)]
  else if 0x0602 ≤ code && decide (code ≤ 0x0604) then [.bay (w 0)]
  else if code = 0x0702 || code == 0x0705 then [.mpu (w 0)]
  else if code = 0x0704 then (if w 0 = 0xFFFF || bs.isEmpty then [.all] else [.mpu (w 0)])
  else if code = 0x0703 then [.windows]
  else if code = 0x0708 then [.locks]
  else if code = 0x0709 then (if b 0 = 0 then [.all] else [.port (w 2)])
  else if code = 0x0801 then [.source (w 0)]
  else if code = 0x0802 || code == 0x0803 then [.record]
  else if code = 0x0804 then [.ring]
  else if code = 0x0901 || code == 0x0902 || code == 0x0903 || code == 0x0906 then [.channel (b 0)]
  else if code = 0x0905 then [.stairwell]
  else if code = 0x0A03 then [.stream (b 0)]
  else []

/-- Two lists of objects meet. -/
def meet (a b : List Obj) : Bool :=
  (a.contains .all && !b.isEmpty) || (b.contains .all && !a.isEmpty) || a.any b.contains

/-- The objects of the bundle being applied, the staging store among them (R79). -/
def bundleObjects (r : BundleRun) : List Obj := .staging :: r.pkts.flatMap fun k => objects (unle (slice k 0 2)) (k.drop 16)

/-- A running bundle keeps its objects, and a running SELFTEST every privileged opcode, from other commands but those of R75;
a query of an object is answered (R74, R79, R436). -/
def engineBusy (sp : OpSpec) (p : Params) (s : State) : Bool :=
  (match s.bundle with | some r => meet (objects sp.code p.bytes) (bundleObjects r) && !preempts sp.code | none => false)
    || (s.sec.testing.isSome && sp.priv != 0 && sp.code != 0x0709)

/-- An activation ends before its last command: the commands applied stay applied and BSEQ is recorded (R79). -/
def endBundle (status : Nat) (data : Bytes) (s : State) : State :=
  match s.bundle with
  | some r =>
    endOp .bundle status data (setNv (fun v => { v with bseq := r.seq, bundleHash := Crypto.ofBE (Crypto.sha384 s.stage.bytes) })
      { s with bundle := none })
  | none => s

/-- PORT_DOWN, BAY_REMOVE and ZEROIZE end the activation that applies commands to their object (R75, R79), with what it had
applied as its result. -/
def preemptBundle (code : Nat) (bs : Bytes) (s : State) : State :=
  match s.bundle with
  | some r =>
    if preempts code && meet (objects code bs) (bundleObjects r) then
      endBundle stAborted (le 4 r.next ++ le 4 0xFFFFFFFF ++ List.replicate 16 0) s
    else s
  | none => s

/-- A ZEROIZE ends a SELFTEST that runs: the tests already passed stand (R436). -/
def preemptTest (code : Nat) (s : State) : State :=
  if code = 0x0709 && s.sec.testing.isSome then
    abortOp .selftest (setSec (fun x => { x with testing := none }) s)
  else s

/-- PORT_DOWN, BAY_REMOVE and ZEROIZE act at once (R75). -/
def preempt (code : Nat) (bs : Bytes) (s : State) : State := preemptTest code (preemptBundle code bs s)

/-- Bedrock's runs end with the device's or its memory's state: the activation records what it applied, the test is gone. -/
def endRuns (s : State) : State :=
  let s := match s.bundle with
    | some r => endBundle stAborted (le 4 r.next ++ le 4 0xFFFFFFFF ++ List.replicate 16 0) s
    | none => s
  setSec (fun x => { x with testing := none }) s

/-- A rejection of step 6 of R64, or the DENIED that R87 gives in step 5. -/
def stepSix (e : Rej) : Bool := decide (0x20 ≤ e.status) && e.status != stDenied

/-- Step 5 on: the body, CHECK_ONLY, and the reply or the operation that replies later (R66 to R68, R73, R74). BUSY of a
running bundle or SELFTEST stands at the head of step 6 (DEDUCED, log 66). -/
def commit (sp : OpSpec) (c : Cmd) (p : Params) (r : Reply) (s : State) : State :=
  let u := if bit c.flags 0 then s else preempt sp.code p.bytes s
  match (sp.body p c u).run [] with
  | .error e => rejected r (if engineBusy sp p s && stepSix e then { status := stBusy } else e) s
  | .ok ((t, a), clamps) =>
    if engineBusy sp p s then rejected r { status := stBusy } s else
    let only := bit c.flags 0
    match a with
    | .done st data =>
      let st := if st = 0 then okStatus clamps false else st
      sendReply { r with status := st, clamps := if st < 0x10 then clamps else [], data := data }
        (if only then { s with freeN := t.freeN } else t)
    | .later k data =>
      if only then sendReply { r with status := okStatus clamps false, clamps := clamps, data := data } s
      else { t with ops := t.ops ++ [{ reply := { r with clamps := clamps, data := data }, kind := k }] }

/-- A SPAN_REKEY of a span in M1280 mode, whose keys KX1 derived (R433). -/
def rekeysCompat (code : Nat) (bs : Bytes) (s : State) : Bool :=
  code == 0x0707 && (match getPort s (unle (bs.take 2)) with | some q => q.span.compat | none => false)

/-- The command, or every command of the bundle it activates, used approved services only: no other command reaches a
function that is not approved (R437). -/
def approvedUse (code : Nat) (bs : Bytes) (s : State) : Bool :=
  !rekeysCompat code bs s
    && !(code == 0x0105 && (match s.stage.verified with
         | some (_, l) => l.any fun p => rekeysCompat (unle (p.take 2)) (p.drop 16) s
         | none => false))

/-- What APPROVED_GET is to report of the session's last command (R437). -/
def noteApproved (id : Nat) (ok : Bool) (s : State) : State :=
  setSec (fun x => { x with sessions := x.sessions.map fun y => if y.id = id then { y with lastApproved := ok } else y }) s

/-- A command whose slot or message is in the engine (R64). -/
def runCommand (sp : OpSpec) (c : Cmd) (s : State) : State :=
  if tagBusy s sp.code c then rejected (baseReply sp.code c false) { status := stBusy } s
  else if s.boot.basalt && !basaltCode sp.code then rejected (baseReply sp.code c false) { status := stNotReady } s
  else
    match preTag sp c s with
    | .error e => rejected (baseReply sp.code c false) e s
    | .ok () =>
      let bs := paramBytes s sp.code c
      let s := if c.session = 0 then s else countCommand c.session s
      let r := baseReply sp.code c (c.session != 0)
      match postTag sp c bs s with
      | .error e => rejected r e (noteApproved c.session true s)
      | .ok p => closeEnded (noteApproved c.session (approvedUse sp.code p.bytes s) (commit sp c p r s))

/-- An opcode outside the table, after the length checks that need no layout (R64 steps 1 and 2). -/
def runUnknown (code : Nat) (c : Cmd) (s : State) : State :=
  let r := baseReply code c false
  if tagBusy s code c then rejected r { status := stBusy } s
  else if s.boot.basalt then rejected r { status := stNotReady } s
  else if !carrierOk c then rejected r { status := stInvalidLength } s
  else rejected r { status := stInvalidOpcode } s

/-! ## Paths -/

/-- Occupancy of a ring (R51). -/
def ringOcc (prod cons : Nat) : Nat := (prod + 65536 - cons) % 65536

/-- The command engine may read the next slot of a ring: PF0 may issue requests, the ring is enabled, a command is there
and a reply slot free (R52, R222, R549). -/
def slotReady (s : State) (p : Nat) : Bool :=
  match getPort s p with
  | some q =>
    let r := q.std.rings
    isType s .h p && q.st == .up && q.std.bme && r.enable && r.cmdProd != r.cmdCons
      && decide (ringOcc r.rplProd r.rplCons + r.resv < 2 ^ ringLog r)
  | none => false

/-- A slot is read and its reply slot reserved (R52). -/
def takeSlot (p : Nat) (s : State) : State :=
  setStd p (fun d => { d with rings := { d.rings with cmdCons := (d.rings.cmdCons + 1) % 65536, resv := d.rings.resv + 1 } }) s

/-- A path's place in the rotation of R55: the rings in ascending H-port order, then VDM, then I3C. -/
def pathNo : Origin → Nat
  | .ring p => p
  | .vdm _ => 512
  | .bay _ => 512
  | .i3c => 513

/-- How far a place of the rotation lies behind the path served last. -/
def rotDist (s : State) (n : Nat) : Nat := (n + 513 - s.rot) % 514

/-- No ring on which a command waits comes before the path in the rotation (R55). What waits on MCTP is not state: a message's
row is its acceptance (DESIGN CHOICE, log 6). -/
def turn (s : State) (o : Origin) : Bool :=
  (hPorts s).all fun p => p == pathNo o || !slotReady s p || decide (rotDist s (pathNo o) ≤ rotDist s p)

/-- Does a command path carry a packet now? Bedrock answers from R522 on; Basalt leaves I3C only, without firmware
(R475, R567). -/
def pathOpen (s : State) (o : Origin) : Bool :=
  !s.boot.por && (s.boot.bedrock || s.boot.basalt) && turn s o
    && (match o with
        | .i3c => true
        | .ring p => !s.boot.basalt && slotReady s p
        | .vdm p => !s.boot.basalt && isType s .h p && portSt s p == some .up
        | .bay b => !s.boot.basalt && (match bayPort s b with | some p => portSt s p == some .up | none => false))

/-- The command engine accepts one command per CLK_M cycle (R55): the clock moves to the first cycle in which it has
accepted none, and the rotation stands at the path served. -/
def accept (o : Origin) (s : State) : State :=
  let s := match s.lastCmd with | some m => clockTo (4 * (m + 1)) s | none => s
  { s with lastCmd := some (s.dc / 4), rot := pathNo o }

/-- A packet taken from its path: on a ring its slot is read (R52, R55). -/
def intake (o : Origin) (s : State) : State :=
  match o with
  | .ring p => takeSlot p (accept o s)
  | _ => accept o s

/-- A command row: a packet of the row's opcode arrives on its path (log 6). -/
def command (sp : OpSpec) (c : Cmd) (s : State) : Host.Outcome State Fault Refusal :=
  .next (if pathOpen s c.origin then runCommand sp c (intake c.origin s) else s)

/-! ## Checks shared by the bodies -/

/-- A port number in use, of any type (R32). -/
def portF (s : State) (c : Params) (i off : Nat) : Chk Nat := idF c i off 2 none (fun p => inUse s p)
/-- A port number in use and of a type. -/
def typedPortF (s : State) (t : PortType) (c : Params) (i off : Nat) : Chk Nat := idF c i off 2 none (fun p => isType s t p)
/-- An existing bay. -/
def bayF (s : State) (c : Params) : Chk (Nat × Bay) := do
  let b ← idF c 0 0 2 none fun b => (tget s.bays b).isSome
  match tget s.bays b with
  | some y => pure (b, y)
  | none => rejectAt stInvalidParam 0

/-- The port of a checked number. -/
def thePort (s : State) (p : Nat) : Chk Port :=
  match getPort s p with
  | some q => pure q
  | none => reject stInvalidParam

/-- An operation of R74 in progress on an object makes a command that changes it BUSY. -/
def busyIf (s : State) (f : OpKind → Bool) : Chk Unit := rejectIf (s.ops.any fun o => f o.kind) stBusy

/-- The layout of a block whose only field is a 2-byte number at 0. -/
def layoutPort : Layout := { flds := [(0, 2)], fin := 4 }

end Sys2Proof.Machine
end

