-- ==== Sys2Proof/Machine/QpCore.lean ====
section
/-! DEFINITION. A QP on its own: packets of a message, completions in order, entry into ERROR and RESET, the window
(09_gallery_engines R347 to R352, R376 to R383). -/

namespace Sys2Proof.Machine

open Sys2Proof

/-- Bytes of an MTU code (QP_MODIFY table). -/
def mtuBytes (code : Nat) : Nat := 256 * 2 ^ min code 4

/-- Packets of a message of `l` bytes (R377, R384). -/
def packetCount (l code : Nat) : Nat := max 1 (ceilDiv l (mtuBytes code))

/-- Payload bytes of packet `i` of a message of `l` bytes. -/
def packetLen (l code i : Nat) : Nat := min (mtuBytes code) (l - i * mtuBytes code)

/-- A completion entry of a send-side work request (R347): SEQ 0 for a datagram. -/
def sendCqe (w : Wr) (st : Nat) : Cqe :=
  { wrId := w.wqe.wrId, bytes := w.wqe.length, seq := if w.wqe.op = 4 then 0 else w.msn, status := st, kind := 0 }

/-- The done work requests at the head of the SQ order give their completions, those without SIGNAL only when not OK
(R348). -/
def drainWrs : List Wr → List Cqe × List Wr
  | [] => ([], [])
  | w :: r =>
    match w.done with
    | some st =>
      let (c, l) := drainWrs r
      (if w.wqe.signal || st != 0 then (sendCqe w st :: c, l) else (c, l))
    | none => ([], w :: r)

/-- Completions of done work requests are held in SQ order (R348, R349). -/
def finishWrs (q : Qp) : Qp :=
  let (c, l) := drainWrs q.wrs
  { q with wrs := l, held := q.held ++ c }

/-- A work request with an index above acknowledged: the lowest index not acknowledged moves past every one that is. -/
def advanceBase : Nat → Nat → List Nat → Nat × List Nat
  | 0, b, l => (b, l)
  | n + 1, b, l => if l.contains b then advanceBase n (b + 1) (l.erase b) else (b, l)

/-- An index joins a base and its bitmap (R378, R380). -/
def markIndex (b : Nat) (l : List Nat) (i : Nat) : Nat × List Nat := advanceBase 513 b (i :: l)

/-- A packet of a work request is acknowledged, with the READ bytes it brought; done when all are (R383). -/
def ackWr (code i bytes : Nat) (w : Wr) : Wr :=
  let (b, l) := markIndex w.base w.bits i
  let w := { w with base := b, bits := l, bytes := w.bytes + bytes }
  let full := if w.wqe.op = 2 then decide (w.wqe.length ≤ w.bytes) && decide (1 ≤ b) || decide (packetCount w.wqe.length code ≤ b)
              else decide (packetCount w.wqe.length code ≤ b)
  if full && w.done.isNone then { w with done := some 0 } else w

/-- The first datagram of a list toward a QP is complete: it has left its engine (R383). -/
def datagramWrs (pid qpn : Nat) : List Wr → List Wr
  | [] => []
  | w :: r =>
    if w.done.isNone && w.sent != 0 && w.wqe.destPid % 4096 == pid && w.wqe.destQpn % 2 ^ 20 == qpn then
      { w with done := some 0 } :: r
    else w :: datagramWrs pid qpn r

/-- The flush completion of an RQ entry (R352). -/
def flushRqe (dgram : Bool) (n : Nat) (w : Wqe) : Cqe :=
  { wrId := w.wrId, seq := if dgram then 0 else n, status := 7, kind := 1 }

/-- A QP enters ERROR (R352): what it holds is released; the entry of message `cause` completes with `st`, every other
unfinished entry with FLUSHED. -/
def errorQp (cause : Option Nat) (st : Nat) (q : Qp) : Qp :=
  let wrs := q.wrs.map fun w =>
    if w.done.isSome then w else { w with done := some (if some w.msn == cause then st else 7) }
  let q := finishWrs { q with wrs := wrs }
  { q with st := .error, outst := [], recs := [], reads := [], stall := none, rqes := [],
           held := q.held ++ q.rqes.map fun e => flushRqe (q.dgram == some true) e.1 e.2 }

/-- A QP enters RESET (R351, R353, R390). -/
def resetQp (q : Qp) : Qp :=
  { q with st := .reset, dgram := none, cfg := {}, w := 0, armed := none, sqCons := 0, rqCons := 0, crProd := 0,
           crCons := 0, nextMsn := 0, nextSsn := 0, next := 0, nextRcv := 0, wrs := [], outst := [], recs := [], rqes := [],
           reads := [], dbPend := false, held := [], msiSent := false, stall := none }

/-- The window after an acknowledgement without a mark (R376), with W kept in 256ths. -/
def windowUp (step wmax w : Nat) : Nat := min (256 * wmax) (w + step * 65536 / max 1 w)

/-- The window after a decrease (R376). -/
def windowDown (dec w : Nat) : Nat := max 256 (w - w / max 1 dec)

/-- A decrease unless one is armed; it arms at the number of first sends so far (R376). -/
def decreaseQp (dec : Nat) (q : Qp) : Qp :=
  if q.armed.isSome then q else { q with w := windowDown dec q.w, armed := some q.sent }

/-- The window update of an acknowledgement of the packet first sent as number `no` (R376). -/
def ackWindow (cls : Nat × Nat) (marked : Bool) (no : Nat) (q : Qp) : Qp :=
  let q := match q.armed with
    | some n => if n ≤ no then { q with armed := none } else q
    | none => q
  if marked then decreaseQp cls.2 q else { q with w := windowUp cls.1 q.wmax q.w }

/-- The CR holds no free entry (R349). -/
def crFull (q : Qp) : Bool := decide (2 ^ q.cfg.crLog ≤ (q.crProd + 4096 - q.crCons) % 4096)

/-- The PHASE of entry number `n` of a ring of 2^log entries (R344). -/
def passPhase (n log : Nat) : Bool := n / 2 ^ log % 2 == 0

/-- The 32 bytes of a completion entry (R347). -/
def cqeBytes (c : Cqe) (phase : Bool) : Bytes :=
  le 8 c.wrId ++ le 4 c.bytes ++ le 3 c.seq ++ [c.status] ++ [c.kind, 0] ++ le 2 c.srcPid ++ le 4 c.srcQpn
    ++ [0, 0, 0, 0, 0, 0, 0, 128 * b2n phase]

/-- A work request from its 64 bytes (R344). -/
def wqeOf (b : Bytes) : Wqe :=
  let f := fun o w => unle (slice b o w)
  { op := f 0 1, signal := bit (f 1 1) 0, fence := bit (f 1 1) 1, phase := bit (f 1 1) 7, length := f 4 4,
    localAddr := f 8 8, localMr := f 16 4, remoteMr := f 20 4, remoteOff := f 24 6, destPid := f 32 2 % 4096,
    destQpn := f 36 4 % 2 ^ 20, wrId := f 40 8 }

end Sys2Proof.Machine
end

