-- ==== Sys2Proof/Machine/Buffer.lean ====
section
/-! DEFINITION. The cell buffer and the leaf queues: accounts, admission, release of cells and credits (R239 to R249,
R568), leaves and descriptors (R284 to R287, R253). -/

namespace Sys2Proof.Machine

open Sys2Proof

/-- Cells a message occupies (R239). -/
def cellsOf (m : Msg) : Nat := ceilDiv (16 + m.dlen) 256

/-- Data credits a message takes on a span (R145). -/
def dataCredits (m : Msg) : Nat := ceilDiv m.dlen 32

/-- The class minimums of a hall's ports added up. -/
def hallMins (s : State) (h : Nat) : Nat :=
  (s.ports.filter fun e => hallOf e.1 == h).foldl (fun n e => n + csum e.2.mins) 0

/-- The class minimums of a hall's ports as they act: cells in use beyond a lowered minimum stay there until they are freed
(R243). -/
def hallMinsNow (s : State) (h : Nat) : Nat :=
  (s.ports.filter fun e => hallOf e.1 == h).foldl (fun n e =>
    n + (allCls.foldl (fun k c => k + max (cget e.2.mins c) (cget e.2.minUse c)) 0)) 0

/-- The size of a hall's shared pool (06, Buffer accounting); cells in use beyond a lowered reserve stay there until they are
freed (R243). -/
def poolSize (s : State) (h : Nat) : Nat :=
  let x := getHall s h
  49152 - 2048 - max x.mcRsv x.mcUse - max x.poolRsv x.prUse - hallMinsNow s h

/-- Shared-pool cells in use that a raised reserve or minimum has taken from the pool: they come to it as they are freed (R243). -/
def poolOver (s : State) (h : Nat) : Nat := (getHall s h).poolUsed - poolSize s h

/-- A reserve of a hall has room for `k` cells: what the pool still owes it is not there yet (R243; DESIGN CHOICE for several
reserves raised together, log 70). -/
def rsvRoom (s : State) (h use size k : Nat) : Bool := decide (use + k + poolOver s h ≤ size)

/-- Shared-pool cells not in use. -/
def poolFree (s : State) (h : Nat) : Nat := poolSize s h - (getHall s h).poolUsed

/-- `k` cells fit above the floor of R568. -/
def aboveFloor (s : State) (h k : Nat) : Bool := decide (k + (getHall s h).poolRsv ≤ poolFree s h)

/-- The admission test of R245 for `k` cells at a port account. -/
def poolAdmits (s : State) (p k : Nat) : Bool :=
  let h := hallOf p
  let x := getHall s h
  let use := ((getPort s p).map (·.poolUse)).getD 0
  aboveFloor s h k && decide (8 * (use + k) ≤ 2 ^ x.alpha * (poolFree s h - x.poolRsv))

/-- Cells put on an account of a hall. -/
def chargeAcct (h : Nat) (a : Acct) (k : Nat) (s : State) : State :=
  match a with
  | .min p c => setPort p (fun q => { q with minUse := cadd q.minUse c k }) s
  | .pool p =>
    let s := highWater h ((getHall s h).poolUsed + k) (setHall h (fun x => { x with poolUsed := x.poolUsed + k }) s)
    (match p with
     | some p => setPort p (fun q => { q with poolUse := q.poolUse + k }) s
     | none => s)
  | .engine e => setEngine e (fun g => { g with resUse := g.resUse + k }) s
  | .mcRsv => setHall h (fun x => { x with mcUse := x.mcUse + k }) s
  | .poolRsv => setHall h (fun x => { x with prUse := x.prUse + k }) s

/-- Cells taken off an account of a hall. -/
def unchargeAcct (h : Nat) (a : Acct) (k : Nat) (s : State) : State :=
  match a with
  | .min p c => setPort p (fun q => { q with minUse := csub q.minUse c k }) s
  | .pool p =>
    let s := setHall h (fun x => { x with poolUsed := x.poolUsed - k }) s
    (match p with
     | some p => setPort p (fun q => { q with poolUse := q.poolUse - k }) s
     | none => s)
  | .engine e => setEngine e (fun g => { g with resUse := g.resUse - k }) s
  | .mcRsv => setHall h (fun x => { x with mcUse := x.mcUse - k }) s
  | .poolRsv => setHall h (fun x => { x with prUse := x.prUse - k }) s

/-- A message's credits are released: FREED of R148 advances on a span, the standard's flow-control credits are returned on an
H port or D port (R245). -/
def releaseCred (p : Nat) (m : Msg) (s : State) : State :=
  setPort p (fun q =>
    if q.typ == .span then
      { q with span := { q.span with
          freedH := cset q.span.freedH m.cls ((cget q.span.freedH m.cls + 1) % 4096),
          freedD := cset q.span.freedD m.cls ((cget q.span.freedD m.cls + dataCredits m) % 65536) } }
    else
      { q with std := { q.std with
          fcFreedH := cadd q.std.fcFreedH m.cls 1, fcFreedD := cadd q.std.fcFreedD m.cls (ceilDiv m.dlen 16) } }) s

/-- Header credits of a type on an H port or D port, before the standard's cap (R247). -/
def fcHdr (min_ : Nat) : Nat := min_ / 8

/-- Data credits of a type on an H port or D port, in 16-byte units, before the standard's cap (R247). -/
def fcData (min_ : Nat) : Nat := 16 * (min_ - 2 * fcHdr min_)

/-- The largest credits the standard's scaled flow control permits: with scaling at 16.0 GT/s and above and in flit mode, else
without (R247; PRESUMED, log 71). -/
def fcCap (flit : Bool) (rate : Nat) : Nat × Nat := if flit || 3 ≤ rate then (2032, 32752) else (127, 2047)

/-- Link training of an H port or D port exchanges its flow control from the minimums of that moment (R247). -/
def exchangeFc (p : Nat) (s : State) : State :=
  setPort p (fun q =>
    let cap := fcCap q.flit q.rate
    let f := fun (g : Nat → Nat) (top : Nat) => { req := min top (g q.mins.req), rsp := min top (g q.mins.rsp), wr := min top (g q.mins.wr) : Cls4 }
    { q with std := { q.std with fcH := f fcHdr cap.1, fcD := f fcData cap.2, fcFreedH := {}, fcFreedD := {} } }) s

/-! ## Hall-to-hall links (R241) -/

/-- The first cycle, after the present one, in which the cell channel from one hall to another is free. -/
def linkFree (s : State) (a b : Nat) : Nat := max (s.dc + 1) (tgetD s.links (8 * a + b) 0)

/-- The link is free in the next cycle (R250). -/
def linkIdle (s : State) (a b : Nat) : Bool := a == b || linkFree s a b == s.dc + 1

/-- The cells of a message take a link in consecutive cycles (R241). -/
def takeLink (a b k : Nat) (s : State) : State :=
  if a = b then s else { s with links := tset s.links (8 * a + b) (linkFree s a b + k) }

/-- The message's credits if an ingress port is owed them. -/
def releaseOpt (p : Option Nat) (m : Msg) (s : State) : State :=
  match p with
  | some p => releaseCred p m s
  | none => s

/-- A message put into the buffer under the next number. -/
def store (x : Stored) (s : State) : State :=
  let s := chargeAcct x.hall x.acct x.cells s
  { s with cells := tset s.cells s.nextMid x, nextMid := s.nextMid + 1 }

/-- A datagram of an engine of this device has left its engine (R383): its work request is complete. -/
def datagramLeft (src : Nat) (m : Msg) (s : State) : State :=
  match m.gal with
  | some g =>
    if 512 ≤ src && src < 576 && g.op = 5 then
      setQp g.sqpn (fun q => finishWrs { q with wrs := datagramWrs m.dpid g.dqpn q.wrs }) s
    else s
  | none => s

/-- One reference to a stored message ends; at 0 its cells are freed and its credits released (R245, R272). -/
def dropRef (mid : Nat) (s : State) : State :=
  match tget s.cells mid with
  | some x =>
    if x.refs ≤ 1 then
      let s := unchargeAcct x.hall x.acct x.cells { s with cells := tdel s.cells mid }
      datagramLeft x.src x.msg (releaseOpt x.cred x.msg s)
    else { s with cells := tset s.cells mid { x with refs := x.refs - 1 } }
  | none => s

/-- The transmission of a stored message begins: its cells leave, those of another hall over the link (R240, R241). -/
def beginLeave (p mid : Nat) (s : State) : State :=
  match tget s.cells mid with
  | some x =>
    if x.refs ≤ 1 then
      let s := takeLink x.hall (hallOf p) x.cells s
      let at_ := if x.hall = hallOf p then none else some (tgetD s.links (8 * x.hall + hallOf p) 0)
      { s with cells := tset s.cells mid { x with leaving := true, crossAt := at_ } }
    else s
  | none => s

/-- Messages whose last cell has crossed to another hall are freed in their own (R240). -/
def settleCross (s : State) : State :=
  (s.cells.filter fun e => match e.2.crossAt with | some t => decide (t ≤ s.dc) | none => false).foldl
    (fun s e => dropRef e.1 s) s

/-- The cells of a message whose transmission has ended (R240, R251). -/
def endLeave (mid : Nat) (s : State) : State :=
  match tget s.cells mid with
  | some x => if x.crossAt.isSome then settleCross s else dropRef mid s
  | none => s

/-- Admission of a message entering at a port (R245): the account, and the port whose credits wait for the last cell. -/
def admitAcct (s : State) (p : Nat) (m : Msg) : Acct × Option Nat :=
  if poolAdmits s p (cellsOf m) then (.pool (some p), none) else (.min p m.cls, some p)

/-! ## Leaves -/

/-- The default leaf of a port for a class (R285). -/
def defaultLeaf (p : Nat) (c : Cls) : Nat := 4 * (p % 64) + clsNum c

/-- Service of a default leaf (R285). -/
def defaultService : Cls → Nat
  | .req => 3 | .rsp => 2 | .wr => 4 | .mgt => 0

/-- The binding of a leaf: fixed for default leaves of ports in use, SC_LEAF_CFG otherwise (R284 to R286). -/
def leafCfg (s : State) (h leaf : Nat) : Option LeafCfg :=
  if leaf < 256 then
    if inUse s (64 * h + leaf / 4) then some ⟨leaf / 4, defaultService (clsOf (leaf % 4)), 0⟩ else none
  else tget (getHall s h).leaves leaf

/-- The leaf a flow maps to at its egress port (R253). -/
def flowLeaf (s : State) (src p : Nat) (c : Cls) : Nat :=
  match getPort s p with
  | some q => tgetD q.assign (4 * src + clsNum c) (defaultLeaf p c)
  | none => defaultLeaf p c

/-- The queue of a leaf. -/
def leafQ (s : State) (h leaf : Nat) : List QItem := tgetD (getHall s h).queues leaf []

def setLeafQ (h leaf : Nat) (l : List QItem) (s : State) : State :=
  setHall h (fun x => { x with queues := if l.isEmpty then tdel x.queues leaf else tset x.queues leaf l }) s

/-- The leaves bound to a port, in ascending number. -/
def portLeaves (s : State) (p : Nat) : List Nat :=
  (if inUse s p then (List.range 4).map (4 * (p % 64) + ·) else [])
    ++ ((getHall s (hallOf p)).leaves.filter fun e => e.2.port == p % 64).map (·.1)

/-- An item is a descriptor (R292: a fence is not). -/
def isDesc : QItem → Bool
  | .desc _ => true
  | .fence .. => false

/-- The messages a queue holds. -/
def qMids (l : List QItem) : List Nat := l.filterMap fun i => match i with | .desc m => some m | .fence .. => none

/-- The messages queued toward a port. -/
def portMids (s : State) (p : Nat) : List Nat := (portLeaves s p).flatMap fun l => qMids (leafQ s (hallOf p) l)

/-- The messages of a flow queued in a leaf. -/
def flowMids (s : State) (h leaf src : Nat) (c : Cls) : List Nat :=
  (qMids (leafQ s h leaf)).filter fun m =>
    match tget s.cells m with
    | some x => x.src == src && x.msg.cls == c
    | none => false

/-- A message that entered before a LEAF_ASSIGN is still to be queued in its old leaf (R256). -/
def oldLeafOwed (s : State) (h old mid : Nat) : Bool :=
  match tget s.cells mid with
  | some x => x.leafOf.any fun e => hallOf e.1 == h && e.2 == old
  | none => false

/-- A fence is done when its old leaf has sent every message it waits for (R256). -/
def fenceDone (s : State) (h : Nat) : QItem → Bool
  | .desc _ => false
  | .fence _ _ old mids => mids.all fun m => !(qMids (leafQ s h old)).contains m && !oldLeafOwed s h old m

/-- A queue without the fences that are done: each goes as its flow drains, at the head or behind others (R256, R257). -/
def trimFences (s : State) (h : Nat) (l : List QItem) : List QItem := l.filter fun i => !fenceDone s h i

/-- The number of fences pending in a hall (SW_FENCE_WAIT, R256). -/
def fencesPending (s : State) (h : Nat) : Nat :=
  (getHall s h).queues.foldl (fun n e => n + (e.2.filter fun i => !isDesc i).length) 0

/-- A descriptor at the tail of a leaf of a port. -/
def queueAt (p leaf mid : Nat) (s : State) : State := setLeafQ (hallOf p) leaf (leafQ s (hallOf p) leaf ++ [.desc mid]) s

/-- A descriptor out of every leaf of a port. -/
def unqueue (p mid : Nat) (s : State) : State :=
  (portLeaves s p).foldl (fun s l =>
    if (leafQ s (hallOf p) l).contains (.desc mid) then setLeafQ (hallOf p) l ((leafQ s (hallOf p) l).erase (.desc mid)) s
    else s) s

end Sys2Proof.Machine
end

