-- ==== Sys2Proof/Machine/Switch.lean ====
section
/-! DEFINITION. Routes, span groups with their home and live tables and pauses, the removal of messages at a port that
is down, and the placement of a message in the queue of its flow (06_switch_core R252 to R283). -/

namespace Sys2Proof.Machine

open Sys2Proof

/-! ## Offsets of the counters (R543) -/

def oFecCorr : Nat := 0x000
def oFecUncorr : Nat := 0x004
def oCrcErr : Nat := 0x008
def oTagErr : Nat := 0x00C
def oTypeErr : Nat := 0x010
def oMsgErr : Nat := 0x014
def oRxDup : Nat := 0x018
def oAckErr : Nat := 0x01C
def oCreditErr : Nat := 0x020
def oCreditOvr : Nat := 0x024
def oTtlDrop : Nat := 0x028
def oReplay : Nat := 0x02C
def oSpTrainFail : Nat := 0x030
def oSpFlush (c : Cls) : Nat := 0x040 + 4 * clsNum c
def oMsgDrop : Nat := 0x010
def oCacheDrop : Nat := 0x014
def oBmeDrop : Nat := 0x018
def oAmberDiscard : Nat := 0x01C
def oAmberCpl : Nat := 0x020
def oHpTrainFail : Nat := 0x024
def oSwFlush (c : Cls) : Nat := 0x1020 + 4 * clsNum c
def oMarkNa : Nat := 0x5000
def oDiscard : Nat := 0x5004
def oDiscardSubst : Nat := 0x5008
def oDeferFlush : Nat := 0x500C
def oNoRoute : Nat := 0x400010
def oMcSkip : Nat := 0x400014
def oMgtOfftree : Nat := 0x400018
def oMgtSkip : Nat := 0x40001C
def oWheelLate : Nat := 0x804000
def oDbErr : Nat := 0x1000000

/-! ## Ports by PID, sources of flows -/

/-- The edge port that holds a PID (R206, R258). -/
def pidPort (s : State) (pid : Nat) : Option Nat := (s.ports.find? fun e => e.2.pid == some pid).map (·.1)

/-- The span group a port is a member of (R260). -/
def groupOf (s : State) (p : Nat) : Option Nat := (s.groups.find? fun e => e.2.members.contains p).map (·.1)

/-- The source number of messages entering at a port (R252). -/
def flowSource (s : State) (p : Nat) : Nat :=
  match groupOf s p with
  | some g => 576 + g
  | none => p

def engineSource (e : Nat) : Nat := 512 + e
/-- The management core that originates fabric messages of the central die. The manual does not say which of 640 to 643 it
is (DESIGN CHOICE, log 72). -/
def coreSource : Nat := 640

/-- Does a source number of R252 name an existing source? -/
def sourceExists (s : State) (n : Nat) : Bool :=
  if n < 512 then inUse s n
  else if n < 576 then true
  else if n < 640 then (tget s.groups (n - 576)).isSome
  else decide (n < 644)

/-! ## The hash (R262, R263) -/

/-- F of R262. -/
def hashF (m : Msg) : Nat :=
  match m.gal with
  | some g => if m.kind = 2 then g.dqpn % 2 ^ 20 else 0
  | none =>
    match m.addr with
    | some a => if m.cls == .rsp || m.cls == .mgt then 0 else bits a 47 12
    | none => 0

/-- The bytes of K, most significant first (R262). -/
def hashBytes (m : Msg) : Bytes := (le 8 (2 ^ 48 * (m.spid % 4096) + 2 ^ 36 * (m.dpid % 4096) + hashF m)).reverse

/-- The indirection index of a message (R263). -/
def hashIdx (m : Msg) : Nat := crc16 (hashBytes m) % 256

/-! ## Span groups (R260 to R270) -/

/-- How many of the members that received TRAIN flits carry an FDID. -/
def fdidVotes (nbr : Nat → Option Nat) (ms : List Nat) (f : Nat) : Nat := (ms.filter fun m => nbr m == some f).length

/-- The neighbour of a group: the FDID of most members, the lowest member index on a tie (R260). -/
def neighbour (nbr : Nat → Option Nat) (ms : List Nat) : Option Nat :=
  (ms.filterMap nbr).foldl (fun best f =>
    match best with
    | none => some f
    | some b => if fdidVotes nbr ms b < fdidVotes nbr ms f then some f else some b) none

/-- The FDID of a span's last TRAIN flits. -/
def spanNbr (s : State) (p : Nat) : Option Nat := (getPort s p).bind (·.span.nbr)

/-- A member whose last TRAIN flits carried an FDID other than the neighbour's (R260). -/
def mismatched (s : State) (g : Group) (p : Nat) : Bool :=
  match spanNbr s p, neighbour (spanNbr s) g.members with
  | some f, some n => f != n
  | _, _ => false

/-- R265 and the last sentence of R260: is a member live? -/
def memberLive (s : State) (g : Group) (p : Nat) : Bool :=
  g.members.contains p && !mismatched s g p
    && (match getPort s p with
        | some q =>
          match q.st with
          | .up => true
          | .hold => !g.rebal || !q.scfg.graceOut
          | .training => q.span.retained && (!g.rebal || !q.scfg.graceOut)
          | _ => false
        | none => false)

/-- The first of `ms` with the fewest entries of a table: the lowest member index on a tie. -/
def fewest (ms : List Nat) (l : List Nat) : Option Nat :=
  ms.foldl (fun best m =>
    match best with
    | none => some m
    | some b => if l.count m < l.count b then some m else some b) none

/-- The first of `ms` with the most entries of a table. -/
def most (ms : List Nat) (l : List Nat) : Option Nat :=
  ms.foldl (fun best m =>
    match best with
    | none => some m
    | some b => if l.count b < l.count m then some m else some b) none

/-- A pause begins, or goes on with one more old member (R268). -/
def pauseEntry (dc j old : Nat) (t : Tab Pause) : Tab Pause :=
  match tget t j with
  | some p => tset t j { p with old := if p.old.contains old then p.old else p.old ++ [old] }
  | none => tset t j { old := [old], start := dc }

/-- One entry of the loop of R267. -/
def liveEntry (live : Nat → Bool) (dc : Nat) (g : Group) (j : Nat) : Group :=
  let h := g.home[j]?.getD 0
  let l := g.live[j]?.getD 0
  let t :=
    if live h then h
    else if live l then l
    else
      match fewest (g.members.filter live) g.live with
      | some m => m
      | none => l
  if t = l then g else { g with live := g.live.set j t, paused := pauseEntry dc j l g.paused }

/-- R267: the live table after a change. -/
def liveTable (live : Nat → Bool) (dc : Nat) (g : Group) : Group := (List.range 256).foldl (liveEntry live dc) g

/-- R267 for one group of the device. -/
def regroup (g : Nat) (s : State) : State :=
  match tget s.groups g with
  | some x => { s with groups := tset s.groups g (liveTable (memberLive s x) s.dc x) }
  | none => s

/-- R267 for the group of a port, if it has one. -/
def regroupPort (p : Nat) (s : State) : State :=
  match groupOf s p with
  | some g => regroup g s
  | none => s

/-- The record of a port's first change of state in the present cycle (R40). -/
def wasOf (s : State) (p : Nat) (q : Port) : Was :=
  match q.was with
  | some w => if w.dc = s.dc then w else { dc := s.dc, st := q.st, pend := tget s.atr.pend (srcDegr p), first := s.atr.first }
  | none => { dc := s.dc, st := q.st, pend := tget s.atr.pend (srcDegr p), first := s.atr.first }

/-- The state a port left in the present cycle, if it changed its state (R40). -/
def cameFrom (s : State) (q : Port) : Option PortState :=
  q.was.bind fun w => if w.dc = s.dc && w.st != q.st then some w.st else none

/-- A port takes a state; its span group follows in the same cycle (R267, R270), and the time out of UP is kept for R265. -/
def setState (p : Nat) (st : PortState) (s : State) : State :=
  let s := setPort p (fun q =>
    let c := q.scfg
    let c := if st = .up then { c with outSince := none, graceOut := false }
             else if q.st = .up then { c with outSince := some s.dc } else c
    { q with st := st, scfg := c, was := some (wasOf s p q) }) s
  regroupPort p s

/-! ## Accesses in flight (R453) -/

/-- A write has left flight: its last cell has left or its last slot is in the Landing (`ok`), or it was removed. The
answer it owes waits in its engine (R449). -/
def retireMid (ok : Bool) (mid : Nat) (s : State) : State :=
  let s := setGn (fun g => { g with acc := g.acc.filter fun a => !(a.write && a.mid == some mid) }) s
  match tget s.places mid with
  | some p =>
    let s := { s with places := tdel s.places mid }
    (match (if ok then p.ok else p.bad) with
     | some m => setEngine p.eng (fun g => { g with outQ := g.outQ ++ [{ msg := m }] }) s
     | none => s)
  | none => s

/-- A read of an H port in flight under a tag, not squashed. -/
def liveRead (p tag : Nat) (a : Access) : Bool := !a.write && !a.dead && a.port == p && a.tag == tag

/-- A read's completion has returned to its H port, or is removed there. The completion that the device supplies for a
failing or squashed part carries the mark `read` and ends no read (R448, R454). -/
def retireRead (p : Nat) (m : Msg) (s : State) : State :=
  if m.cls == .rsp && !m.read then setGn (fun g => { g with acc := g.acc.eraseP (liveRead p m.tag) }) s else s

/-! ## Removal at a port that is down (R279 to R282, R228) -/

/-- A port state toward which nothing is queued: DOWN and AMBER by R279, DISABLED by R37 (log 13). -/
def blocked : PortState → Bool
  | .disabled => true
  | .down => true
  | .amber => true
  | _ => false

/-- Is the port blocked, or not in use? -/
def portBlocked (s : State) (p : Nat) : Bool :=
  match getPort s p with
  | some q => blocked q.st
  | none => true

/-- The completion of a non-posted request by the device: Unsupported Request, poisoned data for a CXL.mem read, the
completion of a CXL.mem write (R280). Its length is PRESUMED (log 14). -/
def completionOf (m : Msg) : Msg :=
  let data := m.kind = 1 && m.read
  { cls := .rsp, kind := m.kind, dpid := m.spid, spid := m.dpid, dlen := if data then 12 + m.len else 12, ttl := 64,
    tag := m.tag, poison := data, ur := m.kind != 1, len := m.len, rport := m.rport, owner := m.owner }

/-- A completion waits in the sequence of a port's flush (R280). -/
def addCompletion (p : Nat) (m : Msg) (s : State) : State :=
  setPort p (fun q =>
    let f := q.flush.getD { active := false }
    { q with flush := some { f with compl := f.compl ++ [completionOf m], next := max f.next (s.dc + 1) } }) s

/-- An H port or D port in AMBER: the HP_AMBER_ counters count there (R228). -/
def edgeAmber (s : State) (p : Nat) : Bool :=
  match getPort s p with
  | some q => q.st == .amber && q.typ != .span
  | none => false

/-- A CXL.mem write. -/
def memWrite (m : Msg) : Bool := m.kind = 1 && m.np && !m.read

/-- The counts of a removal: SW_FLUSH of the class, the flush in progress (R281), and the HP_AMBER_ counters (R228). -/
def countRemoval (p : Nat) (m : Msg) (s : State) : State :=
  let edge := edgeAmber s p
  let s := bumpPort p (oSwFlush m.cls) 1 s
  let s := if edge && (m.cls == .wr || memWrite m) then bumpPort p oAmberDiscard 1 s else s
  let s := if edge && m.cls == .rsp then bumpPort p oAmberCpl 1 s else s
  setPort p (fun q => { q with
    flush := q.flush.map fun f => if f.active then { f with removed := cadd f.removed m.cls 1 } else f }) s

/-- A completion that has come to its H port, or is removed there, ends the request of its function (R193). -/
def endOwn (p : Nat) (m : Msg) (s : State) : State :=
  if m.cls == .rsp then setStd p (fun d => { d with np := d.np.eraseP fun r => r.fn.isSome && r.msg.tag == m.tag }) s else s

/-- The effects of removing a message toward a port, apart from its cells. -/
def removeMsg (p : Nat) (m : Msg) (s : State) : State :=
  let s := endOwn p m (retireRead p m (countRemoval p m s))
  if m.np && !m.mc then addCompletion p m s else s

/-- A request outstanding at a port that goes down is completed; a CXL.mem write at a port in AMBER counts as discarded
(R228, R280). -/
def completeOutstanding (p : Nat) (s : State) (r : NpReq) : State :=
  addCompletion p r.msg (if edgeAmber s p && memWrite r.msg then bumpPort p oAmberDiscard 1 s else s)

/-- A descriptor toward a port is removed: one reference ends, a request is completed (R279, R280). -/
def removeAt (p mid : Nat) (s : State) : State :=
  match tget s.cells mid with
  | some x => dropRef mid (retireMid false mid (removeMsg p x.msg s))
  | none => s

/-! ## Queueing -/

/-- An earlier message of a flow is still on its way to the queue at a port: a multicast copy owed to its hall, or a message
that waits for one (R254, R276). -/
def owedBefore (s : State) (mid src p : Nat) (c : Cls) : Bool :=
  s.cells.any fun e => decide (e.1 < mid) && e.2.src == src && e.2.msg.cls == c
    && (e.2.wait.contains p || e.2.cross.any fun k => k.2.contains p)

/-- A stored message's descriptor toward a port enters the leaf of its flow, the one it kept by R256, or is removed when the
port is down. -/
def placeNow (src p mid : Nat) (c : Cls) (s : State) : State :=
  if portBlocked s p then removeAt p mid s
  else
    let leaf := ((tget s.cells mid).bind fun x => tget x.leafOf p).getD (flowLeaf s src p c)
    startL1Exit p <| queueAt p leaf mid { s with cells := tmod s.cells mid fun x => { x with leafOf := tdel x.leafOf p } }

/-- A stored message's descriptor toward a port: behind the messages of its flow that are still on their way (R254). -/
def placeAt (src p mid : Nat) (c : Cls) (s : State) : State :=
  if owedBefore s mid src p c then
    { s with cells := tmod s.cells mid fun x => { x with wait := if x.wait.contains p then x.wait else x.wait ++ [p] } }
  else placeNow src p mid c s

/-- Descriptors that waited behind a multicast copy follow it (R254, R276). -/
def releaseWaits (s : State) : State :=
  (s.cells.filter fun e => !e.2.wait.isEmpty).foldl (fun s e =>
    e.2.wait.foldl (fun s p =>
      if owedBefore s e.1 e.2.src p e.2.msg.cls then s
      else placeNow e.2.src p e.1 e.2.msg.cls
        { s with cells := tmod s.cells e.1 fun x => { x with wait := x.wait.erase p } }) s) s

/-! ## Multicast (R271 to R276) -/

/-- Every element once, keeping the first. -/
def dedup : List Nat → List Nat
  | [] => []
  | a :: r => a :: (dedup r).filter (· != a)

/-- The targets that receive a descriptor: those of admission that are DISABLED, DOWN or AMBER are skipped and counted (R275). -/
def liveTargets (h : Nat) (targets : List Nat) (s : State) : List Nat × State :=
  let skip := (targets.filter fun t => portBlocked s t).length
  (targets.filter fun t => !portBlocked s t, if skip = 0 then s else bumpHall h oMcSkip skip s)

/-- A multicast message stored under a number is replicated in its hall and owed to other halls (R272 steps 3 and 4). -/
def replicate (mid : Nat) (x : Stored) (go : List Nat) (s : State) : State :=
  let here := go.filter fun t => hallOf t == x.hall
  let halls := (dedup (go.map hallOf)).filter (· != x.hall)
  let x := { x with refs := here.length + halls.length,
                    cross := halls.map fun h => (h, go.filter fun t => hallOf t == h) }
  if here.isEmpty && halls.isEmpty then dropRef mid { s with cells := tset s.cells mid { x with refs := 1 } }
  else here.foldl (fun s t => placeAt x.src t mid x.msg.cls s) { s with cells := tset s.cells mid x }

/-- A message stored in the buffer and queued at once toward a port. -/
def storeAndPlace (x : Stored) (p : Nat) (s : State) : State := placeAt x.src p s.nextMid x.msg.cls (store x s)

/-! ## Routes (R206 to R208, R258, R259, R264) -/

/-- The WR data credits a span holds (R147). -/
def spanData (q : Port) (c : Cls) : Nat :=
  (cget q.span.advD c + cget q.span.retD c + 65536 - cget q.span.consD c) % 65536
/-- The header credits a span holds (R147). -/
def spanHdr (q : Port) (c : Cls) : Nat :=
  (cget q.span.advH c + cget q.span.retH c + 4096 - cget q.span.consH c) % 4096

/-- The member a sprayed packet goes to: live, UP, most WR data credits, lowest index on a tie (R264). -/
def sprayMember (s : State) (g : Group) : Option Nat :=
  let wr := fun p => match getPort s p with | some q => spanData q .wr | none => 0
  (g.members.filter fun p => memberLive s g p && portSt s p == some .up).foldl (fun best p =>
    match best with
    | none => some p
    | some b => if wr b < wr p then some p else some b) none

/-- A packet marked for spraying. -/
def isSpray (m : Msg) : Bool :=
  match m.gal with
  | some g => m.kind = 2 && g.spray
  | none => false

/-- The route of a PID for a message; `local_` when only this device may be reached (R207). -/
def routePid (s : State) (local_ : Bool) (m : Msg) : Egress :=
  match pidPort s m.dpid with
  | some p => if m.kind = 2 && isType s .h p then .engine else .port p
  | none =>
    if local_ then .none
    else
      match tget s.routes m.dpid with
      | some ⟨0, t⟩ => .port t
      | some ⟨1, g⟩ =>
        (match tget s.groups g with
         | some x =>
           (match (if isSpray m then sprayMember s x else none) with
            | some p => .spray p
            | none => .entry g (hashIdx m))
         | none => .none)
      | some ⟨_, grp⟩ => if m.cls == .wr then .mcast grp else .none
      | none => .none

/-- The member an entry's live table names. -/
def entryMember (s : State) (g j : Nat) : Option Nat := (tget s.groups g).bind fun x => x.live[j]?

/-- The pause of an entry. -/
def entryPause (s : State) (g j : Nat) : Option Pause := (tget s.groups g).bind fun x => tget x.paused j

/-- A stored message of an entry: queued toward the live member, or held while the entry is paused (R268). -/
def placeEntry (g j mid : Nat) (x : Stored) (s : State) : State :=
  match entryPause s g j with
  | some p => setGroup g (fun y => { y with paused := tset y.paused j { p with held := p.held ++ [mid] } }) s
  | none =>
    match entryMember s g j with
    | some p =>
      placeAt x.src p mid x.msg.cls { s with cells := tmod s.cells mid fun y => { y with leafOf := tfilter y.leafOf fun k _ => k == p } }
    | none => dropRef mid s

/-- The engine that serves the QP a Gallery packet names: by its context while it exists, else the first of the hall of
the PID's port. -/
def galleryEngine (s : State) (m : Msg) : Nat :=
  match (m.gal.bind fun g => tget s.qps g.dqpn) with
  | some q => q.engine
  | none => 8 * (((pidPort s m.dpid).map hallOf).getD 0)

/-- The bay whose function originates a Gallery packet: its owner, or the owner of the QP it names as its source. -/
def galBay (s : State) (m : Msg) : Option Nat :=
  match m.owner with
  | some b => some b
  | none => (m.gal.bind fun g => tget s.qps g.sqpn).map (·.bay)

/-- The edge port a message of the device enters the fabric by: that of its flow, or the H port of its function (R207). -/
def originPort (s : State) (x : Stored) : Option Nat :=
  if x.src < 512 then some x.src
  else if x.src < 576 then (galBay s x.msg).bind (bayPort s)
  else (tget s.groups (x.src - 576)).bind fun g => g.members.head?

/-- A message of the device without a route: counted, with an event of its port (R208, R259). -/
def unrouted (x : Stored) (s : State) : State :=
  let s := bumpHall x.hall oNoRoute 1 s
  match originPort s x with
  | some p => fire (srcDegr p) 11 p (if isType s .h p then (galBay s x.msg).getD noActor else noActor) s
  | none => s

/-- A message that the device itself sends on, stored on an account, along its route: a completion, an engine's packet, which
multicast replicates (R272). A message without a route ends here (R208). -/
def storeRouted (x : Stored) (e : Egress) (s : State) : State :=
  match e with
  | .port p => storeAndPlace x p s
  | .spray p => storeAndPlace x p s
  | .entry g j => placeEntry g j s.nextMid { x with entry := some (g, j) } (store { x with entry := some (g, j) } s)
  | .engine => datagramLeft x.src x.msg (emit (.gallery (galleryEngine s x.msg) x.msg) s)
  | .mcast grp =>
    let x := { x with msg := { x.msg with mc := true, group := grp } }
    let (go, s) := liveTargets x.hall (tgetD s.mcast grp []) s
    replicate s.nextMid x go (store x s)
  | .none => datagramLeft x.src x.msg (unrouted x s)

/-- Where a completion of the device goes: the port the request entered by if it is an edge port, else its requester's
PID. -/
def completionEgress (s : State) (m : Msg) : Egress :=
  match m.rport with
  | some r => if isType s .span r || !inUse s r then routePid s false m else .port r
  | none => routePid s false m

/-- A completion enters the core as an RSP message of a port's flow toward the requester (R280). -/
def sendCompletion (p : Nat) (m : Msg) (s : State) : State :=
  let a := admitAcct s p m
  storeRouted { msg := m, hall := hallOf p, cells := cellsOf m, acct := a.1, src := flowSource s p } (completionEgress s m) s

/-- The messages of an entry still on their way over a member: queued, being sent, or in the Landing (R268). -/
def entryBusy (s : State) (g j p : Nat) : Bool :=
  let mine := fun e => e == some (g, j)
  (portMids s p).any (fun mid => match tget s.cells mid with | some x => mine x.entry | none => false)
    || (match getPort s p with
        | some q =>
          (match q.sched.sending with | some x => mine x.entry | none => false)
            || q.span.landing.any fun f => mine f.entry
        | none => false)

/-- The pause of an entry ends: what it held is queued toward the new member in admission order (R268). -/
def endPause (g j : Nat) (s : State) : State :=
  match entryPause s g j with
  | some p =>
    let s := setGroup g (fun y => { y with paused := tdel y.paused j }) s
    p.held.foldl (fun s mid =>
      match tget s.cells mid with
      | some x => placeEntry g j mid x s
      | none => s) s
  | none => s

end Sys2Proof.Machine
end

