-- ==== Sys2Proof/Machine/Wire.lean ====
section
/-! DEFINITION. What a span puts on its lanes and takes from them: messages as bytes (R141, R142), the sealed body of a sequenced
flit (R132, R184), headers with acknowledgement and credit record (R133, R148, R156, R188), the run guard and the alignment word
(R106, R117, R163), the line levels of a slot received (R102 to R105, R119, R120), and the payloads of TRAIN, KEYX and INIT flits
(R164, R168, R428, R429). -/

namespace Sys2Proof.Machine

open Sys2Proof

/-! ## Messages as bytes (R141, R142) -/

/-- The 40-byte Gallery header (09_gallery_engines, Packets). -/
def galHeader (g : Gal) : Bytes :=
  [g.op % 16 + 16 * b2n g.last + 32 * b2n g.spray + 64 * b2n g.ce + 128 * b2n g.ece, g.mtu % 8, g.status % 256, g.hint % 256]
    ++ le 4 (g.dqpn % 2 ^ 20) ++ le 4 (g.sqpn % 2 ^ 20) ++ le 3 g.msn ++ [0] ++ le 4 g.offset ++ le 4 g.tlen ++ le 4 g.rmr
    ++ le 8 (g.roff % 2 ^ 48) ++ le 4 (g.ssn % 2 ^ 24)

/-- A Gallery packet from its header and payload. -/
def galOf (bs : Bytes) : Gal :=
  let b := fit 40 bs
  let f := b.headD 0
  { op := f % 16, last := bit f 4, spray := bit f 5, ce := bit f 6, ece := bit f 7, mtu := unle (slice b 1 1) % 8,
    status := unle (slice b 2 1), hint := unle (slice b 3 1), dqpn := unle (slice b 4 4) % 2 ^ 20,
    sqpn := unle (slice b 8 4) % 2 ^ 20, msn := unle (slice b 12 3), offset := unle (slice b 16 4),
    tlen := unle (slice b 20 4), rmr := unle (slice b 24 4), roff := unle (slice b 28 8) % 2 ^ 48,
    ssn := unle (slice b 36 4) % 2 ^ 24, payload := bs.drop 40 }

/-- What stands before the data of a TLP or CXL.mem message. The standards' headers are not restated in the manual; this layout is
the model's (PRESUMED, log 74). -/
def tlpHeader (m : Msg) : Bytes :=
  [b2n m.np + 2 * b2n m.read + 4 * b2n m.poison + 8 * b2n m.ur + 16 * b2n m.ro + 32 * b2n m.ido + 64 * b2n m.addr.isSome]
    ++ le 2 m.tag ++ le 2 m.reqId ++ le 2 m.len ++ [0] ++ le 8 (m.addr.getD 0)

/-- The DLEN bytes after a message's span header. -/
def content (m : Msg) : Bytes :=
  fit m.dlen
    (if m.kind < 2 then tlpHeader m ++ m.body
     else if m.kind = 2 then (match m.gal with | some g => galHeader g ++ g.payload | none => m.body)
     else m.body)

/-- The 16-byte slots a message occupies (R142). -/
def slotsOf (m : Msg) : Nat := 1 + ceilDiv m.dlen 16

/-- A message in its slots, header first (R141, R142). -/
def msgBytes (m : Msg) : Bytes := fit (16 * slotsOf m) (msgHeader m ++ content m)

/-- A message from its slots (R141). -/
def msgOf (bs : Bytes) : Msg :=
  let a := bs.headD 0
  let ids := unle (slice bs 1 3)
  let dlen := unle (slice bs 4 2)
  let f := unle (slice bs 7 1)
  let kind := a / 16 % 16
  let c := slice bs 16 dlen
  let t := fit 16 c
  let g := t.headD 0
  let m : Msg :=
    { cls := clsOf (a % 4), kind := kind, dpid := ids % 4096, spid := ids / 4096 % 4096, dlen := dlen, ttl := unle (slice bs 6 1),
      service := f % 8, mc := bit f 3, group := unle (slice bs 8 2) % 4096 }
  if kind < 2 then
    { m with np := bit g 0, read := bit g 1, poison := bit g 2, ur := bit g 3, ro := bit g 4, ido := bit g 5,
             addr := if bit g 6 then some (unle (slice t 8 8)) else none, tag := unle (slice t 1 2),
             reqId := unle (slice t 3 2), len := unle (slice t 5 2), body := c.drop 16 }
  else if kind = 2 then { m with gal := some (galOf c) }
  else { m with body := c }

/-- Flits a message occupies: each message begins a flit (log 10). -/
def flitsOf (m : Msg) : Nat := ceilDiv (slotsOf m) 14

/-- The slots of flit `k` of a message. -/
def segOf (m : Msg) (k : Nat) : Seg :=
  { msg := m, slots := min 14 (slotsOf m - 14 * k), first := k == 0, last := k + 1 == flitsOf m }

/-- The body of flit `k` of a message: its slots, and after the last a PAD header and zeros (R142). -/
def segBody (m : Msg) (k : Nat) : Bytes :=
  let b := slice (msgBytes m) (224 * k) 224
  if b.length < 224 then fit 224 (b ++ [0xF0]) else b

/-- The body of a CTRL flit (R177). -/
def ctrlBody (b : ResizeBody) : Bytes := fit 224 [b.op % 256, b.width % 256, b.rate % 256, b.maxWidth % 256, b.maxRate % 256]

/-- The fields of a CTRL flit (R177). -/
def ctrlOf (bs : Bytes) : ResizeBody :=
  let f := fun i => unle (slice bs i 1)
  { op := f 0, width := f 1, rate := f 2, maxWidth := f 3, maxRate := f 4 }

/-! ## Keys (R184, R432) -/

/-- The key and the salt of a direction and an index (R432). -/
def dirKeys (prk src dst incarn n : Nat) : Bytes × Bytes :=
  let k := Crypto.toBE 48 prk
  let info := keyInfo src dst incarn n
  (Crypto.hkdfExpand k (info ++ [1]) 32, Crypto.hkdfExpand k (info ++ [2]) 8)

/-- The transmit direction takes the keys of an index; index 0 takes those of a fresh exchange (R185, R186, R432). -/
def loadTx (s : State) (x : Span) (n : Nat) (k : SpanKeys) : SpanKeys :=
  let prk := if n = 0 then k.newPrk.getD k.txPrk else k.txPrk
  let e := dirKeys prk s.nv.serial (x.partner.getD 0) (x.incarn.getD 0) n
  { k with txPrk := prk, txIdx := n, txN := 0, txKey := e.1, txSalt := e.2 }

/-- The receive direction takes the keys of an index. -/
def loadRx (s : State) (x : Span) (n : Nat) (k : SpanKeys) : SpanKeys :=
  let prk := if n = 0 then k.newPrk.getD k.rxPrk else k.rxPrk
  let e := dirKeys prk (x.partner.getD 0) s.nv.serial (x.incarn.getD 0) n
  { k with rxPrk := prk, rxIdx := n, rxN := 0, rxKey := e.1, rxSalt := e.2 }

/-- The keys that KEY_PHASE of a received flit selects (R138 step 5, R185): those in force, or those of the next index. -/
def rxKeysFor (s : State) (q : Port) (phase : Bool) : SpanKeys :=
  let k := q.scfg.keys
  if phase == k.rxPhase then k
  else { loadRx s q.span (k.rxNext.getD ((k.rxIdx + 1) % 65536)) k with rxPhase := phase, rxNext := none }

/-- The part of a sequenced flit's header that its tag covers. -/
def seqHdr (ctrl : Bool) (seq : Nat) (phase : Bool) : BitVec 64 :=
  mkHdr (if ctrl then 2 else 1) seq phase 0 false false false .req 0 0

/-- The payload of a sequenced flit: the body in ciphertext, then the tag (R132, R184). -/
def sealBody (k : SpanKeys) (ctrl : Bool) (seq : Nat) (body : Bytes) : Bytes :=
  let e := Crypto.gcmSeal k.txKey (flitNonce (unle k.txSalt) k.txN) (flitAad (seqHdr ctrl seq k.txPhase)) body
  e.1 ++ e.2

/-- The body of a received sequenced flit, when its tag verifies (R138 step 5). -/
def openBody (k : SpanKeys) (rx : RxFlit) : Option Bytes :=
  Crypto.gcmOpen k.rxKey (flitNonce (unle k.rxSalt) k.rxN) (flitAad rx.hdr) (rx.payload.take 224) (slice rx.payload 224 16)

/-! ## The transmitter (R102 to R106, R117, R133, R148, R156, R163) -/

/-- The levels of a coded flit on the lanes of a span. -/
def spanLevels (s : State) (p w : Nat) (coded : Bytes) : List (List Nat) :=
  (List.range w).map fun k => let l := getLane s (p + k); laneLevels l.txScram l.txLevel (stripe w k coded)

/-- The run guard holds on every lane (R106). -/
def guardHolds (s : State) (p w : Nat) (coded : Bytes) : Bool :=
  (spanLevels s p w coded).zipIdx.all fun e => let l := getLane s (p + e.2); guardOk l.txLevel l.txRun e.1

/-- The alignment word goes out on every lane; scramblers and precoders start again (R103, R105, R116, R117). -/
def sendWord (p : Nat) (s : State) : State :=
  match getPort s p with
  | some q =>
    let s := emit (.word p ((List.range q.widthNow).map alignWord)) s
    let s := (List.range q.widthNow).foldl (fun s k =>
      setLane (p + k) (fun l => { l with txScram := scramSeed k, txLevel := 0, txRun := 0 }) s) s
    setSpan p (fun x => { x with txSlots := 0 }) s
  | none => s

/-- Flit slots between alignment words (R117, R163). -/
def wordSlots (q : Port) : Nat := if q.st == .up then 4096 else 16

/-- A coded flit goes out in its slot; the alignment word follows when it is due. -/
def putFlit (p : Nat) (coded : Bytes) (s : State) : State :=
  match getPort s p with
  | some q =>
    let lv := spanLevels s p q.widthNow coded
    let s := emit (.flit p coded lv) s
    let s := lv.zipIdx.foldl (fun s e => setLane (p + e.2) (fun l => { l with
      txScram := scramAfter (2 * e.1.length) l.txScram, txLevel := e.1.getLastD l.txLevel,
      txRun := endRun l.txLevel l.txRun e.1 }) s) s
    let s := setSpan p (fun x => { x with txSlots := x.txSlots + 1 }) s
    if wordSlots q ≤ q.span.txSlots + 1 then sendWord p s else s
  | none => s

/-- A class whose FREED counts have changed since its last record. -/
def crChanged (x : Span) (c : Cls) : Bool := cget x.freedH c != cget x.crH c || cget x.freedD c != cget x.crD c

/-- The class of the next credit record: those with changed counts first, in rotation; in compatibility mode those alone (R148,
R188). -/
def crNext (x : Span) : Option Cls :=
  let order := (List.range 4).map fun i => clsOf ((x.crPtr + 1 + i) % 4)
  match order.find? (crChanged x) with
  | some c => some c
  | none => if x.compat then none else order.head?

/-- The counts of a class's record: cumulative, or increments in compatibility mode (R148, R188). -/
def crCounts (x : Span) (c : Cls) : Nat × Nat :=
  if x.compat then
    ((cget x.freedH c + 4096 - cget x.crH c) % 4096, (cget x.freedD c + 65536 - cget x.crD c) % 65536)
  else (cget x.freedH c, cget x.freedD c)

/-- The record a flit sent now carries: only in UP (R148). -/
def crOut (q : Port) : Option Cls := if q.st == .up then crNext q.span else none

/-- The header of a flit sent now (R133, R148, R156, R157). Fields that a flit does not use are 0 (DESIGN CHOICE, log 75). -/
def slotHeader (q : Port) (type seq : Nat) (phase : Bool) : BitVec 64 :=
  let x := q.span
  let n := match crOut q with | some c => crCounts x c | none => (0, 0)
  mkHdr type seq phase (if x.ackDue.isSome then (x.exp + 4095) % 4096 else 0) x.ackDue.isSome (x.ackDue == some true)
    (crOut q).isSome ((crOut q).getD .req) n.1 n.2

/-- What a header sent leaves behind: no acknowledgement is due, and the record's counts are reported. -/
def headerSent (q : Port) (x : Span) : Span :=
  let x := { x with ackDue := none }
  match crOut q with
  | some c => { x with crPtr := clsNum c, crH := cset x.crH c (cget x.freedH c), crD := cset x.crD c (cget x.freedD c) }
  | none => x

/-- A flit goes out: while it would break the run guard, an IDLE flit takes its slot (R106). When the guard stops a flit and the
filler again and again, which the manual does not settle, the flit goes out (DESIGN CHOICE, log 75). -/
def sendSlots : Nat → Nat → Nat → Nat → Bool → Bytes → State → State
  | n, p, type, seq, phase, payload, s =>
    match getPort s p with
    | some q =>
      let coded := codedFlit (slotHeader q type seq phase) payload
      (match n with
       | 0 => setSpan p (headerSent q) (putFlit p coded s)
       | n + 1 =>
         if guardHolds s p q.widthNow coded then setSpan p (headerSent q) (putFlit p coded s)
         else
           sendSlots n p type seq phase payload
             (setSpan p (headerSent q) (putFlit p (codedFlit (slotHeader q 0 q.span.seq false) []) s)))
    | none => s

/-- A flit that takes no SEQ (R133, R134, R151). -/
def sendPlain (p type : Nat) (payload : Bytes) (s : State) : State :=
  sendSlots 4 p type (((getPort s p).map (·.span.seq)).getD 0) false payload s

/-- A sequenced flit, first sent or replayed (R153). -/
def sendSeq (p : Nat) (f : LFlit) (s : State) : State :=
  sendSlots 4 p (if f.ctrl.isSome then 2 else 1) f.seq f.phase f.payload s

/-! ## Payloads of training (R164, R168, R428, R429) -/

/-- The highest rate code an M5120 asks for (R165, R188). -/
def ownRate (compat : Bool) : Nat := if compat then 1 else 0

/-- A byte of a signed number. -/
def sbyte (v : Int) : Nat := unsigned 1 v

/-- A lane's entry of TRAIN (R164). -/
def trainLaneBytes (e : TrainLane) : Bytes :=
  [e.eqReq % 256, e.reqTag % 256, e.ansTag % 256, e.ansFlags % 2, sbyte e.cm1, sbyte e.cp1, 0, 0]

/-- The TRAIN payload (R164). -/
def trainBytes (t : Train) : Bytes :=
  fit 240 ([t.phase % 256, t.fdid % 256, b2n t.m1280 + 2 * b2n t.retained, 0] ++ le 8 t.serial ++ le 4 t.incarn
    ++ [t.maxWidth % 256, t.maxRate % 256, t.width % 256, t.rate % 256, 0, 0, 0, 0]
    ++ (t.lanes.take (min 16 t.width)).flatMap trainLaneBytes)

/-- A lane's entry of a received TRAIN payload. -/
def trainLaneOf (b : Bytes) : TrainLane :=
  let f := fun i => unle (slice b i 1)
  { eqReq := f 0, reqTag := f 1, ansTag := f 2, ansFlags := f 3 % 2, cm1 := signed 1 (f 4), cp1 := signed 1 (f 5) }

/-- A received TRAIN payload (R164). -/
def trainOf (b : Bytes) : Train :=
  let f := fun i => unle (slice b i 1)
  { phase := f 0, fdid := f 1, m1280 := bit (f 2) 0, retained := bit (f 2) 1, serial := unle (slice b 4 8),
    incarn := unle (slice b 12 4), maxWidth := f 16, maxRate := f 17, width := f 18, rate := f 19,
    lanes := (List.range 16).map fun l => trainLaneOf (slice b (24 + 8 * l) 8) }

/-- PHASE of the TRAIN flits a span sends: 1 until its own lanes are aligned, 2 from then on, 3 in EQ, 4 once its EQ is done (R162,
R164, R171; DEDUCED, log 33). -/
def phaseByte (s : State) (p : Nat) (q : Port) : Nat :=
  if q.st == .hold then 1
  else
    match q.span.phase with
    | .align => if (getLane s p).aligned then 2 else 1
    | .param => 2
    | .rate => 1
    | _ => if q.span.eqDone.1 then 4 else 3

/-- The TRAIN payload a span sends (R110, R162, R164). -/
def ownTrain (s : State) (p : Nat) (q : Port) : Train :=
  let x := q.span
  { phase := phaseByte s p q, fdid := s.boot.fdid, retained := x.retained, serial := s.nv.serial,
    incarn := if x.retained then x.incarn.getD 0 else x.proposal, maxWidth := q.width, maxRate := ownRate x.compat,
    width := x.tgt.1, rate := max x.tgt.2 (ownRate x.compat),
    lanes := (List.range x.tgt.1).map fun k =>
      let l := getLane s (p + k)
      { eqReq := if l.eqOut then l.eqReq else 0, reqTag := l.eqTag, ansTag := l.ansTag, ansFlags := b2n l.limit, cm1 := l.cm1,
        cp1 := l.cp1 } }

/-- A span sends a TRAIN flit. -/
def sendTrain (p : Nat) (s : State) : State :=
  match getPort s p with
  | some q => sendPlain p 8 (trainBytes (ownTrain s p q)) s
  | none => s

/-- The header credits a span advertises (R246). -/
def advHdr (q : Port) (c : Cls) : Nat := min 4095 (cget q.mins c / 4)
/-- The data credits a span advertises (R246). -/
def advData (q : Port) (c : Cls) : Nat := min 65535 (8 * (cget q.mins c - advHdr q c))

/-- Four numbers from a function of the class. -/
def forCls (f : Cls → Nat) : Cls4 := ⟨f .req, f .rsp, f .wr, f .mgt⟩

/-- The INIT payload (R168). -/
def initBytes (i : InitP) : Bytes :=
  fit 240 (le 4 i.incarn ++ le 2 i.lastAcc ++ [b2n i.seen + 2 * b2n i.retained, 0]
    ++ allCls.flatMap fun c => le 2 (cget i.advH c) ++ le 2 (cget i.advD c))

/-- A received INIT payload (R168). -/
def initOf (b : Bytes) : InitP :=
  let f := unle (slice b 6 1)
  { incarn := unle (slice b 0 4), lastAcc := unle (slice b 4 2), seen := bit f 0, retained := bit f 1,
    advH := forCls fun c => unle (slice b (8 + 4 * clsNum c) 2), advD := forCls fun c => unle (slice b (10 + 4 * clsNum c) 2) }

/-- Credits of a class the partner has not used: what was advertised, less what was received and not freed (R188, R189). -/
def freeHdr (q : Port) (c : Cls) : Nat := advHdr q c - (cget q.span.rcvH c + 4096 - cget q.span.freedH c) % 4096
def freeData (q : Port) (c : Cls) : Nat := advData q c - (cget q.span.rcvD c + 65536 - cget q.span.freedD c) % 65536

/-- The INIT payload a span sends (R146, R168, R188). -/
def ownInit (q : Port) : InitP :=
  let x := q.span
  let adv := fun (fresh free : Cls → Nat) => if x.retained then (if x.compat then forCls free else {}) else forCls fresh
  { incarn := x.incarn.getD 0, lastAcc := if x.retained then (x.exp + 4095) % 4096 else 0xFFFF, seen := x.initSeen,
    retained := x.retained, advH := adv (advHdr q) (freeHdr q), advD := adv (advData q) (freeData q) }

/-- A span sends an INIT flit; what a compatibility INIT advertises needs no increment any more (R188). -/
def sendInit (p : Nat) (s : State) : State :=
  match getPort s p with
  | some q =>
    let s := sendPlain p 10 (initBytes (ownInit q)) s
    if q.span.compat && q.span.retained then setSpan p (fun x => { x with crH := x.freedH, crD := x.freedD }) s else s
  | none => s

/-- A KEYX payload (R428). -/
def keyxBytes (msg frag nfrag : Nat) (gotAll : Bool) (data : Bytes) : Bytes :=
  fit 240 ([msg, frag, nfrag, b2n gotAll] ++ le 2 data.length ++ [0, 0] ++ data)

/-- The fragments of the cycle a span sends: HELLO, CERT, then SIG once it can be formed (R429, R430). -/
def keyxCycle (s : State) (x : Span) : List (Nat × Nat × Nat × Bytes) :=
  let cert := Crypto.blocks 232 (s.nv.certChain.take 4096)
  [(1, 0, 1, x.hello)] ++ cert.zipIdx.map (fun e => (2, e.2, cert.length, e.1)) ++ (if x.sig.isEmpty then [] else [(3, 0, 1, x.sig)])

/-- The next KEYX payload of a span (R430). -/
def nextKeyx (s : State) (x : Span) : Bytes :=
  let l := keyxCycle s x
  match l[x.keyxPos % max 1 l.length]? with
  | some (m, i, n, d) => keyxBytes m i n x.gotAll.1 d
  | none => []

/-- A span sends the next KEYX flit of its cycle; the M1280's exchange has flits of its own (R430, R433). -/
def sendKeyx (p : Nat) (s : State) : State :=
  match getPort s p with
  | some q =>
    if q.span.compat then emit (.kx1 p) s
    else setSpan p (fun x => { x with keyxPos := x.keyxPos + 1 }) (sendPlain p 9 (nextKeyx s q.span) s)
  | none => s

/-- What a span's transmitter sends in a slot with nothing else to send (R134, R162, R171). -/
def idleSlot (p : Nat) (s : State) : State :=
  match getPort s p with
  | some q =>
    if q.typ != .span then s
    else
      match q.st with
      | .up => sendPlain p 0 [] s
      | .hold => sendTrain p s
      | .training =>
        (match q.span.phase with
         | .keyx => sendKeyx p s
         | .init => sendInit p s
         | .failed => s
         | _ => sendTrain p s)
      | _ => s
  | none => s

/-! ## The receiver of the lanes (R102 to R105, R118 to R120) -/

/-- Symbols of a flit on each lane at a width (R102). -/
def flitSymbols (w : Nat) : Nat := 1088 / max 1 w

/-- An alignment word's place precedes the flit: in mission mode after 4,096 slots, in training where the word was received (R117,
R120, R163). -/
def wordPlace (q : Port) (rx : List (List Nat)) : Bool :=
  if q.st == .up then decide (4096 ≤ q.span.rxSlots) else rx.any fun l => decide (flitSymbols q.widthNow < l.length)

/-- The levels of the flit on a lane: after the word where one precedes it, with the lane's inversion undone (R119). -/
def flitLevels (q : Port) (l : Lane) (word : Bool) (rx : List Nat) : List Nat :=
  let n := flitSymbols q.widthNow
  let r := fit n (if word && decide (n < rx.length) then rx.drop 64 else rx)
  if l.inverted then r.map fun v => 3 - v else r

/-- The span lane that a lane of the port receives: in reversed order where training found it so (R119). -/
def rxLaneNo (l : Lane) (w k : Nat) : Nat := if l.reversed then w - 1 - k else k

/-- A lane's receive scrambler and last level as a slot begins: both start again at an alignment word's place (R103, R105, R120). -/
def rxStart (l : Lane) (word : Bool) (w k : Nat) : Nat × Nat :=
  if word then (scramSeed (rxLaneNo l w k), 0) else (l.rxScram, l.rxLevel)

/-- The coded flit that the levels on a span's lanes carry (R102 to R105). -/
def rxCoded (s : State) (p : Nat) (q : Port) (rx : List (List Nat)) : Bytes :=
  let w := q.widthNow
  let word := wordPlace q rx
  let rev := (getLane s p).reversed
  unstripe 272 ((List.range w).map fun j =>
    let k := if rev then w - 1 - j else j
    let l := getLane s (p + k)
    let e := rxStart l word w k
    laneBytes e.1 e.2 (flitLevels q l word (rx.getD k [])))

/-- The lanes' receivers after the slot. -/
def rxAdvance (p : Nat) (rx : List (List Nat)) (s : State) : State :=
  match getPort s p with
  | some q =>
    let w := q.widthNow
    let word := wordPlace q rx
    let s := (List.range w).foldl (fun s k =>
      let l := getLane s (p + k)
      let e := rxStart l word w k
      let lv := flitLevels q l word (rx.getD k [])
      setLane (p + k) (fun l => { l with rxScram := scramAfter (2 * lv.length) e.1, rxLevel := lv.getLastD e.2 }) s) s
    setSpan p (fun x => { x with rxSlots := if word then 1 else x.rxSlots + 1 }) s
  | none => s

/-- The flit that the levels on a span's lanes carry (R137, R138). -/
def lineFlit (s : State) (p : Nat) (rx : List (List Nat)) : RxFlit :=
  match getPort s p with
  | some q => decodeFlit (rxCoded s p q rx)
  | none => { fec := .uncorrectable, crcOk := false, hdr := 0 }

end Sys2Proof.Machine
end

