-- ==== Sys2Proof/Machine/Sched.lean ====
section
/-! DEFINITION. The scheduler of a port: charges, subscriber buckets and the Spiral wheel, Flights, readiness, the choice
of a message, and the start and end of its transmission (07_scheduling R289 to R310, R563; 04_span_link R142 to R154). -/

namespace Sys2Proof.Machine

open Sys2Proof

/-! ## Lengths (R302, R563) -/

/-- The wire length of a message at a port, with OVERHEAD 0. -/
def wireLen (q : Port) (m : Msg) : Nat :=
  match q.typ with
  | .span => ceilDiv ((1 + ceilDiv m.dlen 16) * 272) 14
  | _ => if q.flit then ceilDiv (m.dlen * 256) 236 else m.dlen + 8

/-- The charge L of a message at a port (R302, R303). -/
def chargeLen (q : Port) (m : Msg) : Nat := if q.sched.wire then wireLen q m + q.sched.overhead else m.dlen

/-- The transmission time of R563 in dc, rounded up to the first dc at or after its end. -/
def txTime (q : Port) (m : Msg) : Nat :=
  ceilDiv (16000 * wireLen q m * (dataRate q).2) (max 1 (dataRate q).1)

/-! ## Subscribers (R295 to R301) -/

/-- A bucket refilled over `dt` ns at `rate` Mb/s, in 2^-24 bytes, at most `cap` bytes (R296). -/
def refill (b : Int) (cap dt rate : Nat) : Int := min (cap * 2 ^ 24 : Nat) (b + (dt * rate * 2 ^ 24 / 8000 : Nat))

/-- The RATE in force of a subscriber (R300): on an H port the lower of its own and its bay's. -/
def subRate (s : State) (p n : Nat) (u : Sub) : Nat :=
  if n = 0 || !isType s .h p then u.rate
  else
    match (bayAt s p (n - 1)).bind (tget s.bays) with
    | some y => min u.rate y.tgt.rate
    | none => u.rate

/-- The wheel time of a negative bucket (R296). -/
def wheelTime (t : Nat) (b : Int) (rate : Nat) : Option Nat :=
  if b ≥ 0 then none else some (t + ceilDiv (b.natAbs * 8000) (max 1 rate * 2 ^ 24))

/-- Is a subscriber of a port eligible (R296, R300)? -/
def eligible (s : State) (p n : Nat) : Bool :=
  match (getPort s p).bind fun q => tget q.subs n with
  | some u => u.e.isNone && decide (0 < subRate s p n u)
  | none => false

/-- A subscriber as it stands changed, and its place on the wheel of its hall kept (R297). -/
def putSub (p n : Nat) (u : Sub) (s : State) : State :=
  let s := setPort p (fun q => { q with subs := tset q.subs n u }) s
  setHall (hallOf p) (fun h =>
    { h with wheel :=
        if u.e.isSome then (if h.wheel.contains (p, n) then h.wheel else h.wheel ++ [(p, n)])
        else h.wheel.filter (· != (p, n)) }) s

/-- The bucket under the values that a change of this cycle replaced, for what is charged in that cycle (R299). -/
def oldBucket (s : State) (u : Sub) : Option Int :=
  match u.was with
  | some (d, b) => if d = s.dc then some b else none
  | none => none

/-- A charge of `l` bytes (R296); in the cycle of a change it is made under the old values, and what is left goes on under the new
ones (R299). -/
def chargeSub (p n l : Nat) (s : State) : State :=
  match (getPort s p).bind fun q => tget q.subs n with
  | some u =>
    let t := nsNow s
    let rate := subRate s p n u
    (match oldBucket s u with
     | some b =>
       let old := b - (l * 2 ^ 24 : Nat)
       let b := min old (u.burst * 2 ^ 24 : Nat)
       putSub p n { u with b := b, tLast := t, e := wheelTime t b rate, was := some (s.dc, old) } s
     | none =>
       let b := refill u.b u.burst (t - u.tLast) rate - (l * 2 ^ 24 : Nat)
       putSub p n { u with b := b, tLast := t, e := wheelTime t b rate, was := none } s)
  | none => s

/-- A subscriber's rate in force changes from `old` to `new`, its burst to `burst` (R299). -/
def rerate (p n old new burst : Nat) (u : Sub) (s : State) : State :=
  let t := nsNow s
  let full := (oldBucket s u).getD (refill u.b u.burst (t - u.tLast) old)
  let b := min full (burst * 2 ^ 24 : Nat)
  let e := if u.e.isSome then (match wheelTime t b new with | some e => some e | none => some t) else none
  putSub p n { u with burst := burst, b := b, tLast := t, e := e, was := some (s.dc, full) } s

/-! ## Flights (R304 to R309) -/

/-- The mask at a place in a list of entries. -/
def maskAt : List (Nat × Nat) → Nat → Option Nat
  | [], _ => none
  | (m, d) :: r, pos => if pos < d then some m else maskAt r (pos - d)

/-- The cycle of a Flight. -/
def flightCycle (f : Flight) : Nat := f.entries.foldl (fun n e => n + e.2) 0

/-- The mask a Flight gives at a fabric time, if it has begun (R305). -/
def flightMask (f : Flight) (t : Nat) : Option Nat :=
  if f.entries.isEmpty then some 255
  else if t < f.start then none
  else maskAt f.entries ((t - f.start) % max 1 (flightCycle f))

/-- ns to the end of the entry at a place. -/
def toBoundary : List (Nat × Nat) → Nat → Nat
  | [], _ => 0
  | (_, d) :: r, pos => if pos < d then d - pos else toBoundary r (pos - d)

/-- The mask of gates a choice at a port uses now (R308, R309). -/
def gateMask (s : State) (q : Port) : Nat :=
  if s.ft.valid then (flightMask q.sched.flight (fabricNs s)).getD q.sched.mask else q.sched.mask

/-- The held mask follows the entry in force (R309). -/
def holdMask (p : Nat) (s : State) : State :=
  match getPort s p with
  | some q => setSched p (fun d => { d with mask := gateMask s q }) s
  | none => s

/-- The clock moves on until fabric time reaches `t`; each round makes up what the slew took. -/
def untilFabric : Nat → Nat → State → State
  | 0, _, s => s
  | n + 1, t, s => if t ≤ fabricNs s then s else untilFabric n t (clockTo (s.dc + 2 * (t - fabricNs s)) s)

/-- A pending Flight takes over (R306). -/
def takeover (p : Nat) (s : State) : State :=
  match (getPort s p).bind (·.sched.pendFlight) with
  | some f =>
    let s := setSched p (fun d => { d with flight := f, pendFlight := none }) s
    endOp (.flight p) 0 (le 8 (fabricNs s)) (holdMask p s)
  | none => s

/-! ## Credits and readiness (R145, R247, R290) -/

/-- A span's transmitter may send a new DATA flit (R152, R177, R182, R186). -/
def spanOpen (q : Port) : Bool :=
  decide (q.span.landing.length < 2048) && q.scfg.rs.req.isNone && q.scfg.rs.agreed.isNone
    && decide (q.scfg.keys.txN < 2 ^ 32) && !q.scfg.rs.half

/-- The port holds the whole credit of a message (R145, R290). -/
def creditOk (q : Port) (fc : Fc) (m : Msg) : Bool :=
  match q.typ with
  | .span => decide (1 ≤ spanHdr q m.cls) && decide (dataCredits m ≤ spanData q m.cls)
  | _ => decide (1 ≤ cget fc.hdr m.cls) && decide (ceilDiv m.dlen 16 ≤ cget fc.data m.cls)

/-- The port's transmitter can start a message (R563, R218). -/
def txIdle (q : Port) : Bool :=
  q.st == .up && q.sched.sending.isNone && !q.std.l1 && (q.typ != .span || spanOpen q)

/-- The head descriptor's message. -/
def headMsg (s : State) (h leaf : Nat) : Option (Nat × Stored) :=
  match leafQ s h leaf with
  | .desc mid :: _ => (tget s.cells mid).map fun x => (mid, x)
  | _ => none

/-- A leaf is ready (R290). -/
def leafReady (s : State) (p : Nat) (q : Port) (fc : Fc) (leaf : Nat) : Option LeafCfg :=
  match headMsg s (hallOf p) leaf, leafCfg s (hallOf p) leaf with
  | some (_, x), some c =>
    if eligible s p c.sub && bit (gateMask s q) c.service && creditOk q fc x.msg then some c else none
  | _, _ => none

/-! ## The choice (R291, R292) -/

/-- The next number after `last` in ascending order with wrap among candidates. -/
def nextAfter (last n : Nat) (l : List Nat) : Option Nat :=
  l.foldl (fun best k =>
    match best with
    | none => some k
    | some b => if (k + 2 * n - last - 1) % n < (b + 2 * n - last - 1) % n then some k else some b) none

/-- The ready leaves of a port with their bindings. -/
def readyLeaves (s : State) (p : Nat) (q : Port) (fc : Fc) : List (Nat × LeafCfg) :=
  (portLeaves s p).filterMap fun l => (leafReady s p q fc l).map fun c => (l, c)

/-- The candidate of a service: subscriber by rotation, then leaf by rotation (R291). -/
def candidate (q : Port) (ready : List (Nat × LeafCfg)) (sv : Nat) : Option (Nat × Nat) :=
  let r := ready.filter fun e => e.2.service == sv
  match nextAfter (tgetD q.sched.lastSub sv 4095) 4096 (r.map (·.2.sub)) with
  | some u =>
    let ls := (r.filter fun e => e.2.sub == u).map (·.1)
    (nextAfter (tgetD q.sched.lastLeaf (8 * u + sv) 4095) 4096 ls).map fun l => (u, l)
  | none => none

/-- The charge of a leaf's head message at its port. -/
def headCharge (s : State) (p : Nat) (q : Port) (leaf : Nat) : Nat :=
  match headMsg s (hallOf p) leaf with
  | some (_, x) => chargeLen q x.msg
  | none => 0

/-- A number of services 2 to 7. -/
def svGet (l : List Nat) (sv d : Nat) : Nat := l[sv - 2]?.getD d

/-- The deficit rule: the scheduler after it and the service it chose (R292). -/
def deficitRound (s : State) (p : Nat) (q : Port) (ready : List (Nat × LeafCfg)) : Nat → Sched → Sched × Option Nat
  | 0, d => (d, none)
  | n + 1, d =>
    let sv := d.ptr
    let skip := { d with fresh := d.fresh.set (sv - 2) true, ptr := if sv ≥ 7 then 2 else sv + 1 }
    match candidate q ready sv with
    | some (_, leaf) =>
      let d := if d.fresh[sv - 2]?.getD true then
          { d with deficit := d.deficit.set (sv - 2) (svGet d.deficit sv 0 + 8192 * svGet d.weights sv 16),
                   fresh := d.fresh.set (sv - 2) false }
        else d
      let l := headCharge s p q leaf
      if l ≤ svGet d.deficit sv 0 then ({ d with deficit := d.deficit.set (sv - 2) (svGet d.deficit sv 0 - l) }, some sv)
      else deficitRound s p q ready n { d with fresh := d.fresh.set (sv - 2) true, ptr := if sv ≥ 7 then 2 else sv + 1 }
    | none => deficitRound s p q ready n skip

/-- The choice of R291: the scheduler after it, and service, subscriber and leaf. -/
def choose (s : State) (p : Nat) (q : Port) (fc : Fc) : Sched × Option (Nat × Nat × Nat) :=
  let ready := readyLeaves s p q fc
  match candidate q ready 0 with
  | some (u, l) => (q.sched, some (0, u, l))
  | none =>
    match candidate q ready 1 with
    | some (u, l) => (q.sched, some (1, u, l))
    | none =>
      if ready.isEmpty then (q.sched, none)
      else
        match deficitRound s p q ready 14 q.sched with
        | (d, some sv) => (d, (candidate q ready sv).map fun c => (sv, c.1, c.2))
        | (d, none) => (d, none)

/-- A service whose leaves hold no descriptor has its deficit 0 and its fresh flag set (R292). -/
def idleServices (p : Nat) (s : State) : State :=
  let busy := fun sv => (portLeaves s p).any fun l =>
    (leafQ s (hallOf p) l).any isDesc && ((leafCfg s (hallOf p) l).map (·.service)) == some sv
  setSched p (fun d => { d with
    deficit := d.deficit.zipIdx.map fun e => if busy (e.2 + 2) then e.1 else 0,
    fresh := d.fresh.zipIdx.map fun e => if busy (e.2 + 2) then e.1 else true }) s

/-! ## Transmission (R142, R144 to R154, R563) -/

/-- A KEY_NEXT message: an MGT message of KIND 3; its body is the model's own mark (log 15). -/
def keyNextBody (idx : Nat) : Bytes := [0x4E, idx % 256, idx / 256 % 256]
def isKeyNext (m : Msg) : Bool := m.cls == .mgt && m.kind == 3 && m.body.head? == some 0x4E

/-- dc a run of `n` flits takes at a port's width in force and rate code (R130). -/
def flitTime (q : Port) (n : Nat) : Nat := ceilDiv (17 * 2 ^ (q.rate - 7) * n) (max 1 q.widthNow)

/-- A replay of the whole Landing, of a span in UP: the stored bytes again, under headers of their own (R153, R159, R160). -/
def startReplay (p : Nat) (s : State) : State :=
  match getPort s p with
  | some q =>
    if q.st != .up || q.span.landing.isEmpty then s
    else
      let s := bumpPort p oReplay 1 (setSpan p (fun x => { x with
        replayEnd := s.dc + flitTime q x.landing.length, replayAt := s.dc, replayDue := none, idleAt := s.dc }) s)
      q.span.landing.foldl (fun s f => sendSeq p f s) s
  | none => s

/-- A replay that the timer has made due begins in the next slot (R159, R160). -/
def settleReplay (p : Nat) (s : State) : State :=
  if ((getPort s p).bind (·.span.replayDue)).isSome then
    startReplay p (setSpan p (fun x => { x with replayDue := none }) s)
  else s

/-- A sequenced flit is first sent: its body is sealed under the next SEQ and N, and it enters the Landing (R151 to R153, R184);
the first one under a new key ends a SPAN_REKEY (R96). -/
def pushFlit (p : Nat) (ctrl : Option (Nat × Nat × Nat)) (seg : Option Seg) (entry : Option (Nat × Nat)) (body : Bytes)
    (s : State) : State :=
  let s := settleReplay p s
  match getPort s p with
  | some q =>
    let k := q.scfg.keys
    let f : LFlit :=
      { seq := q.span.seq, phase := k.txPhase, ctrl := ctrl, n := k.txN, seg := seg, entry := entry,
        payload := sealBody k ctrl.isSome q.span.seq body }
    let s := setSpan p (fun x => { x with
      seq := (x.seq + 1) % 4096, landing := x.landing ++ [f], idleAt := s.dc,
      replayAt := if x.landing.isEmpty then s.dc else x.replayAt,
      stallAt := if x.landing.isEmpty then s.dc else x.stallAt }) s
    let s := setScfg p (fun c => { c with keys := { c.keys with txN := c.keys.txN + 1 } }) s
    let s := sendSeq p f s
    let s := if f.n + 1 = 2 ^ 32 then fireDegr p 9 s else s
    if f.n = 0 then endOp (.rekey p) 0 [] s else s
  | none => s

/-- A CTRL flit: sent, or kept until the Landing has room and the key may be used (R152, R177, R186). -/
def pushCtrl (p op w r : Nat) (s : State) : State :=
  match getPort s p with
  | some q =>
    if q.span.landing.length < 2048 && decide (q.scfg.keys.txN < 2 ^ 32) then
      pushFlit p (some (op, w, r)) none none
        (ctrlBody { op := op, width := w, rate := r, maxWidth := q.width, maxRate := ownRate q.span.compat }) s
    else setScfg p (fun c => { c with rs := { c.rs with due := some (op, w, r) } }) s
  | none => s

/-- An end begins a resize: RESIZE_REQ (R177). -/
def requestResize (p w r : Nat) (auto : Bool) (s : State) : State :=
  let s := setScfg p (fun c => { c with rs := { c.rs with req := some (w, r), auto := auto } }) s
  pushCtrl p 1 w r s

/-- The target width of R182. -/
def homeWidth (q : Port) : Nat := if q.span.homeW = 0 then q.width else q.span.homeW

/-- A message is ready for a span at half width by R182: its end requests the target width. -/
def wakeHalf (p : Nat) (s : State) : State :=
  match getPort s p with
  | some q =>
    if q.st == .up && q.scfg.rs.half && q.scfg.rs.req.isNone && q.scfg.rs.agreed.isNone then
      requestResize p (homeWidth q) (q.rate - 7) true s
    else s
  | none => s

/-- The same for a message that is partly sent. -/
def wakeRest (p : Nat) (s : State) : State :=
  match (getPort s p).bind (·.sched.sending) with
  | some x => if x.flits < flitsOf x.msg then wakeHalf p s else s
  | none => s

/-- The slots of a message go into its next flit. -/
def pushSeg (p : Nat) (m : Msg) (entry : Option (Nat × Nat)) (k : Nat) (s : State) : State :=
  let seq := ((getPort s p).map (·.span.seq)).getD 0
  let s := pushFlit p none (some (segOf m k)) entry (segBody m k) s
  match getPort s p with
  | some q =>
    if isKeyNext m && k + 1 = flitsOf m then
      setScfg p (fun c => { c with keys := { loadTx s q.span (unle (slice m.body 1 2)) c.keys with
        txPhase := !c.keys.txPhase, nextSeq := some (some seq) } }) s
    else s
  | none => s

/-- Flits of a message that remain, while the Landing and the span's state admit them (R152, R177). -/
def pushRest (p : Nat) : Nat → State → State
  | 0, s => s
  | n + 1, s =>
    match getPort s p with
    | some q =>
      match q.sched.sending with
      | some x =>
        if q.st == .up && spanOpen q && decide (x.flits < flitsOf x.msg) then
          let s := setSched p (fun d => { d with sending := some { x with flits := x.flits + 1 } }) s
          pushRest p n (pushSeg p x.msg x.entry x.flits s)
        else s
      | none => s
    | none => s

/-- A span takes the credits of a message (R145, R147). -/
def takeCredits (p : Nat) (m : Msg) (s : State) : State :=
  setSpan p (fun x => { x with
    consH := cset x.consH m.cls ((cget x.consH m.cls + 1) % 4096),
    consD := cset x.consD m.cls ((cget x.consD m.cls + dataCredits m) % 65536),
    sentAt := cset x.sentAt m.cls s.dc }) s

/-- Poisoned completions of failing read parts leave once the parts before them are complete (R448). -/
def releaseHeld (p tag : Nat) (s : State) : State :=
  match getPort s p with
  | some q =>
    let left := (s.gn.acc.filter (liveRead p tag)).length
    let go := q.std.heldCpl.filter fun e => e.1.tag == tag && decide (left ≤ e.2)
    go.foldl (fun s e => sendCompletion p e.1 s)
      (setStd p (fun d => { d with heldCpl := d.heldCpl.filter fun e => !go.contains e }) s)
  | none => s

/-- A port starts sending a message (R144, R154, R563): its cells begin to leave (R240). A request that leaves an edge port is
outstanding there. -/
def startTx (p : Nat) (m : Msg) (mid : Option Nat) (entry : Option (Nat × Nat)) (s : State) : State :=
  match getPort s p with
  | some q =>
    if q.typ == .span then
      if m.ttl ≤ 1 then
        let s := (match mid with | some k => dropRef k (retireMid false k s) | none => s)
        fireDegr p 4 (bumpPort p oTtlDrop 1 (emit (.drop p m) s))
      else
        let m := { m with ttl := m.ttl - 1 }
        let s := (match mid with | some k => beginLeave p k s | none => s)
        let s := takeCredits p m s
        let s := setSched p (fun d => { d with sending := some { msg := m, endDc := s.dc + txTime q m, mid := mid, entry := entry } }) s
        pushRest p 1 s
    else
      let s := (match mid with | some k => beginLeave p k s | none => s)
      let s := setSched p (fun d => { d with sending := some { msg := m, endDc := s.dc + txTime q m, mid := mid, entry := entry } }) s
      let s := if m.np then setStd p (fun d => { d with np := d.np ++ [{ msg := m }] }) s else s
      let s := noteTlp p (endOwn p m s)
      releaseHeld p m.tag (retireRead p m (emit (.sendMsg p m) s))
  | none => s

/-- An egress pipe gives each dc to one of its ports: a port starts a message in the first dc that its pipe has not given to another
(R289; only starts contend, log 86). -/
def takePipe (p : Nat) (s : State) : State :=
  let h := getHall s (hallOf p)
  let s := match tget h.pipeAt (pipeOf p) with
    | some (d, k) => if s.dc ≤ d && k != p then clockTo (d + 1) s else s
    | none => s
  setHall (hallOf p) (fun h => { h with pipeAt := tset h.pipeAt (pipeOf p) (s.dc, p) }) s

/-- MESSAGE_TRANSMIT_START (R289, R291): the scheduler chooses a ready leaf and its head message starts. -/
def execMessageTransmitStart (port : Nat) (fc : Fc) (s : State) : Host.Outcome State Fault Refusal :=
  act s fun s =>
    match getPort s port with
    | some q =>
      if q.scfg.rs.half && !(readyLeaves s port q fc).isEmpty then wakeHalf port s
      else if !txIdle q then s
      else
        let s := takePipe port s
        match choose s port q fc with
        | (_, none) => s
        | (d, some (sv, u, leaf)) =>
          match headMsg s (hallOf port) leaf with
          | some (mid, x) =>
            let d := { d with lastSub := tset d.lastSub sv u, lastLeaf := tset d.lastLeaf (8 * u + sv) leaf }
            let s := setSched port (fun _ => d) s
            let s := setLeafQ (hallOf port) leaf (leafQ s (hallOf port) leaf).tail s
            let s := chargeSub port u (chargeLen q x.msg) s
            let s := idleServices port s
            startTx port x.msg (some mid) x.entry s
          | none => s
    | none => s

/-- TRANSMISSION_END (R563): the message's transmission time has passed; on a span its last slots are in the Landing. Its cells
are free (R240, R251). -/
def execTransmissionEnd (port : Nat) (s : State) : Host.Outcome State Fault Refusal :=
  act s fun s =>
    match getPort s port with
    | some q =>
      match q.sched.sending with
      | some x =>
        let s := clockTo x.endDc s
        let s := if q.typ == .span then wakeRest port (pushRest port (flitsOf x.msg) s) else s
        let done := q.typ != .span
          || ((getPort s port).bind (·.sched.sending)).any fun y => decide (flitsOf y.msg ≤ y.flits)
        if done then
          let s := setSched port (fun d => { d with sending := none }) s
          let s := noteTlp port s
          (match x.mid with | some k => endLeave k (retireMid true k s) | none => s)
        else s
      | none => s
    | none => s

/-- FENCE_REMOVAL (R256, R257): the fences of a leaf whose old messages have left. -/
def execFenceRemoval (hall leaf : Nat) (s : State) : Host.Outcome State Fault Refusal :=
  act s fun s => setLeafQ hall leaf (trimFences s hall (leafQ s hall leaf)) s

/-- A pair put into a list by its first number, after those of equal number. -/
def insertBy (e : Nat × (Nat × Nat)) : List (Nat × (Nat × Nat)) → List (Nat × (Nat × Nat))
  | [] => [e]
  | f :: r => if e.1 < f.1 then e :: f :: r else f :: insertBy e r

/-- The subscribers of a hall's wheel by their time, in the order entered for equal times. -/
def wheelOrder (s : State) (h : Nat) : List (Nat × (Nat × Nat)) :=
  ((getHall s h).wheel.filterMap fun k =>
    match (getPort s k.1).bind fun q => tget q.subs k.2 with
    | some u => u.e.map fun e => (e, k)
    | none => none).foldl (fun l e => insertBy e l) []

/-- One CLK_S cycle of a wheel at time `t`: up to 8 subscribers due are released, late ones counted (R298). -/
def wheelCycle (h : Nat) (s : State) : State :=
  let t := nsNow s
  let due := ((wheelOrder s h).filter fun e => e.1 ≤ t).take 8
  let s := due.foldl (fun s e =>
    match (getPort s e.2.1).bind fun q => tget q.subs e.2.2 with
    | some u => putSub e.2.1 e.2.2 { u with e := none } s
    | none => s) s
  let late := (due.filter fun e => e.1 < t).length
  let s := setHall h (fun x => { x with wheelAt := some t }) s
  if late = 0 then s else bumpHall h oWheelLate late s

/-- WHEEL_RELEASE (R298): the next CLK_S cycle in which the wheel of a hall has a subscriber due. -/
def execWheelRelease (hall : Nat) (s : State) : Host.Outcome State Fault Refusal :=
  act s fun s =>
    match wheelOrder s hall with
    | [] => s
    | e :: _ =>
      let s := clockTo (2 * e.1) s
      let s := if (getHall s hall).wheelAt == some (nsNow s) then clockTo (2 * (nsNow s + 1)) s else s
      wheelCycle hall s

/-- FLIGHT_ENTRY_BOUNDARY (R305, R308): the gates of a port follow the entry in force, at the next boundary when the
present entry already stands. -/
def execFlightEntryBoundary (port : Nat) (s : State) : Host.Outcome State Fault Refusal :=
  act s fun s =>
    match getPort s port with
    | some q =>
      let f := q.sched.flight
      if !s.ft.valid || f.entries.isEmpty then s
      else
        let t := fabricNs s
        let s := if gateMask s q != q.sched.mask then s
          else if t < f.start then untilFabric 8 f.start s
          else untilFabric 8 (t + toBoundary f.entries ((t - f.start) % max 1 (flightCycle f))) s
        holdMask port s
    | none => s

/-- FLIGHT_TAKEOVER (R306, R309): a pending Flight takes over once fabric time, if valid, has reached its START. -/
def execFlightTakeover (port : Nat) (s : State) : Host.Outcome State Fault Refusal :=
  act s fun s =>
    match (getPort s port).bind (·.sched.pendFlight) with
    | some f => if s.ft.valid then takeover port (untilFabric 8 f.start s) else s
    | none => s

end Sys2Proof.Machine
end

