-- ==== Sys2Proof/Machine/Ingress.lean ====
section
/-! DEFINITION. Ingress: meters, admission, cut-through, multicast, group pauses, engine and core messages waiting for
room, management broadcasts (06_switch_core R245 to R278, 07_scheduling R318 to R324). -/

namespace Sys2Proof.Machine

open Sys2Proof

/-! ## Messages of engines and of the central die (R248) -/

/-- The account of an engine's message: its reserve, else the pool down to the floor, else none (R248, R568). -/
def engineAcct (s : State) (e k : Nat) : Option Acct :=
  if (getEngine s e).resUse + k ≤ 256 then some (.engine e)
  else if aboveFloor s (e / 8) k then some (.pool none) else none

/-- A message that waited under `tok` is stored under `mid`: its write and its checked access are known by `mid`. -/
def bindTok (x : EngMsg) (mid : Nat) (s : State) : State :=
  let s := match x.place with | some p => { s with places := tset s.places mid p } | none => s
  match x.tok with
  | some t => setGn (fun g => { g with acc := g.acc.map fun a => if a.mid == some t then { a with mid := some mid } else a }) s
  | none => s

/-- A Gallery packet of a function whose H port has no PID stays within the device (R207). -/
def galLocal (s : State) (m : Msg) : Bool :=
  match (galBay s m).bind (bayPort s) with
  | some p => ((getPort s p).bind (·.pid)).isNone
  | none => false

/-- A message of an engine, stored and queued, when it has room. -/
def engineTry (e : Nat) (x : EngMsg) (s : State) : Option State :=
  let m := x.msg
  let s := settleCross s
  (engineAcct s e (cellsOf m)).map fun a =>
    storeRouted { msg := m, hall := e / 8, cells := cellsOf m, acct := a, src := engineSource e }
      (match x.port with | some p => .port p | none => routePid s (galLocal s m) m) (bindTok x s.nextMid s)

/-- An engine gives a message to the switch; it waits behind others, or for room, in its engine (R248). -/
def enginePut (e : Nat) (x : EngMsg) (s : State) : State :=
  let wait := setEngine e (fun g => { g with outQ := g.outQ ++ [x] }) s
  if (getEngine s e).outQ.isEmpty then (engineTry e x s).getD wait else wait

/-- An engine sends a packet along the route of its DPID. -/
def engineSend (e : Nat) (m : Msg) (s : State) : State := enginePut e { msg := m } s

/-- A message of the management core toward a port, when its hall has room: charged to the shared pool (R248). -/
def coreTry (p : Nat) (m : Msg) (s : State) : Option State :=
  let k := cellsOf m
  let s := settleCross s
  if aboveFloor s (hallOf p) k then
    some (storeAndPlace { msg := m, hall := hallOf p, cells := k, acct := .pool none, src := coreSource } p s)
  else none

/-- The management core sends a message toward a port. -/
def coreSend (p : Nat) (m : Msg) (s : State) : State :=
  let wait := { s with coreQ := s.coreQ ++ [(p, m)] }
  if s.coreQ.isEmpty then (coreTry p m s).getD wait else wait

/-- ENGINE_MESSAGE_WAIT (R248): the first message that waits in an engine (source 512 + e) or in the management core (640)
enters the switch when it has room. -/
def execEngineMessageWait (source : Nat) (s : State) : Host.Outcome State Fault Refusal :=
  act s fun s =>
    if source = coreSource then
      match s.coreQ with
      | (p, m) :: r => (coreTry p m { s with coreQ := r }).getD s
      | [] => s
    else if 512 ≤ source && source < 576 then
      match (getEngine s (source - 512)).outQ with
      | m :: r => (engineTry (source - 512) m (setEngine (source - 512) (fun g => { g with outQ := r }) s)).getD s
      | [] => s
    else s

/-! ## Meters (R318 to R324) -/

/-- The meter of an ingress port and subscriber (R318). -/
def findMeter (s : State) (p sub : Nat) : Option (Nat × Meter) :=
  (getHall s (hallOf p)).meters.find? fun e => e.2.port == p % 64 && e.2.sub == sub

def setMeter (h k : Nat) (f : Meter → Meter) (s : State) : State := setHall h (fun x => { x with meters := tmod x.meters k f }) s

/-- The buckets of a meter refilled to time `t` at its rates (R320). -/
def meterRefill (x : Meter) (t : Nat) : Meter :=
  { x with tc := (refill x.tc x.cbs (t - x.tLast) x.cir).toNat, tp := (refill x.tp x.pbs (t - x.tLast) x.pir).toNat,
           tLast := t }

/-- A meter as the tests of the CLK_S cycle of a METER_SET see it: under its old values (R324). -/
def meterInForce (s : State) (x : Meter) : Meter :=
  match x.was with
  | some (d, o) =>
    if d = nsNow s then
      { x with cir := o.cir, pir := o.pir, cbs := o.cbs, pbs := o.pbs, actY := o.actY, actR := o.actR, tc := o.tc, tp := o.tp }
    else x
  | none => x

/-- What such a test leaves of the meter `x`: its buckets, limited to the new sizes (R324). -/
def meterBack (s : State) (x tested : Meter) : Meter :=
  match x.was with
  | some (d, o) =>
    if d = nsNow s then
      { x with tc := min tested.tc (x.cbs * 2 ^ 24), tp := min tested.tp (x.pbs * 2 ^ 24), tLast := tested.tLast,
               defer := tested.defer, was := some (d, { o with tc := tested.tc, tp := tested.tp }) }
    else tested
  | none => tested

/-- The colour of a charge against refilled buckets: 0 green, 1 yellow, 2 red (R320). -/
def meterColour (x : Meter) (l : Nat) : Nat :=
  if x.tp < l * 2 ^ 24 then 2 else if x.tc < l * 2 ^ 24 then 1 else 0

/-- Traffic a meter may discard: a Gallery datagram, an MGT statistics message (R321). -/
def discardable (m : Msg) : Bool :=
  (m.kind == 2 && (match m.gal with | some g => g.op == 5 | none => false))
    || (m.kind == 3 && m.cls == .mgt && (match m.body with | b :: _ => bit b 7 | [] => false))

/-- The action of a colour: 0 FORWARD, 1 MARK, 2 DEFER, 3 DISCARD, before R321 replaces a DISCARD (R321). -/
def colourAction (x : Meter) (c : Nat) : Nat := if c = 0 then 0 else if c = 1 then x.actY else x.actR

/-- The action applied: a DISCARD of traffic that may not be discarded is DEFER. -/
def appliedAction (x : Meter) (c : Nat) (m : Msg) : Nat :=
  let a := colourAction x c
  if a = 3 && !discardable m then 2 else a

/-- The buckets of a meter after a test that settles its action (R320). -/
def meterDebit (x : Meter) (c l : Nat) : Meter :=
  let l := l * 2 ^ 24
  if c = 0 then { x with tp := x.tp - l, tc := x.tc - l } else if c = 1 then { x with tp := x.tp - l } else x

/-- A test that settles its action: the meter in its new state, with the colour counted (R320, R321). -/
def settleMeter (h k c : Nat) (x : Meter) (s : State) : State := bump (.meter h k (min 2 c)) 1 (setMeter h k (fun _ => x) s)

/-- The message with the congestion mark of MARK (R321). -/
def markMsg (m : Msg) : Msg := { m with gal := m.gal.map fun g => { g with ce := true } }

/-! ## Where an arrival goes -/

/-- The D port behind a virtual bridge of a VH for a message (R199, R201, R204): completions still pass a binding that
VH_UNBIND drains. -/
def bridgePort (s : State) (hport n : Nat) (m : Msg) : Option Nat :=
  (s.ports.find? fun e => inUse s hport && e.2.std.binds.any fun b =>
    b.2.hport == hport && b.2.bridge == n && b.2.active && (!b.2.unbound || m.cls == .rsp)).map (·.1)

/-- The H port a D port's message goes up to (R199). -/
def upstreamPort (s : State) (dport ld : Nat) (m : Msg) : Option Nat :=
  match getPort s dport with
  | some q =>
    match tget q.std.binds ld with
    | some b => if b.active && inUse s b.hport && (!b.unbound || m.cls == .rsp) then some b.hport else none
    | none => none
  | none => none

/-- The route of an arrival at a port; the flag tells a missing device below a bridge (R204) from a missing route. A message of
class REQ or RSP that a span delivers with MC 1 has no route: multicast carries WR, and broadcasts are MGT (R271 is silent on
it; DESIGN CHOICE, log 72). -/
def routeArrival (s : State) (p : Nat) (a : Arrival) : Egress × Bool :=
  match a.goes with
  | some t => (.port t, false)
  | none =>
  match a.dest with
  | .bridge n =>
    (match bridgePort s p n a.msg with | some d => (.port d, false) | none => (.none, true))
  | .upstream ld =>
    (match upstreamPort s p ld a.msg with | some h => (.port h, false) | none => (.none, true))
  | .own => (.engine, false)
  | .nowhere => (.none, true)
  | .pid _ =>
    if isType s .span p && a.msg.mc then
      (if a.msg.cls == .wr then .mcast a.msg.group else .none, false)
    else
      (routePid s (!isType s .span p && ((getPort s p).bind (·.pid)).isNone) a.msg, false)

/-- The port an egress sends by now, if it is one port (R319). -/
def egressPort (s : State) : Egress → Option Nat
  | .port p => some p
  | .spray p => some p
  | .entry g j => entryMember s g j
  | _ => none

/-- The subscriber of a message (R319). -/
def egressSub (s : State) (src : Nat) (e : Egress) (c : Cls) : Nat :=
  match egressPort s e with
  | some p => ((leafCfg s (hallOf p) (flowLeaf s src p c)).map (·.sub)).getD 0
  | none => 0

/-! ## Multicast (R271 to R276) -/

/-- The targets of a multicast message entering at a port (R272 step 2). -/
def mcastTargets (s : State) (p grp : Nat) : List Nat :=
  let mates := match groupOf s p with
    | some g => (match tget s.groups g with | some x => x.members | none => [])
    | none => [p]
  (tgetD s.mcast grp []).filter fun t => t != p && !mates.contains t

/-! ## Admission -/

/-- The account of an arrival and the port whose credits wait for its last cell: the account of R150, the class minimum of
a deferred message, or by R245. -/
def arrivalAcct (s : State) (p : Nat) (a : Arrival) (deferred : Bool) : Acct × Option Nat :=
  match a.ovr with
  | some x => (x, some p)
  | none => if deferred then (.min p a.msg.cls, some p) else admitAcct s p a.msg

/-- The first write of an H port without a message is the one of the message now stored (R453). -/
def bindAccess (p mid : Nat) : List Access → List Access
  | [] => []
  | a :: r => if a.port = p && a.write && a.mid.isNone then { a with mid := some mid } :: r else a :: bindAccess p mid r

/-- The first write of an H port without a message ends with its message. -/
def dropAccess (p : Nat) : List Access → List Access
  | [] => []
  | a :: r => if a.port = p && a.write && a.mid.isNone then r else a :: dropAccess p r

/-- An arrival enters the cell buffer: charged, its credits released at once when the pool took it (R245). Its number is
`s.nextMid` of the state before. -/
def enterCore (p : Nat) (a : Arrival) (m : Msg) (e : Egress) (deferred : Bool) (s : State) : State :=
  let (acct, cred) := arrivalAcct s p a deferred
  let entry := match e with | .entry g j => some (g, j) | _ => none
  let mid := s.nextMid
  let s := store { msg := m, hall := hallOf p, cells := cellsOf m, acct := acct, src := flowSource s p, cred := cred,
                   entry := entry, route := e } s
  let s := if cred.isNone then releaseCred p m s else s
  if a.acc then setGn (fun g => { g with acc := bindAccess p mid g.acc }) s else s

/-- An arrival ends at ingress: its credits are released at once and its access ends. -/
def endArrival (p : Nat) (a : Arrival) (s : State) : State :=
  let s := releaseCred p a.msg s
  if a.acc then setGn (fun g => { g with acc := dropAccess p g.acc }) s else s

/-! ## Cut-through (R250, R251, R301) -/

/-- The egress port is idle as R250 asks: no descriptor, no fence, no transmission. -/
def egressIdle (s : State) (p : Nat) : Bool := (portLeaves s p).all fun l => (leafQ s (hallOf p) l).isEmpty

/-- Rates of ingress and egress as R250 compares them. -/
def rateOk (qi qe : Port) : Bool := decide ((dataRate qe).1 * (dataRate qi).2 ≤ (dataRate qi).1 * (dataRate qe).2)

/-- Every condition of R250 for a unicast message of an admitting meter action. -/
def cutOk (s : State) (p : Nat) (e : Egress) (m : Msg) (fc : Fc) : Bool :=
  match getPort s p, (egressPort s e).bind (getPort s), egressPort s e with
  | some qi, some qe, some pe =>
    let leaf := flowLeaf s (flowSource s p) pe m.cls
    let paused := match e with | .entry g j => (entryPause s g j).isSome | _ => false
    (qi.typ == .span || qi.flit) && txIdle qe && egressIdle s pe && creditOk qe fc m
      && (match leafCfg s (hallOf pe) leaf with
          | some c => eligible s pe c.sub && bit (gateMask s qe) c.service
          | none => false)
      && rateOk qi qe && linkIdle s (hallOf p) (hallOf pe) && !owedBefore s s.nextMid (flowSource s p) pe m.cls && !paused
  | _, _, _ => false

/-- A message forwarded by cut-through: charged and freed as it leaves, its subscriber charged, its deficit not. -/
def cutThrough (pe mid : Nat) (x : Stored) (s : State) : State :=
  let sub := ((leafCfg s (hallOf pe) (flowLeaf s x.src pe x.msg.cls)).map (·.sub)).getD 0
  let l := ((getPort s pe).map fun q => chargeLen q x.msg).getD 0
  let s := chargeSub pe sub l s
  startTx pe x.msg (some mid) x.entry s

/-! ## MESSAGE_INGRESS -/

/-- A message without route or device: a non-posted request is completed, a posted one discarded (R204, R208). -/
def noDestination (p : Nat) (a : Arrival) (below : Bool) (s : State) : State :=
  let s := endArrival p a s
  let s := if below then aer p (match a.dest with | .bridge n => some n | _ => none) 1 s
    else fireDegr p 11 (bumpHall (hallOf p) oNoRoute 1 s)
  if a.msg.np then sendCompletion p (completionOf { a.msg with rport := some p }) s else emit (.drop p a.msg) s

/-- A message whose meter action is settled as FORWARD or MARK: cut through, or stored and queued, held or replicated. -/
def forwardArrival (p : Nat) (a : Arrival) (m : Msg) (e : Egress) (fc : Fc) (s : State) : State :=
  match e with
  | .mcast grp =>
    let m := { m with mc := true, group := grp }
    let mid := s.nextMid
    let (targets, s) := liveTargets (hallOf p) (mcastTargets s p grp) s
    let s := enterCore p a m e false s
    (match tget s.cells mid with
     | some x => replicate mid x targets s
     | none => s)
  | _ =>
    let cut := cutOk s p e m fc
    let pe := egressPort s e
    let mid := s.nextMid
    let s := enterCore p a m e false s
    match tget s.cells mid, pe with
    | some x, some pe =>
      if cut then cutThrough pe mid x s
      else
        (match e with
         | .entry g j => placeEntry g j mid x s
         | _ => placeAt x.src pe mid x.msg.cls s)
    | _, _ => s

/-- A message joins a defer queue (R322): it is admitted, with the targets that are up now (R275). -/
def deferArrival (p : Nat) (a : Arrival) (k : Nat) (e : Egress) (s : State) : State :=
  let mid := s.nextMid
  let m := match e with | .mcast grp => { a.msg with mc := true, group := grp } | _ => a.msg
  let (targets, s) := match e with
    | .mcast grp => liveTargets (hallOf p) (mcastTargets s p grp) s
    | _ => ([], s)
  let s := enterCore p a m e true s
  let s := { s with cells := tmod s.cells mid fun x => { x with targets := targets } }
  setMeter (hallOf p) k (fun x => { x with defer := x.defer ++ [mid] }) s

/-- The meter's decision on an arrival with a destination (R319 to R322). -/
def meterArrival (p : Nat) (q : Port) (a : Arrival) (e : Egress) (fc : Fc) (s : State) : State :=
  match findMeter s p (egressSub s (flowSource s p) e a.msg.cls) with
  | none => forwardArrival p a a.msg e fc s
  | some (k, x) =>
    if !x.defer.isEmpty then deferArrival p a k e s
    else
      let back := meterBack s x
      let x := meterRefill (meterInForce s x) (nsNow s)
      let l := chargeLen q a.msg
      let c := meterColour x l
      let act := appliedAction x c a.msg
      if act = 2 then
        let s := setMeter (hallOf p) k (fun _ => back x) s
        let s := if colourAction x c = 3 then bumpPort p oDiscardSubst 1 s else s
        deferArrival p a k e s
      else
        let s := settleMeter (hallOf p) k c (back (meterDebit x c l)) s
        if act = 3 then bumpPort p oDiscard 1 (endArrival p a s)
        else if act = 1 then
          if a.msg.kind = 2 then forwardArrival p a (markMsg a.msg) e fc s
          else forwardArrival p a a.msg e fc (bumpPort p oMarkNa 1 s)
        else forwardArrival p a a.msg e fc s

/-- A management broadcast (R277). -/
def isBroadcast (m : Msg) : Bool := m.cls == .mgt && m.mc

/-- The completion of a read that a commit has squashed (R454). -/
def lateData (s : State) (p tag : Nat) : Bool := s.gn.acc.any fun a => a.dead && !a.write && a.port == p && a.tag == tag

/-- The cells an arrival holds at its port leave its account: the account of R150, or the MGT minimum while it waits (R278). -/
def unhold (p : Nat) (a : Arrival) (waits : Bool) (s : State) : State :=
  match a.ovr with
  | some x => unchargeAcct (hallOf p) x (cellsOf a.msg) s
  | none => if waits then unchargeAcct (hallOf p) (.min p .mgt) (cellsOf a.msg) s else s

/-- A broadcast of the port fills its pipe's replication stage (R278). -/
def stageHeld (s : State) (p : Nat) : Bool :=
  match tget (getHall s (hallOf p)).stages (pipeOf p) with
  | some g => g.arrival == some p
  | none => false

/-- A header that has reached the head of the ingress pipe is routed, metered and forwarded. -/
def takeArrival (port : Nat) (q : Port) (a : Arrival) (fc : Fc) (s : State) : State :=
  match routeArrival s port a with
  | (.none, below) => noDestination port a below s
  | (.port pe, _) =>
    if a.msg.cls == .rsp && lateData s pe a.msg.tag then
      endArrival port a (setGn (fun g => { g with acc := g.acc.filter fun x => !(x.dead && x.port == pe && x.tag == a.msg.tag) }) s)
    else meterArrival port q a (.port pe) fc s
  | (.engine, _) =>
    let s := endArrival port a s
    (match a.dest with
     | .own => s
     | _ => emit (.gallery (galleryEngine s a.msg) a.msg) s)
  | (e, _) => meterArrival port q a e fc s

/-- An MGT message waits in its port's MGT minimum behind a broadcast that fills the stage (R278). -/
def waitMgt (p : Nat) (a : Arrival) (s : State) : State :=
  let s := if a.ovr.isNone then chargeAcct (hallOf p) (.min p .mgt) (cellsOf a.msg) s else s
  setPort p (fun q => { q with mgtWait := q.mgtWait ++ [a] }) s

/-- MESSAGE_INGRESS (R245, R278): the next header of a port reaches the head of its ingress pipe. A management broadcast there
is for MGT_BROADCAST; while a broadcast fills the stage, and behind one that waits, MGT messages wait, and other classes pass.
An MGT message that waited goes first once it may. -/
def execMessageIngress (port : Nat) (fc : Fc) (s : State) : Host.Outcome State Fault Refusal :=
  act s fun s =>
    match getPort s port with
    | some q =>
      let s := settleCross s
      let full := (tget (getHall s (hallOf port)).stages (pipeOf port)).isSome
      match q.mgtWait, q.inQ with
      | w :: ws, inQ =>
        if !isBroadcast w.msg && !stageHeld s port then
          takeArrival port q w fc (unhold port w true (setPort port (fun q => { q with mgtWait := ws }) s))
        else
          (match inQ with
           | a :: r =>
             let s := setPort port (fun q => { q with inQ := r }) s
             if a.msg.cls == .mgt then waitMgt port a s else takeArrival port q a fc (unhold port a false s)
           | [] => s)
      | [], a :: r =>
        let t := setPort port (fun q => { q with inQ := r }) s
        if isBroadcast a.msg then (if full then waitMgt port a t else s)
        else if a.msg.cls == .mgt && stageHeld s port then waitMgt port a t
        else takeArrival port q a fc (unhold port a false t)
      | [], [] => s
    | none => s

/-- DEFER_HEAD_RELEASE (R322): the head of a meter's defer queue is tested again. -/
def execDeferHeadRelease (hall meter : Nat) (s : State) : Host.Outcome State Fault Refusal :=
  act s fun s =>
    match tget (getHall s hall).meters meter with
    | some x =>
      match x.defer with
      | [] => s
      | mid :: r =>
        match tget s.cells mid with
        | some y =>
          let p := 64 * hall + x.port
          let back := meterBack s x
          let x := meterRefill (meterInForce s x) (nsNow s)
          let l := ((getPort s p).map fun q => chargeLen q y.msg).getD 0
          let c := meterColour x l
          let act := appliedAction x c y.msg
          if act = 2 then setMeter hall meter (fun _ => back x) s
          else
            let s := settleMeter hall meter c (back { meterDebit x c l with defer := r }) s
            if act = 3 then retireMid false mid (dropRef mid (bumpPort p oDiscard 1 s))
            else
              let s := if act = 1 && y.msg.kind != 2 then bumpPort p oMarkNa 1 s else s
              let y := if act = 1 && y.msg.kind = 2 then { y with msg := markMsg y.msg } else y
              let s := { s with cells := tset s.cells mid y }
              (match y.route with
               | .mcast _ => replicate mid y y.targets s
               | .entry g j => placeEntry g j mid y s
               | .port pe => placeAt y.src pe mid y.msg.cls s
               | .spray pe => placeAt y.src pe mid y.msg.cls s
               | _ => s)
        | none => s
    | none => s

/-- A copy of the same source that entered earlier is still to cross to a hall, or its targets there wait for one (R254, R276). -/
def crossBehind (s : State) (mid hall : Nat) (x : Stored) : Bool :=
  s.cells.any fun e => decide (e.1 < mid) && e.2.src == x.src && e.2.msg.cls == x.msg.cls && (tget e.2.cross hall).isSome

/-- MULTICAST_COPY_CROSS (R241, R272 step 4, R274, R276): a copy crosses to a hall, in the order of its flow, when the link is
free and MC_RSV or the pool there has room; messages of its flow that waited for it follow. -/
def execMulticastCopyCross (mid hall : Nat) (s : State) : Host.Outcome State Fault Refusal :=
  act s fun s =>
    let s := settleCross s
    match tget s.cells mid with
    | some x =>
      match tget x.cross hall with
      | some targets =>
        if crossBehind s mid hall x then s
        else
          let k := x.cells
          let h := getHall s hall
          let acct : Option Acct :=
            if rsvRoom s hall h.mcUse h.mcRsv k then some .mcRsv else if aboveFloor s hall k then some (.pool none) else none
          (match acct with
           | some a =>
             let s := takeLink x.hall hall k (clockTo (linkFree s x.hall hall - 1) s)
             let s := { s with cells := tset s.cells mid { x with cross := tdel x.cross hall, leafOf := tfilter x.leafOf fun p _ => !targets.contains p } }
             let copy : Stored := { msg := x.msg, hall := hall, cells := k, acct := a, refs := targets.length, src := x.src, leafOf := x.leafOf }
             let new := s.nextMid
             let s := targets.foldl (fun s t => placeNow x.src t new x.msg.cls s) (store copy s)
             releaseWaits (dropRef mid s)
           | none => s)
      | none => s
    | none => s

/-- PAUSE_DRAINED (R268): the old members hold nothing of the entry any more, in a cycle after the pause began. -/
def execPauseDrained (group entry : Nat) (s : State) : Host.Outcome State Fault Refusal :=
  act s fun s =>
    match entryPause s group entry with
    | some p => if p.start < s.dc && p.old.all fun m => !entryBusy s group entry m then endPause group entry s else s
    | none => s

/-- REBAL_WAIT_EXPIRY (R268, R269): the pause ends by its time limit; undrained, it is counted and raises HALL_SW cause 2
in the hall of the entry's new member. -/
def execRebalWaitExpiry (group entry : Nat) (s : State) : Host.Outcome State Fault Refusal :=
  act s fun s =>
    match tget s.groups group, entryPause s group entry with
    | some g, some p =>
      let s := clockTo (p.start + 2000 * g.wait) s
      let undrained := p.old.any fun m => entryBusy s group entry m
      let hall := hallOf ((entryMember s group entry).getD 0)
      let s := endPause group entry s
      if undrained then
        fire (srcHall hall 228) 2 group noActor (bump (.undrained group) 1 s)
      else s
    | _, _ => s

/-! ## Management broadcast (R277, R278, R294) -/

/-- The tree ports a broadcast's copies go to: UP, not the arrival port. -/
def broadcastPorts (s : State) (arrival : Option Nat) : List Nat :=
  s.tree.filter fun t => some t != arrival && portSt s t == some .up

/-- The tree ports a broadcast skips (R278 item 5). -/
def broadcastSkips (s : State) (arrival : Option Nat) : Nat :=
  (s.tree.filter fun t => some t != arrival && portSt s t != some .up).length

/-- The replication stage a broadcast enters: its arrival pipe, or the pipe of its first tree port. -/
def stageOf (s : State) (arrival : Option Nat) : Option (Nat × Nat) :=
  match arrival with
  | some p => some (hallOf p, pipeOf p)
  | none => s.tree.head?.map fun t => (hallOf t, pipeOf t)

/-- A broadcast enters its stage, and a copy of one that a port received goes to the central die; an empty stage gives its
credit back at once (R278). -/
def enterStage (h pipe : Nat) (m : Msg) (arrival : Option Nat) (s : State) : State :=
  let ports := broadcastPorts s arrival
  let skips := broadcastSkips s arrival
  let s := if arrival.isSome then emit (.central m) s else s
  let s := if skips = 0 then s else bumpHall h oMgtSkip skips s
  if ports.isEmpty then (match arrival with | some p => releaseCred p m s | none => s)
  else setHall h (fun x => { x with stages := tset x.stages pipe { msg := m, arrival := arrival, ports := ports } }) s

/-- MGT_BROADCAST (R277, R278): a management broadcast at the head of a port's arrivals, or first of those that wait, or of the
central die, enters the replication stage of its pipe when the stage is empty; one too long, or off the tree, is discarded and counted. -/
def execMgtBroadcast (src : BSrc) (s : State) : Host.Outcome State Fault Refusal :=
  act s fun s =>
    match src with
    | .port p =>
      match getPort s p with
      | some q =>
        let waits := !q.mgtWait.isEmpty
        match (if waits then q.mgtWait else q.inQ) with
        | a :: r =>
          if !isBroadcast a.msg then s
          else
            let popped := unhold p a waits (setPort p (fun q => if waits then { q with mgtWait := r } else { q with inQ := r }) s)
            if a.msg.dlen > 240 then bumpPort p oMsgErr 1 (releaseCred p a.msg popped)
            else if !s.tree.contains p then bumpHall (hallOf p) oMgtOfftree 1 (releaseCred p a.msg popped)
            else if (tget (getHall s (hallOf p)).stages (pipeOf p)).isSome then s
            else enterStage (hallOf p) (pipeOf p) a.msg (some p) popped
        | [] => s
      | none => s
    | .central m =>
      match stageOf s none with
      | some (h, pipe) =>
        if (tget (getHall s h).stages pipe).isSome || m.dlen > 240 then s else enterStage h pipe m none s
      | none => s

/-- MGT_BROADCAST_COPY_LEAVE (R278, R294): the copy for a tree port leaves, ahead of service 0, when the port holds MGT
credit; when the stage empties the arrival port's credit is released. -/
def execMgtBroadcastCopyLeave (hall pipe port : Nat) (fc : Fc) (s : State) : Host.Outcome State Fault Refusal :=
  act s fun s =>
    match tget (getHall s hall).stages pipe, getPort s port with
    | some g, some q =>
      if g.ports.contains port && q.scfg.rs.half && creditOk q fc g.msg then wakeHalf port s
      else if g.ports.contains port && txIdle q && creditOk q fc g.msg then
        let s := startTx port g.msg none none (takeLink hall (hallOf port) 1 s)
        let rest := g.ports.erase port
        if rest.isEmpty then
          let s := setHall hall (fun x => { x with stages := tdel x.stages pipe }) s
          (match g.arrival with | some p => releaseCred p g.msg s | none => s)
        else setHall hall (fun x => { x with stages := tset x.stages pipe { g with ports := rest } }) s
      else s
    | _, _ => s

end Sys2Proof.Machine
end

