-- ==== Sys2Proof/Machine/Alcove.lean ====
section
/-! DEFINITION. What a bay holds of each resource, the notices of the device, and the Alcove mailbox with its FIFO rules
(10_bays_and_alcoves R387 to R395, R405 to R413). -/

namespace Sys2Proof.Machine

open Sys2Proof

/-! ## Visibility (R387) and resources (R390, R392) -/

/-- The virtual function of a bay is enabled and within NumVFs (R387, BY_STATUS.VF_VISIBLE). -/
def vfVisible (s : State) (b : Nat) : Bool :=
  match tget s.bays b with
  | some y => (match getPort s y.hport with | some q => decide (y.loc < q.std.numVfs) | none => false)
  | none => false

/-- A register access reaches PF0 of an H port: its link is up. -/
def pf0Reach (s : State) (p : Nat) : Bool := isType s .h p && portSt s p == some .up

/-- The managing H port's PF0 reaches the whole register map (R540). -/
def mgrReach (s : State) : Bool := live s && s.boot.mgr.any (pf0Reach s)

/-- A register access reaches a bay's window (R387). -/
def bayReach (s : State) (b : Nat) : Bool :=
  vfVisible s b && (match bayPort s b with | some p => pf0Reach s p | none => false)

/-- A register access reaches a side of an Alcove (R407). -/
def sideReach (s : State) (side : Side) (b : Nat) : Bool :=
  match side with
  | .bay => bayReach s b
  | .manager => (match bayPort s b with | some p => pf0Reach s p || s.boot.mgr.any (pf0Reach s) | none => false)

/-- Shadow windows of an owner (R390). -/
def windowsHeld (s : State) (b : Nat) : Nat := (s.gn.shadowW.filter fun e => e.2.owner == b).length

/-- Leaves a bay holds (R390). -/
def leavesHeld (s : State) (y : Bay) : Nat :=
  ((getHall s (hallOf y.hport)).leaves.filter fun e => e.2.port == y.hport % 64 && e.2.sub == 1 + y.loc).length

/-- The bay of a local index in a hall that a meter is charged to: on the H port of lowest PORT number (R392). -/
def meterBay (s : State) (h loc : Nat) : Option Nat :=
  (s.bays.foldl (fun (best : Option (Nat × Nat)) e =>
    if hallOf e.2.hport = h && e.2.loc = loc then
      match best with
      | none => some (e.2.hport, e.1)
      | some x => if e.2.hport < x.1 then some (e.2.hport, e.1) else some x
    else best) none).map (·.2)

/-- The bay a meter of a hall is charged to. -/
def meterCharged (s : State) (h : Nat) (x : Meter) : Option Nat :=
  if x.sub = 0 || x.orphan then none else meterBay s h (x.sub - 1)

/-- Meters charged to a bay (R390, R392). -/
def metersHeld (s : State) (b : Nat) (y : Bay) : Nat :=
  let h := hallOf y.hport
  ((getHall s h).meters.filter fun e => meterCharged s h e.2 == some b).length

/-- QPs of a bay. -/
def qpsHeld (s : State) (b : Nat) : Nat := (s.qps.filter fun e => e.2.bay == b).length

/-- The amounts a bay holds (R390). -/
def heldRes (s : State) (b : Nat) (y : Bay) : Res :=
  { qp := qpsHeld s b, ctx := y.tgt.ctx, leaves := leavesHeld s y, rate := y.tgt.rate, meters := metersHeld s b y,
    msix := msixHeld s b y, windows := windowsHeld s b }

/-- Target and amount held of each resource in the order of R406. -/
def resBytes (t h : Res) : Bytes :=
  le 4 t.qp ++ le 4 h.qp ++ le 4 t.ctx ++ le 4 h.ctx ++ le 4 t.leaves ++ le 4 h.leaves ++ le 4 t.rate ++ le 4 h.rate
    ++ le 4 t.meters ++ le 4 h.meters ++ le 4 t.msix ++ le 4 h.msix ++ le 4 t.windows ++ le 4 h.windows

/-- SHRINK_PENDING (R391). -/
def shrinkPending (t h : Res) : Bool :=
  decide (t.qp < h.qp) || decide (t.leaves < h.leaves) || decide (t.meters < h.meters) || decide (t.msix < h.msix)
    || decide (t.windows < h.windows)

/-! ## FIFOs (R405 to R412) -/

def sideOf (side : Side) (y : Bay) : AlSide := match side with | .bay => y.bside | .manager => y.mside

def setSide (side : Side) (b : Nat) (f : AlSide → AlSide) (s : State) : State :=
  setBay b (fun y => match side with | .bay => { y with bside := f y.bside } | .manager => { y with mside := f y.mside }) s

/-- The receive FIFO of a side. -/
def rxFifo (side : Side) (y : Bay) : List Bytes := match side with | .bay => y.toBay | .manager => y.toMgr

def setRx (side : Side) (b : Nat) (l : List Bytes) (s : State) : State :=
  setBay b (fun y => match side with | .bay => { y with toBay := l } | .manager => { y with toMgr := l }) s

def other : Side → Side | .bay => .manager | .manager => .bay

/-- The reader is signalled when MSG rises with IE set (R409). -/
def signal (reader : Side) (b : Nat) (s : State) : State :=
  match tget s.bays b with
  | some y =>
    let s := noteSet (.al b reader 14) s
    if (sideOf reader y).msg then s
    else
      let s := setSide reader b (fun a => { a with msg := true }) s
      if (sideOf reader y).ie then
        match reader with
        | .bay => msix (.bay b) 0 s
        | .manager => msix (.pf0 y.hport) (((getPort s y.hport).map (·.std.alVector)).getD 0) s
      else s
  | none => s

/-- A message goes into the receive FIFO of a side. -/
def pushTo (reader : Side) (b : Nat) (m : Bytes) (s : State) : State :=
  match tget s.bays b with
  | some y => signal reader b (setRx reader b (rxFifo reader y ++ [m]) s)
  | none => s

/-- A device notice: its 64 bytes (R405, R406). -/
def notice (type seq len : Nat) (body : Bytes) : Bytes :=
  le 2 type ++ le 2 seq ++ [len, 0, 0, 0] ++ body ++ List.replicate (56 - body.length) 0

/-- Pending notices are posted while the to-bay FIFO has room, RESOURCES before RESET_DONE (R406). -/
def postNotices (b : Nat) (s : State) : State :=
  let s := match tget s.bays b with
    | some y =>
      if y.pendRes && decide (y.toBay.length < 16) && y.st == .active then
        pushTo .bay b (notice 0xFF01 y.nseq 56 (resBytes y.tgt (heldRes s b y)))
          (setBay b (fun z => { z with pendRes := false, nseq := (z.nseq + 1) % 65536 }) s)
      else s
    | none => s
  match tget s.bays b with
  | some y =>
    match y.pendDone with
    | some (cause, drained, squashed) =>
      if decide (y.toBay.length < 16) && y.st == .active && !y.pendRes then
        pushTo .bay b (notice 0xFF02 y.nseq 10 (le 2 cause ++ le 4 drained ++ le 4 squashed))
          (setBay b (fun z => { z with pendDone := none, nseq := (z.nseq + 1) % 65536 }) s)
      else s
    | none => s
  | none => s

/-- What a bay's RESOURCES notice would say changed between two states: it is posted, or kept pending (R395, R406). -/
def noticeHeld (before : State) (s : State) : State :=
  before.bays.foldl (fun s e =>
    match tget s.bays e.1 with
    | some y =>
      if y.st == .active && (y.tgt != e.2.tgt || heldRes s e.1 y != heldRes before e.1 e.2) then
        postNotices e.1 (setBay e.1 (fun z => { z with pendRes := true }) s)
      else s
    | none => s) s

/-! ## Rows -/

/-- The 64 staged bytes of a side. -/
def staged (a : AlSide) : Bytes := a.tx.flatMap (le 4)

/-- AL_TX_DB (R406, R408, R409): the staged message is pushed, or refused. -/
def execAlTxDb (side : Side) (bay : Nat) (s : State) : Host.Outcome State Fault Refusal :=
  act s fun s =>
    match tget s.bays bay with
    | some y =>
      if !sideReach s side bay then s
      else
        let m := staged (sideOf side y)
        let full := decide (16 ≤ (rxFifo (other side) y).length)
        if full || decide (0xFF00 ≤ unle (slice m 0 2)) || y.st != .active then
          noteSet (.al bay side 16) (setSide side bay (fun a => { a with refused := true }) s)
        else pushTo (other side) bay m s
    | none => s

/-- UNDERRUN of a side is set (R407, R411). -/
def underrun (side : Side) (b : Nat) (s : State) : State :=
  noteSet (.al b side 13) (setSide side b (fun a => { a with underrun := true }) s)

/-- The head message is removed; a flush that waited takes effect at this boundary (R411, R412). -/
def popRx (side : Side) (b : Nat) (s : State) : State :=
  match tget s.bays b with
  | some y =>
    match rxFifo side y with
    | [] => underrun side b s
    | _ :: r =>
      let flush := (sideOf side y).flushPend
      setSide side b (fun a => { a with inRead := false, flushPend := false }) (setRx side b (if flush then [] else r) s)
  | none => s

/-- AL_RX_POP (R411, R412). -/
def execAlRxPop (side : Side) (bay : Nat) (s : State) : Host.Outcome State Fault Refusal :=
  act s fun s => if sideReach s side bay then popRx side bay s else s

/-- The address of a word of AL_RX_BUF: in the manager page of the bay (R547), or in the bay window (R546). -/
def rxWordAddr (side : Side) (b word : Nat) : Nat :=
  match side with
  | .manager => 0x2000000 + 0x1000 * b + 0x80 + 4 * word
  | .bay => 0x1080 + 4 * word

/-- A word of AL_RX_BUF is read: the head message's, or the word last returned (R411, R412). -/
def readRx (side : Side) (b word : Nat) (s : State) : State :=
  match tget s.bays b with
  | some y =>
    let a := sideOf side y
    (match rxFifo side y with
     | [] =>
       emit (.readValue (rxWordAddr side b word) (a.lastRx[word]?.getD 0)) (underrun side b s)
     | m :: _ =>
       let v := unle (slice m (4 * word) 4)
       emit (.readValue (rxWordAddr side b word) v)
         (setSide side b (fun a => { a with lastRx := a.lastRx.set word v, inRead := true }) s))
  | none => s

/-- AL_RX_BUF_READ (R411, R412). -/
def execAlRxBufRead (side : Side) (bay word : Nat) (s : State) : Host.Outcome State Fault Refusal :=
  act s fun s => if sideReach s side bay && decide (word < 16) then readRx side bay word s else s

/-- A flush of the receive FIFO of a side: at once, or at the next message boundary (R412). -/
def flushFifo (reader : Side) (b : Nat) (s : State) : State :=
  match tget s.bays b with
  | some y =>
    if (sideOf reader y).inRead then setSide reader b (fun a => { a with flushPend := true }) s else setRx reader b [] s
  | none => s

/-- FLUSH_RX (R407, R412). -/
def execFlushRx (side : Side) (bay : Nat) (s : State) : Host.Outcome State Fault Refusal :=
  act s fun s => if sideReach s side bay then flushFifo side bay s else s

/-- FLUSH_TX (R407, R412): the manager side flushes the to-bay FIFO; on the bay side it is ignored. -/
def execFlushTx (side : Side) (bay : Nat) (s : State) : Host.Outcome State Fault Refusal :=
  act s fun s =>
    match side with
    | .manager => if sideReach s side bay then flushFifo .bay bay s else s
    | .bay => s

/-- FIFO_FLUSH_TAKE_EFFECT (R412): the pop that ends the message in read; the flush that waits takes effect there. -/
def execFifoFlushTakeEffect (side : Side) (bay : Nat) (s : State) : Host.Outcome State Fault Refusal :=
  act s fun s =>
    match tget s.bays bay with
    | some y => if (sideOf side y).flushPend && sideReach s side bay then popRx side bay s else s
    | none => s

/-- The W1C bits of AL_STATUS cleared (R13, R407, R409). -/
def clearStatus (side : Side) (b value : Nat) (s : State) : State :=
  setSide side b (fun a => { a with
    underrun := w1c s (.al b side 13) a.underrun (bit value 13), msg := w1c s (.al b side 14) a.msg (bit value 14),
    ptrReset := w1c s (.al b side 15) a.ptrReset (bit value 15),
    refused := w1c s (.al b side 16) a.refused (bit value 16) }) s

/-- AL_STATUS_WRITE (R407, R409): ones clear UNDERRUN, MSG, PTR_RESET and REFUSED. -/
def execAlStatusWrite (side : Side) (bay value : Nat) (s : State) : Host.Outcome State Fault Refusal :=
  act s fun s => if sideReach s side bay then clearStatus side bay value s else s

/-- DEVICE_NOTICE_POST (R406): pending notices are posted once the to-bay FIFO has room. -/
def execDeviceNoticePost (bay : Nat) (s : State) : Host.Outcome State Fault Refusal := act s (postNotices bay)

end Sys2Proof.Machine
end

