-- ==== Sys2Proof/Machine/Garnet.lean ====
section
/-! DEFINITION. Garnet: windows, MPU region entries, the check of an access, violation reports, and rule changes under the
epoch (11_security R443 to R455, R86). -/

namespace Sys2Proof.Machine

open Sys2Proof

/-! ## The check (R445, R447) -/

/-- Size of a window in bytes (R443). -/
def winSize (w : Window) : Nat := 2 ^ w.log

/-- Two windows overlap. -/
def winOverlap (a b : Window) : Bool := decide (a.base < b.base + winSize b) && decide (b.base < a.base + winSize a)

/-- The colour of an address: that of the valid window that holds it, or 0 (R443). -/
def colourAt (t : Tab Window) (a : Nat) : Nat :=
  match t.find? fun e => e.2.valid && decide (e.2.base ≤ a) && decide (a < e.2.base + winSize e.2) with
  | some e => e.2.colour
  | none => 0

/-- The lowest-numbered valid entry of an actor that holds a part (R445). -/
def regionAt (t : Tab Rgn) (actor lo hi : Nat) : Option (Nat × Rgn) :=
  t.find? fun e => e.2.valid && e.2.owner == actor && decide (e.2.base ≤ lo) && decide (hi ≤ e.2.limit)

/-- A number into a rising list without repeats. -/
def insertCut (n : Nat) : List Nat → List Nat
  | [] => [n]
  | a :: r => if n < a then n :: a :: r else if n = a then a :: r else a :: insertCut n r

/-- The boundaries inside a range: of regions and of windows (R447). -/
def cutsIn (rg : Tab Rgn) (ws : Tab Window) (lo hi : Nat) : List Nat :=
  let rs := (rg.filter fun e => e.2.valid).flatMap fun e => [e.2.base, e.2.limit + 1]
  let wn := (ws.filter fun e => e.2.valid).flatMap fun e => [e.2.base, e.2.base + winSize e.2]
  ((rs ++ wn).filter fun a => decide (lo < a) && decide (a < hi)).foldl (fun l a => insertCut a l) []

/-- Parts of a range between its cuts, as first address and length. -/
def partsFrom (lo : Nat) (hi : Nat) : List Nat → List (Nat × Nat)
  | [] => if lo < hi then [(lo, hi - lo)] else []
  | c :: r => (lo, c - lo) :: partsFrom c hi r

/-- The outcome for one part: does it pass, and the violation it would report (R447, R450). -/
def checkPart (s : State) (m : Mpu) (actor : Nat) (write : Bool) (part : Nat × Nat) : Bool × Viol :=
  let c := colourAt s.gn.activeW part.1
  let v : Viol := { write := write, region := none, permFail := false, colFail := false, epoch := m.epoch, actor := actor,
                    addr := part.1, winCol := c, key := 0 }
  match regionAt m.active actor part.1 (part.1 + part.2 - 1) with
  | some (k, r) =>
    let perm := if write then r.write else r.read
    (perm && r.key == c, { v with region := some k, permFail := !perm, colFail := r.key != c, key := r.key })
  | none => (actor == 0xFFF && c == 0, v)

/-- A failing part: the first is reported in full and raises the MPU's event; later ones only count (R450; DEDUCED, log
22). -/
def captureViol (mpu : Nat) (v : Viol) (s : State) : State :=
  if (getMpu s mpu).rep.isNone then
    fire (srcMpu s mpu) 1 mpu v.actor (setMpu mpu (fun m => { m with rep := some v }) s)
  else setMpu mpu (fun m => { m with cnt := satAdd 16 m.cnt 1 }) s

/-- The check of an access of `len` bytes at `addr`: its parts in address order with their outcome, and the state with
the violations captured (R447, R450). -/
def mpuCheck (mpu actor : Nat) (write : Bool) (addr len : Nat) (s : State) : List (Nat × Nat × Bool) × State :=
  let m := getMpu s mpu
  let parts := partsFrom addr (addr + len) (cutsIn m.active s.gn.activeW addr (addr + len))
  let res := parts.map fun p => (p, checkPart s m actor write p)
  (res.map fun r => (r.1.1, r.1.2, r.2.1),
   res.foldl (fun s r => if r.2.1 then s else captureViol mpu r.2.2 s) s)

/-- Every part of a check passed. -/
def allPass (l : List (Nat × Nat × Bool)) : Bool := l.all fun p => p.2.2

/-- A write part of an H port or management core is dropped and counted (R448). -/
def dropWrite (mpu : Nat) (s : State) : State :=
  let s := bump (.drop mpu) 1 s
  match mpuHPort s mpu with
  | some p => aer p none 2 s
  | none => s

/-! ## Registers (R450) -/

/-- GN_VIOL_INFO. -/
def violInfo (v : Option Viol) : Nat :=
  match v with
  | none => 0
  | some v => 1 + 2 * b2n v.write + 4 * b2n v.region.isNone + 8 * b2n v.permFail + 16 * b2n v.colFail
      + 32 * (v.region.getD 0) + 2 ^ 11 * v.epoch + 2 ^ 16 * v.actor

/-- GN_VIOL_AUX. -/
def violAux (v : Option Viol) : Nat := match v with | none => 0 | some v => v.winCol + 256 * v.key
def violLo (v : Option Viol) : Nat := match v with | none => 0 | some v => v.addr % 2 ^ 32
def violHi (v : Option Viol) : Nat := match v with | none => 0 | some v => v.addr / 2 ^ 32 % 2 ^ 20

/-! ## MPU_WRITE, GARNET_WINDOW_SET -/

/-- An MPU of a master in use (R86). -/
def mpuInUse (s : State) (m : Nat) : Bool := m < 68 || (mpuHPort s m).isSome

/-- May an entry of an MPU name this OWNER (R446)? -/
def ownerOk (s : State) (mpu o : Nat) : Bool :=
  if mpu < 64 then (match bayPort s o with | some p => hallOf p == mpu / 8 | none => false)
  else if mpu < 68 then o == 0xFFF
  else o == 0xFFD || o == 0xFFE || o == 0xFFF || (match bayPort s o, mpuHPort s mpu with | some p, some q => p == q | _, _ => false)

/-- The TDI of a bay number is CONFIG_LOCKED or RUN (R215). -/
def tdiLocked (s : State) (b : Nat) : Bool :=
  match tget s.bays b with
  | some y => y.tdi == .locked || y.tdi == .run
  | none => false

/-- A GARNET_COMMIT in progress names this MPU (R454). -/
def commitNames (s : State) (mpu : Nat) : Bool :=
  s.ops.any fun o => match o.kind with | .garnet m => m == mpu || m == 0xFFFF | _ => false

/-- A GARNET_COMMIT in progress names the window table (R454). -/
def commitWindows (s : State) : Bool := s.ops.any fun o => o.kind == .garnet 0xFFFF

/-- A bay in DRAINING or SQUASHING makes a command that names it BUSY (R398). -/
def bayBusy (s : State) (b : Nat) : Bool :=
  match tget s.bays b with
  | some y => y.st != .active
  | none => false

def bodyMpuWrite : Body := fun c _ s => do
  let m ← idF c 0 0 2 none (mpuInUse s)
  let e ← idF c 1 2 1 none (· < 64)
  let o ← idF c 2 4 2 none (ownerOk s m)
  let f ← idF c 3 6 1 none fun _ => true
  let k ← idF c 4 7 1 none (· < 256)
  let b ← idF c 5 8 8 none fun v => v % 4096 == 0 && decide (v < 2 ^ 52)
  let l ← idF c 6 16 8 none fun v => (v + 1) % 4096 == 0 && decide (b ≤ v) && decide (v < 2 ^ 52)
  rejectIf (commitNames s m || bayBusy s o) stBusy
  let old := tget (getMpu s m).shadow e
  let oldLocked := match old with | some r => tdiLocked s r.owner | none => false
  rejectIf ((getMpu s m).locks.contains e || tdiLocked s o || oldLocked) stLocked
  let r : Rgn := { owner := o, valid := bit f 0, read := bit f 1, write := bit f 2, key := k, base := b, limit := l }
  okWith (setMpu m (fun x => { x with shadow := tset x.shadow e r }) s) []

def specMpuWrite : OpSpec :=
  { code := 0x0702, priv := 1, body := bodyMpuWrite,
    layout := { flds := [(0, 2), (2, 1), (4, 2), (6, 1), (7, 1), (8, 8), (16, 8)], fin := 24 } }

/-- MPU_WRITE (R446). -/
def execMpuWrite (c : Cmd) (s : State) : Host.Outcome State Fault Refusal := command specMpuWrite c s

def bodyGarnetWindowSet : Body := fun c _ s => do
  let w ← idF c 0 0 2 none (· < 65536)
  let lg ← idF c 1 2 1 none fun v => decide (21 ≤ v) && decide (v ≤ 51)
  let col ← idF c 2 3 1 none fun v => decide (1 ≤ v) && decide (v ≤ 255)
  let o ← idF c 3 4 2 (some 0xFFFF) fun v => v == 0xFFFF || (tget s.bays v).isSome
  let f ← anyF c 6 1 1
  let b ← idF c 5 8 8 none fun v => v % 2 ^ lg == 0 && decide (v < 2 ^ 52)
  let new : Window := { base := b, log := lg, colour := col, owner := o, valid := bit f 0 }
  let old := tget s.gn.shadowW w
  let oldOwner := match old with | some x => x.owner | none => 0xFFFF
  rejectIf (new.valid && s.gn.shadowW.any fun e => e.1 != w && e.2.valid && winOverlap e.2 new) stInvalidState
  rejectIf (commitWindows s || bayBusy s o) stBusy
  let target := match tget s.bays o with | some y => y.tgt.windows | none => 65536
  rejectIf (o != 0xFFFF && oldOwner != o && decide (target ≤ windowsHeld s o)) stNoResource
  rejectIf (bit s.sec.lock.toNat 5 || tdiLocked s oldOwner || tdiLocked s o) stLocked
  okWith (noticeHeld s (setGn (fun g => { g with shadowW := tset g.shadowW w new }) s)) []

def specGarnetWindowSet : OpSpec :=
  { code := 0x0703, priv := 1, body := bodyGarnetWindowSet,
    layout := { flds := [(0, 2), (2, 1), (3, 1), (4, 2), (6, 1), (8, 8)], fin := 16 } }

/-! ## GARNET_COMMIT (R452 to R454) -/

/-- The MPUs a command names. -/
def mpuList (m : Nat) : List Nat := if m = 0xFFFF then List.range 132 else [m]

/-- An entry table after a commit: the shadow one, locked entries kept (R452). -/
def committed (m : Mpu) : Tab Rgn :=
  (List.range 64).foldl (fun t e =>
    let src := if m.locks.contains e then m.active else m.shadow
    match tget src e with
    | some r => t ++ [(e, r)]
    | none => t) []

/-- The commit of one MPU: new active table, next epoch (R452). -/
def commitMpu (s : State) (m : Nat) : State :=
  setMpu m (fun x => { x with active := committed x, epoch := (x.epoch + 1) % 16, squashed := 0 }) s

/-- An access of an old epoch of an MPU that a commit names, still in flight. -/
def oldAccess (s : State) (m : Nat) (a : Access) : Bool :=
  !a.dead && (m == 0xFFFF || a.mpu == m) && a.epoch != (getMpu s a.mpu).epoch

/-- The result data of GARNET_COMMIT: epoch and count squashed of each MPU named, 4 bytes each (log 16). -/
def commitData (s : State) (m : Nat) : Bytes :=
  (mpuList m).flatMap fun k => le 4 (getMpu s k).epoch ++ le 4 (getMpu s k).squashed

/-- GN_EPOCH.COMMIT_PEND of the MPUs named. -/
def setPend (m : Nat) (v : Bool) (s : State) : State := (mpuList m).foldl (fun s k => setMpu k (fun x => { x with pend := v }) s) s

def bodyGarnetCommit : Body := fun c _ s => do
  let m ← idF c 0 0 2 (some 0xFFFF) fun v => v < 132 || v == 0xFFFF
  let w ← rangeF c 1 4 2 50 1 10000
  rejectIf (s.ops.any fun o => match o.kind with | .garnet k => k == m || k == 0xFFFF || m == 0xFFFF | _ => false) stBusy
  let s := (mpuList m).foldl commitMpu s
  let s := if m = 0xFFFF then setGn (fun g => { g with activeW := g.shadowW, winPend := true }) s else s
  if s.gn.acc.any (oldAccess s m) then
    let s := setPend m true s
    let s := setGn (fun g => { g with waits := tset g.waits m (s.dc + 2000 * w) }) s
    pure (s, .later (.garnet m) (commitData s m))
  else
    let s := setGn (fun g => { g with winPend := if m = 0xFFFF then false else g.winPend }) s
    pure (s, .done 0 (commitData s m))

def specGarnetCommit : OpSpec :=
  { code := 0x0704, priv := 1, body := bodyGarnetCommit, layout := { flds := [(0, 2), (4, 2)], fin := 6 } }

/-- GARNET_WINDOW_SET (R444). -/
def execGarnetWindowSet (c : Cmd) (s : State) : Host.Outcome State Fault Refusal := command specGarnetWindowSet c s

/-- GARNET_COMMIT (R452 to R454). -/
def execGarnetCommit (c : Cmd) (s : State) : Host.Outcome State Fault Refusal := command specGarnetCommit c s

/-- A GARNET_COMMIT ends and replies (R454, R86). -/
def endCommit (m : Nat) (s : State) : State :=
  let sq := (mpuList m).any fun k => (getMpu s k).squashed != 0
  let s := setPend m false s
  let s := setGn (fun g => { g with winPend := if m = 0xFFFF then false else g.winPend, waits := tdel g.waits m }) s
  endOp (.garnet m) (if sq then stSquashed else 0) (commitData s m) s

/-- OLD_EPOCH_DRAINED (R454): nothing of the old epochs named remains in flight. -/
def execOldEpochDrained (mpu : Nat) (s : State) : Host.Outcome State Fault Refusal :=
  act s fun s =>
    if (findOp s (.garnet mpu)).isSome && !s.gn.acc.any (oldAccess s mpu) then endCommit mpu s else s

/-- A stored message out of wherever it waits: leaf queues, defer queues, held entries (R400, R454). -/
def pullMid (mid : Nat) (s : State) : State :=
  let s := { s with halls := tmap s.halls fun _ h =>
    { h with
      queues := tfilter (tmap h.queues fun _ l => l.filter (· != QItem.desc mid)) fun _ l => !l.isEmpty,
      meters := tmap h.meters fun _ x => { x with defer := x.defer.filter (· != mid) } } }
  { s with groups := tmap s.groups fun _ g =>
      { g with paused := tmap g.paused fun _ p => { p with held := p.held.filter (· != mid) } } }

/-- The engine message that waits under a token, if one does. -/
def waitingTok (s : State) (e tok : Nat) : Option EngMsg := (getEngine s e).outQ.find? fun x => x.tok == some tok

/-- The outcome of a failing write part for the master of an engine's write (R448, R454): the responder owes NAK
REMOTE_ACCESS, the requester's message ends with LOCAL_ACCESS. -/
def failPlace (p : Place) (s : State) : State :=
  let s := match p.bad with
    | some m => setEngine p.eng (fun g => { g with outQ := g.outQ ++ [{ msg := m }] }) s
    | none => s
  match p.msn with
  | some n => setQp p.qpn (errorQp (some n) 1) s
  | none => s

/-- A write of an old epoch squashed where it is still queued or waits (R454). -/
def squashWrite (a : Access) (mid : Nat) (s : State) : State :=
  let counted := fun s => dropWrite a.mpu (setMpu a.mpu (fun m => { m with squashed := m.squashed + 1 }) s)
  let gone := fun s => setGn (fun g => { g with acc := g.acc.filter (· != a) }) s
  if (match tget s.cells mid with | some x => !x.leaving | none => false) then
    let p := tget s.places mid
    let s := counted (dropRef mid (pullMid mid (gone { s with places := tdel s.places mid })))
    match p with | some p => failPlace p s | none => s
  else
    match if a.mpu < 64 then waitingTok s a.mpu mid else none with
    | some x =>
      let s := counted (gone (setEngine a.mpu (fun g => { g with outQ := g.outQ.filter (· != x) }) s))
      (match x.place with | some p => failPlace p s | none => s)
    | none => s

/-- The `k`-th checked arrival of a port's ingress taken out, with the one taken. -/
def takeChecked : Nat → List Arrival → List Arrival × Option Arrival
  | _, [] => ([], none)
  | k, a :: r =>
    if a.acc && k = 0 then (r, some a)
    else
      let (l, x) := takeChecked (if a.acc then k - 1 else k) r
      (a :: l, x)

/-- A write that has not reached the head of its ingress pipe, squashed there. -/
def squashArrival (a : Access) (s : State) : State :=
  let k := (s.gn.acc.filter fun b => b.port == a.port && b.write && b.mid.isNone).idxOf a
  match getPort s a.port with
  | some q =>
    match takeChecked k q.inQ with
    | (l, some x) =>
      let s := setGn (fun g => { g with acc := g.acc.erase a }) (setPort a.port (fun q => { q with inQ := l }) s)
      dropWrite a.mpu (setMpu a.mpu (fun m => { m with squashed := m.squashed + 1 }) (releaseCred a.port x.msg s))
    | (_, none) => s
  | none => s

/-- An old access squashed: a queued write is removed and dropped, a read gets the outcome of a failing read part (R454). A
write the scheduler has already chosen goes out whole. -/
def squashAccess (s : State) (a : Access) : State :=
  if a.write then
    match a.mid with
    | some mid => squashWrite a mid s
    | none => squashArrival a s
  else
    let s := setMpu a.mpu (fun m => { m with squashed := m.squashed + 1 }) s
    let reply : Msg := { cls := .rsp, kind := 0, tag := a.tag, dlen := 12, poison := true, read := true, rport := some a.port }
    let s := setGn (fun g => { g with acc := g.acc.map fun b => if b == a then { b with dead := true } else b }) s
    releaseHeld a.port a.tag (sendCompletion a.port reply s)

/-- COMMIT_WAIT_EXPIRY (R454): COMMIT_WAIT passes with old accesses in flight; they are squashed and the command replies. -/
def execCommitWaitExpiry (mpu : Nat) (s : State) : Host.Outcome State Fault Refusal :=
  act s fun s =>
    match tget s.gn.waits mpu with
    | some t =>
      let s := clockTo t s
      endCommit mpu ((s.gn.acc.filter (oldAccess s mpu)).foldl squashAccess s)
    | none => s

/-! ## VIOLATION_READ (R451) -/

/-- The record of an MPU (VIOLATION_READ result). -/
def violRecord (s : State) (m : Nat) : Bytes :=
  let x := getMpu s m
  le 4 m ++ le 4 (violInfo x.rep) ++ le 4 (violLo x.rep) ++ le 4 (violHi x.rep) ++ le 4 (violAux x.rep) ++ le 4 x.cnt

def bodyViolationRead : Body := fun c _ s => do
  let m ← idF c 0 0 2 (some 0xFFFF) fun v => v < 132 || v == 0xFFFF
  let clear ← elseF c 1 2 1 0 (· ≤ 1) 0
  let data := (mpuList m).flatMap (violRecord s)
  okWith (if clear = 1 then (mpuList m).foldl (fun s k => setMpu k (fun x => { x with rep := none, cnt := 0 }) s) s else s) data

def specViolationRead : OpSpec :=
  { code := 0x0705, priv := 1, body := bodyViolationRead, layout := { flds := [(0, 2), (2, 1)], fin := 3 } }

/-- VIOLATION_READ (R451). -/
def execViolationRead (c : Cmd) (s : State) : Host.Outcome State Fault Refusal := command specViolationRead c s

/-- When a bay becomes ABSENT its region entries are invalid and its windows have no owner (R455). -/
def absentCleanup (b : Nat) (s : State) : State :=
  let inval : Tab Rgn → Tab Rgn := fun t => tmap t fun _ r => if r.owner = b then { r with valid := false } else r
  let free : Tab Window → Tab Window := fun t => tmap t fun _ w => if w.owner = b then { w with owner := 0xFFFF } else w
  setGn (fun g => { g with
    shadowW := free g.shadowW, activeW := free g.activeW,
    mpus := tmap g.mpus fun _ m => { m with shadow := inval m.shadow, active := inval m.active } }) s

end Sys2Proof.Machine
end

