-- ==== Sys2Proof/Machine/GalleryOps.lean ====
section
/-! DEFINITION. Gallery engines: the context cache, engine accesses through the MPU, work requests, first sends, answers
and completions (09_gallery_engines R338 to R384). Reads of memory complete within their step (log 17). -/

namespace Sys2Proof.Machine

open Sys2Proof

/-! ## Addresses and regions -/

/-- The 4 KiB pages a range touches (R372). -/
def pagesOf (lo len : Nat) : List Nat :=
  if len = 0 then [] else (List.range ((lo + len - 1) / 4096 + 1 - lo / 4096)).map (lo / 4096 + ·)

/-- The region of a handle while it is current for a bay (R368, R371). -/
def curRegion (s : State) (b h : Nat) : Option Region :=
  match findRegion s h with
  | some r => if r.bay = b && !r.ending then some r else none
  | none => none

/-- The status with which the check of R369 of a local range fails. -/
def localStatus (s : State) (b : Nat) (w : Wqe) : Option Nat :=
  match curRegion s b w.localMr with
  | none => some 1
  | some r => if w.localAddr < r.addr || r.addr + r.length < w.localAddr + w.length then some 2 else none

/-- A translation joins an engine's cache of 4,096; the oldest leaves a full one (R372; which one leaves is the model's, DESIGN
CHOICE, log 87). -/
def cacheXlat (e b page : Nat) (s : State) : State :=
  setEngine e (fun g =>
    let l := g.atc ++ [(b, page)]
    { g with atc := l.drop (l.length - 4096) }) s

/-- A range in a PAGING 1 region is translated (R372): pages the engine has no translation for are asked of ATS, and the one that is
not resident, if there is one, is named (R374, R375). -/
def translate (e b : Nat) (r : Region) (env : GEnv) (lo len : Nat) (s : State) : Option Nat × State :=
  if !r.paging then (none, s)
  else
    let new := (pagesOf lo len).filter fun k => !(getEngine s e).atc.contains (b, k)
    let s := new.foldl (fun s k => let s := emit (.ats b k) s; if env.missing = some k then s else cacheXlat e b k s) s
    (new.find? fun k => env.missing == some k, s)

/-- A PRI page request, unless one is outstanding (R374). -/
def pageRequest (b page : Nat) (s : State) : State :=
  match tget s.bays b with
  | some y =>
    if y.priOut.contains page then s
    else emit (.pri b page) (setBay b (fun z => { z with priOut := z.priOut ++ [page] }) s)
  | none => s

/-- The PID of the H port of a bay. -/
def bayPid (s : State) (b : Nat) : Nat :=
  match (bayPort s b).bind (getPort s) with
  | some q => q.pid.getD 0
  | none => 0

/-! ## The context cache (R361 to R365) -/

def cacheEnt (g : Engine) (qpn : Nat) : Option CacheEnt := g.cache.find? (·.qpn == qpn)

/-- The context of a QP is cached in its engine. -/
def cached (s : State) (e qpn : Nat) : Bool :=
  match cacheEnt (getEngine s e) qpn with
  | some c => !c.fetching && !c.writing
  | none => false

/-- A cached context used, and changed: it becomes the most recently used. -/
def touch (e qpn : Nat) (s : State) : State :=
  setEngine e (fun g =>
    match cacheEnt g qpn with
    | some c => { g with cache := g.cache.erase c ++ [{ c with dirty := true, usedAt := some s.dc }] }
    | none => g) s

/-- R362's evictable entries. -/
def evictable (s : State) (c : CacheEnt) : Bool :=
  !c.fetching && !c.writing && c.usedAt != some s.dc
    && (match tget s.qps c.qpn with
        | some q => !q.pin && q.outst.isEmpty && q.stall.isNone
        | none => true)

/-- Contexts of a bay in the caches of a hall. -/
def ctxInHall (s : State) (h b : Nat) : Nat :=
  (getHall s h).engines.foldl (fun n e => n + (e.2.cache.filter (·.bay == b)).length) 0

/-- CTX_SHARE of a bay. -/
def ctxShare (s : State) (b : Nat) : Nat :=
  match tget s.bays b with
  | some y => y.tgt.ctx
  | none => 0

/-- The victim for bay `b` (R362): none when none is evictable, `some none` for a free entry. -/
def victim (s : State) (e b : Nat) : Option (Option CacheEnt) :=
  let g := getEngine s e
  let h := e / 8
  let ev := g.cache.filter (evictable s)
  if g.cache.length < 256 then some none
  else
    match (if ctxShare s b ≤ ctxInHall s h b then ev.find? (·.bay == b) else none) with
    | some c => some (some c)
    | none =>
      match ev.find? (fun c => decide (ctxShare s c.bay < ctxInHall s h c.bay)) with
      | some c => some (some c)
      | none => ev.head?.map some

/-- A fetch of a context starts, waits for a victim, or waits for the victim's write-back (R362, R364). -/
def startFetch (e qpn : Nat) (s : State) : State :=
  let g := getEngine s e
  let b := match tget s.qps qpn with | some q => q.bay | none => 0
  let wait := setEngine e (fun g => { g with waiting := if g.waiting.contains qpn then g.waiting else g.waiting ++ [qpn] })
  let put := fun (c : List CacheEnt) =>
    setEngine e (fun g => { g with cache := c ++ [{ qpn := qpn, bay := b, fetching := true }] }) s
  match cacheEnt g qpn with
  | some c => if c.writing then wait s else s
  | none =>
    match victim s e b with
    | none => wait s
    | some none => put g.cache
    | some (some c) =>
      if !c.dirty then put (g.cache.erase c)
      else if (g.cache.filter (·.writing)).length > g.waiting.length then wait s
      else wait (setEngine e (fun g => { g with cache := g.cache.map fun x => if x.qpn = c.qpn then { x with writing := true } else x }) s)

/-- Fetches that wait are tried again in their order. -/
def kick (e : Nat) (s : State) : State :=
  let w := (getEngine s e).waiting
  w.foldl (fun s q => startFetch e q s) (setEngine e (fun g => { g with waiting := [] }) s)

/-- Outstanding-packet entries, reassembly records and park slots of an engine's QPs. -/
def engineSum (s : State) (e : Nat) (f : Qp → Nat) : Nat :=
  (s.qps.filter fun x => x.2.engine == e).foldl (fun n x => n + f x.2) 0

def parkSlots (m : Msg) : Nat := ceilDiv (16 + m.dlen) 4096

/-! ## Packets and answers -/

/-- A packet of a QP toward a destination QP. -/
def packet (s : State) (qpn : Nat) (q : Qp) (cls : Cls) (pid : Nat) (g : Gal) : Msg :=
  { cls := cls, kind := 2, dpid := pid, spid := bayPid s q.bay, dlen := 40 + g.payload.length,
    service := defaultService cls, gal := some { g with sqpn := qpn, spray := q.cfg.spray }, owner := some q.bay }

/-- The answer to a packet: ACK, or NAK with a status and hint (R356, R359). -/
def answer (s : State) (pkt : Msg) (g : Gal) (op st hint : Nat) : Msg :=
  let q := tget s.qps g.dqpn
  { cls := .rsp, kind := 2, dpid := pkt.spid, spid := pkt.dpid, dlen := 40, service := defaultService .rsp,
    owner := q.map (·.bay),
    gal := some { op := op, ece := g.ce, mtu := g.mtu, status := st, hint := hint, dqpn := g.sqpn, sqpn := g.dqpn,
                  msn := g.msn, offset := g.offset, spray := (match q with | some x => x.cfg.spray | none => false) } }

def ack (s : State) (pkt : Msg) (g : Gal) : Msg := answer s pkt g 6 0 0
def nak (s : State) (pkt : Msg) (g : Gal) (st hint : Nat) : Msg := answer s pkt g 7 st hint

/-- NAK statuses (Packets). -/
def nkLater : Nat := 1
def nkAccess : Nat := 2
def nkError : Nat := 3
def nkSmall : Nat := 4

def oDgramDrop : Nat := 0x0
def oParkFull : Nat := 0x4
def oGeRxProto : Nat := 0x8
def oGeRxDup : Nat := 0xC

/-- A packet is refused: NAK for WRITE, READ_REQ and SEND; a DATAGRAM is discarded and counted; the others are not answered
(R355, R356). -/
def refuse (e : Nat) (pkt : Msg) (g : Gal) (st hint : Nat) (s : State) : State :=
  if g.op = 1 || g.op = 2 || g.op = 4 then engineSend e (nak s pkt g st hint) s
  else if g.op = 5 then bumpEngine e oDgramDrop s
  else s

/-! ## Engine accesses (R341, R448, R449) -/

/-- A posted write of an engine for a bay. Its header of 16 bytes is PRESUMED (log 14). -/
def writeMsg (s : State) (b addr : Nat) (bs : Bytes) : Msg :=
  { cls := .wr, kind := 0, dpid := bayPid s b, spid := bayPid s b, dlen := 16 + bs.length, addr := some addr,
    len := bs.length, body := bs, reqId := fnId s (.bay b), owner := some b, service := defaultService .wr }

/-- The port a buffer's bytes go to: the bay's H port, or the D port behind a virtual bridge of its VH. -/
def memPort (s : State) (b : Nat) (bridge : Option Nat) (m : Msg) : Option Nat :=
  match bridge, bayPort s b with
  | some n, some h => bridgePort s h n m
  | none, p => p
  | _, none => none

/-- One part of a checked write sent, with its access in flight (R453). -/
def sendWrite (e b : Nat) (bridge : Option Nat) (p : Place) (addr : Nat) (bs : Bytes) (s : State) : State :=
  let m := writeMsg s b addr bs
  match memPort s b bridge m with
  | some port =>
    let tok := s.nextMid
    let s := { s with nextMid := tok + 1 }
    let a : Access := { mpu := e, epoch := (getMpu s e).epoch, write := true, mid := some tok, port := port, tag := 0 }
    let s := setGn (fun g => { g with acc := g.acc ++ [a] }) s
    enginePut e { msg := m, port := some port, tok := some tok, place := some p } s
  | none => s

/-- The requests of one passing part: none is longer than the maximum payload size of the H port (R191). -/
def pieces (mps lo len : Nat) : List (Nat × Nat × Bool) :=
  (List.range (ceilDiv len mps)).map fun i => (lo + i * mps, min mps (len - i * mps), true)

/-- The maximum payload size a bay writes with. -/
def bayMps (s : State) (b : Nat) : Nat := match (bayPort s b).bind (getPort s) with | some q => max 1 q.std.mps | none => 128

/-- An engine writes bytes: the parts that pass go out, the last with the answers owed; parts that fail are dropped. The
flag says that every part passed (R447 to R449). -/
def engineWrite (e b : Nat) (bridge : Option Nat) (p : Place) (addr : Nat) (bs : Bytes) (s : State) : Bool × State :=
  let (parts, s) := mpuCheck e b true addr bs.length s
  let pass := allPass parts
  let send := fun (s : State) (x : Nat × Nat × Bool) =>
    if x.2.2 then
      let last := pass && x.1 + x.2.1 = addr + bs.length
      let p := if last then p else { p with ok := none, bad := none, msn := none }
      sendWrite e b bridge p x.1 (slice bs (x.1 - addr) x.2.1) s
    else dropWrite e s
  (pass, (parts.flatMap fun x => if x.2.2 then pieces (bayMps s b) x.1 x.2.1 else [x]).foldl send s)

/-- An engine reads a range: does every part pass? -/
def engineRead (e b addr len : Nat) (s : State) : Bool × State :=
  let (parts, s) := mpuCheck e b false addr len s
  (allPass parts, s)

/-- An MSI-X message of a bay's engine follows what the engine has written (R225, R350). Its body is the model's mark: 0x4D
and the vector (log 17). -/
def engineMsix (e b v : Nat) (s : State) : State :=
  match tget s.bays b with
  | some y =>
    if y.st != .active || v ≥ msixHeld s b y then s
    else if y.bme && y.tdi != .error && y.msixOpen.contains v then
      enginePut e { msg := { cls := .wr, kind := 0, dlen := 20, len := 4, reqId := fnId s (.bay b), owner := some b, body := 0x4D :: le 2 v },
                    port := some y.hport } s
    else setBay b (fun z => { z with msixPend := if z.msixPend.contains v then z.msixPend else z.msixPend ++ [v] }) s
  | none => s

/-! ## Work requests (R344 to R348, R369) -/

/-- May the engine issue requests for this bay: take ring entries, write completions (R216, R222, R398)? -/
def bayTakes (s : State) (b : Nat) : Bool :=
  match tget s.bays b with
  | some y => y.st == .active && y.bme && y.tdi != .error
  | none => false

/-- The status with which a work request fails before any packet, and the state with violations captured (R345, R369,
R448). -/
def checkWqe (s : State) (q : Qp) (w : Wqe) (env : GEnv) : Option Nat × State :=
  let dg := q.dgram == some true
  let suits := if dg then w.op == 4 else w.op == 1 || w.op == 2 || w.op == 3
  if !suits || (w.op = 4 && mtuBytes q.cfg.mtu < w.length) then (some 9, s)
  else
    match localStatus s q.bay w with
    | some st => (some st, s)
    | none =>
      if env.xlatFail then (some 1, s)
      else if w.op = 2 then (none, s)
      else
        let (ok, s) := engineRead q.engine q.bay w.localAddr w.length s
        (if ok then none else some 1, s)

/-- The ring entry at a place is read: does its access pass (R341)? -/
def ringRead (s : State) (q : Qp) (base log n : Nat) : Bool × State :=
  engineRead q.engine q.bay (base + 64 * (n % 2 ^ log)) 64 s

/-- One SQ entry of a QP in RTS taken: checked, and in progress or failed. -/
def takeWqe (qpn : Nat) (q : Qp) (w : Wqe) (env : GEnv) (s : State) : State :=
  let (st, s) := checkWqe s q w env
  let wr : Wr := { wqe := w, msn := q.nextMsn, ssn := q.nextSsn }
  let s := setQp qpn (fun q => { q with
    sqCons := (q.sqCons + 1) % 4096, nextMsn := (q.nextMsn + 1) % 2 ^ 24,
    nextSsn := if w.op = 3 then (q.nextSsn + 1) % 2 ^ 24 else q.nextSsn, wrs := q.wrs ++ [wr] }) s
  match st with
  | some k => setQp qpn (errorQp (some wr.msn) k) s
  | none => s

/-- SQ entries are taken in index order, each with a read for which a tag is free (R193), while PHASE matches and fewer than 8 messages are incomplete; in ERROR each
completes FLUSHED (R344, R352, R378). The first may be pushed (R347): it is not read from the ring. -/
def takeSq (qpn : Nat) (pushed : Bool) (env : GEnv) : List Wqe → State → State
  | [], s => s
  | w :: r, s =>
    match tget s.qps qpn with
    | some q =>
      if !bayTakes s q.bay || (!pushed && !bayTag s q.bay) || w.phase != passPhase q.sqCons q.cfg.sqLog then s
      else
        let (ok, s) := if pushed then (true, s) else ringRead s q q.cfg.sqAddr q.cfg.sqLog q.sqCons
        (match q.st with
         | .rts =>
           if !ok then setQp qpn (errorQp none 1) s
           else if 8 ≤ (q.wrs.filter (·.done.isNone)).length then s
           else takeSq qpn false env r (takeWqe qpn q w env s)
         | .error =>
           if !ok then s
           else
             takeSq qpn false env r (setQp qpn (fun q => { q with
               sqCons := (q.sqCons + 1) % 4096,
               held := q.held ++ [{ wrId := w.wrId, bytes := w.length, status := 7 }] }) s)
         | _ => s)
    | none => s

/-- RQ entries are taken in index order while PHASE matches (R344, R345); in ERROR each completes FLUSHED. -/
def takeRq (qpn : Nat) : List Wqe → State → State
  | [], s => s
  | w :: r, s =>
    match tget s.qps qpn with
    | some q =>
      if !bayTakes s q.bay || !bayTag s q.bay || w.phase != passPhase q.rqCons q.cfg.rqLog || q.st == .reset then s
      else
        let (ok, s) := ringRead s q q.cfg.rqAddr q.cfg.rqLog q.rqCons
        if !ok then setQp qpn (errorQp none 1) s
        else
          let n := q.rqCons
          let next := fun (q : Qp) => { q with rqCons := (n + 1) % 2 ^ 24 }
          if q.st == .error then
            takeRq qpn r (setQp qpn (fun q => { next q with held := q.held ++ [flushRqe (q.dgram == some true) n w] }) s)
          else if w.op != 8 then
            let c : Cqe := { wrId := w.wrId, status := 9, kind := 1 }
            setQp qpn (fun q => let q := errorQp none 7 (next q); { q with held := c :: q.held }) s
          else takeRq qpn r (setQp qpn (fun q => { next q with rqes := tset q.rqes n w }) s)
    | none => s

/-! ## First sends (R376 to R378, R375) -/

/-- The first work request in SQ order with a packet not yet sent, and whether an earlier READ is incomplete. -/
def nextToSend (code : Nat) : List Wr → Bool → Option (Wr × Bool)
  | [], _ => none
  | w :: r, reading =>
    if w.done.isNone && decide (w.sent < packetCount w.wqe.length code) then some (w, reading)
    else nextToSend code r (reading || (w.done.isNone && w.wqe.op == 2))

/-- R376 to R378: may this packet be sent for the first time? -/
def maySend (s : State) (q : Qp) (w : Wr) (reading : Bool) : Bool :=
  q.st == .rts && q.stall.isNone && !(w.wqe.fence && reading)
    && (w.wqe.op == 4
        || (decide (w.sent < w.base + 512) && decide (q.outst.length < q.w / 256)
            && decide (engineSum s q.engine (·.outst.length) < 8192)))

/-- The packet of index `w.sent` with its payload. -/
def firstPacket (s : State) (qpn : Nat) (q : Qp) (w : Wr) (data : Bytes) : Msg :=
  let i := w.sent
  let last := i + 1 = packetCount w.wqe.length q.cfg.mtu
  let read := w.wqe.op = 2
  let g : Gal :=
    { op := if w.wqe.op = 1 then 1 else if read then 2 else if w.wqe.op = 3 then 4 else 5, last := last, mtu := q.cfg.mtu,
      dqpn := if w.wqe.op = 4 then w.wqe.destQpn else q.cfg.peerQpn, msn := if w.wqe.op = 4 then 0 else w.msn,
      offset := i * mtuBytes q.cfg.mtu, tlen := if last || read then w.wqe.length else 0,
      rmr := if w.wqe.op ≤ 2 then w.wqe.remoteMr else 0, roff := if w.wqe.op ≤ 2 then w.wqe.remoteOff % 2 ^ 48 else 0,
      ssn := if w.wqe.op = 3 then w.ssn else 0, payload := if read then [] else data }
  packet s qpn q (if read then .req else .wr) (if w.wqe.op = 4 then w.wqe.destPid else q.cfg.peerPid) g

/-- A packet sent for the first time: its entry taken, the counts advanced (R357, R378). -/
def sendFirst (qpn : Nat) (q : Qp) (w : Wr) (m : Msg) (s : State) : State :=
  let o : Outst := { msn := w.msn, idx := w.sent, pkt := m, sentAt := nsNow s, no := q.sent }
  let s := setQp qpn (fun q => { q with
    sent := q.sent + 1,
    wrs := q.wrs.map fun x => if x.msn = w.msn then { x with sent := x.sent + 1 } else x,
    outst := if w.wqe.op = 4 then q.outst else q.outst ++ [o] }) s
  engineSend q.engine m s

/-- One packet sent for the first time, with the data left; none when the QP may send no more now, when its TDI is in ERROR, or
when no tag is free for the read of its data (R193, R216). -/
def sendOne (qpn : Nat) (env : GEnv) (data : Bytes) (s : State) : Option (State × Bytes) :=
  match tget s.qps qpn with
  | some q =>
    match nextToSend q.cfg.mtu q.wrs false with
    | some (w, reading) =>
      if !maySend s q w reading || !tdiIssues s q.bay || (w.wqe.op != 2 && !bayTag s q.bay) then none
      else
        let len := packetLen w.wqe.length q.cfg.mtu w.sent
        let lo := w.wqe.localAddr + w.sent * mtuBytes q.cfg.mtu
        if w.wqe.op = 2 then some (sendFirst qpn q w (firstPacket s qpn q w []) s, data)
        else
          match curRegion s q.bay w.wqe.localMr with
          | none => some (setQp qpn (errorQp (some w.msn) 1) s, data)
          | some r =>
            let (gone, s) := translate q.engine q.bay r env lo len s
            match gone with
            | some page => some (pageRequest q.bay page (setQp qpn (fun q => { q with stall := some (page, w.msn) }) s), data)
            | none =>
              let (ok, s) := engineRead q.engine q.bay lo len s
              if !ok || env.xlatFail then some (setQp qpn (errorQp (some w.msn) 1) s, data)
              else some (sendFirst qpn q w (firstPacket s qpn q w (fit len data)) s, data.drop len)
    | none => none
  | none => none

/-- First sends go on while the limits allow. -/
def sendSome (qpn : Nat) (env : GEnv) : Nat → Bytes → State → State
  | 0, _, s => s
  | n + 1, data, s =>
    match sendOne qpn env data s with
    | some (s, d) => sendSome qpn env n d s
    | none => s

/-- A doorbell on a cached context: entries are taken and their first packets sent. -/
def runSq (qpn : Nat) (pushed : Bool) (env : GEnv) (s : State) : State :=
  sendSome qpn env 513 env.data (takeSq qpn pushed env env.entries s)

/-! ## Acknowledgements and re-sends (R356 to R360, R376) -/

/-- STEP and DEC of a QP's class (R376). -/
def qpClass (s : State) (q : Qp) : Nat × Nat := tgetD s.qcls q.cls (1, 2)

def findOutst (q : Qp) (msn idx : Nat) : Option Outst := q.outst.find? fun o => o.msn == msn && o.idx == idx

/-- The packet index of an OFFSET. -/
def idxOfOffset (q : Qp) (off : Nat) : Nat := off / mtuBytes q.cfg.mtu

/-- A packet is acknowledged: its entry ends, the window follows, its message may be complete (R357, R376, R383). -/
def acknowledged (s : State) (q : Qp) (o : Outst) (marked : Bool) (bytes : Nat) : Qp :=
  let c := qpClass s q
  let q := ackWindow c marked o.no { q with outst := q.outst.erase o }
  finishWrs { q with wrs := q.wrs.map fun w => if w.msn = o.msn then ackWr q.cfg.mtu o.idx bytes w else w }

/-- An outstanding packet is sent again, unless its TDI is in ERROR (R216). -/
def resend (qpn : Nat) (o o' : Outst) (s : State) : State :=
  match tget s.qps qpn with
  | some q =>
    if !tdiIssues s q.bay then setQp qpn (fun q => { q with outst := q.outst.map fun x => if x == o then o' else x }) s
    else
    let s := setQp qpn (fun q => { q with resent := q.resent + 1, outst := q.outst.map fun x => if x == o then o' else x }) s
    engineSend q.engine o.pkt s
  | none => s

/-- The expiry of an entry's RTO acts (R357, R376): it is sent again, or its request completes RETRY_EXCEEDED. -/
def rtoActs (qpn : Nat) (s : State) (o : Outst) : State :=
  match tget s.qps qpn with
  | some q =>
    if !q.outst.contains o then s
    else
      let s := setQp qpn (decreaseQp (qpClass s q).2) s
      if q.cfg.retry ≤ o.tries then setQp qpn (errorQp (some o.msn) 6) s
      else resend qpn o { o with sentAt := nsNow s, tries := o.tries + 1, due := none } s
  | none => s

/-- Expiries of earlier cycles act, oldest entry first (R360). -/
def settleRto (qpn : Nat) (s : State) : State :=
  match tget s.qps qpn with
  | some q => (q.outst.filter fun o => match o.due with | some d => decide (d < s.dc) | none => false).foldl (rtoActs qpn) s
  | none => s

/-! ## Completions (R348 to R350) -/

/-- A completion entry is held for writing. -/
def hold (qpn : Nat) (c : Cqe) (s : State) : State := setQp qpn (fun q => { q with held := q.held ++ [c] }) s

/-- May the engine write a completion of this QP now (R349, R353, R398)? -/
def mayComplete (s : State) (q : Qp) : Bool := bayTakes s q.bay && !crFull q

/-- The next held completion is written, then its MSI-X sent (R344, R349, R350). -/
def writeCqe (qpn : Nat) (s : State) : State :=
  match tget s.qps qpn with
  | some q =>
    match q.held with
    | c :: r =>
      let addr := q.cfg.crAddr + 32 * (q.crProd % 2 ^ q.cfg.crLog)
      let p : Place := { eng := q.engine, qpn := qpn, bay := q.bay }
      let (ok, s) := engineWrite q.engine q.bay none p addr (cqeBytes c (passPhase q.crProd q.cfg.crLog)) s
      let s := setQp qpn (fun q => { q with held := r, crProd := (q.crProd + 1) % 4096 }) s
      if !ok then setQp qpn (fun q => if q.st == .error then q else errorQp none 1 q) s
      else
        (match q.cfg.vector with
         | some v => if q.msiSent then s else engineMsix q.engine q.bay v (setQp qpn (fun q => { q with msiSent := true }) s)
         | none => s)
    | [] => s
  | none => s

end Sys2Proof.Machine
end

