-- ==== Sys2Proof/Machine/Gallery.lean ====
section
/-! DEFINITION. The rows of the Gallery engines: doorbells, first sends, context fetches, the packets of requester and
responder, re-sends, completions and pages (09_gallery_engines). -/

namespace Sys2Proof.Machine

open Sys2Proof

/-! ## Doorbells (R346, R347, R349, R361, R398) -/

/-- A doorbell that is no QP of the bay: counted and reported (R346). Its engine and actor are DEDUCED (log 23). -/
def doorbellError (b qpn : Nat) (s : State) : State :=
  match bayPort s b with
  | some p =>
    let h := hallOf p
    let s := bumpHall h oDbErr 1 s
    (match tget s.qps qpn with
     | some q => let e := if q.engine / 8 = h then q.engine else 8 * h; fire (srcEngCorr e) 1 e q.bay s
     | none => fire (srcEngCorr (8 * h)) 1 (8 * h) noActor s)
  | none => s

/-- A doorbell of an ACTIVE bay whose window the host reaches, on a QP of its own, runs `f`; for another QP it is an error
(R346, R387, R398). -/
def doorbell (b qpn : Nat) (f : Qp → State → State) (s : State) : State :=
  match tget s.bays b with
  | some y =>
    if y.st != .active || !bayReach s b then s
    else
      match tget s.qps qpn with
      | some q => if q.bay = b then f q s else doorbellError b qpn s
      | none => doorbellError b qpn s
  | none => s

/-- GE_SQ_DB (R346, R361): the SQ of a QP has new entries. -/
def execGeSqDb (bay value : Nat) (env : GEnv) (s : State) : Host.Outcome State Fault Refusal :=
  act s fun s =>
    let n := value % 2 ^ 20
    doorbell bay n (fun q s =>
      if cached s q.engine n then kick q.engine (runSq n false env (touch q.engine n s))
      else startFetch q.engine n (setQp n (fun q => { q with dbPend := true }) s)) s

/-- GE_RQ_DB (R346, R361): the RQ of a QP has new entries. -/
def execGeRqDb (bay value : Nat) (env : GEnv) (s : State) : Host.Outcome State Fault Refusal :=
  act s fun s =>
    let n := value % 2 ^ 20
    doorbell bay n (fun q s =>
      if cached s q.engine n then takeRq n env.entries (touch q.engine n s)
      else startFetch q.engine n (setQp n (fun q => { q with rqPend := true }) s)) s

/-- GE_CR_DB (R349, R350): the CR's consumer index moves and its MSI-X may be sent again. -/
def execGeCrDb (bay value : Nat) (s : State) : Host.Outcome State Fault Refusal :=
  act s fun s =>
    let n := value % 2 ^ 20
    doorbell bay n (fun q s =>
      let s := setQp n (fun q => { q with crCons := value / 2 ^ 20 % 4096, msiSent := false }) s
      if cached s q.engine n then touch q.engine n s else startFetch q.engine n s) s

/-- GE_SQ_PUSH (R347): a doorbell that carries the next work request; a write that is not one aligned 64-byte write is
counted. -/
def execGeSqPush (bay : Nat) (bytes : Bytes) (aligned : Bool) (env : GEnv) (s : State) :
    Host.Outcome State Fault Refusal :=
  act s fun s =>
    if !aligned || bytes.length != 64 then
      match (if bayReach s bay then bayPort s bay else none) with
      | some p => bumpHall (hallOf p) oDbErr 1 s
      | none => s
    else
      let n := unle (slice bytes 48 4) % 2 ^ 20
      let index := unle (slice bytes 52 2) % 4096
      doorbell bay n (fun q s =>
        if cached s q.engine n then
          let s := touch q.engine n s
          kick q.engine (if index = q.sqCons then runSq n true { env with entries := wqeOf bytes :: env.entries } s
                         else runSq n false env s)
        else startFetch q.engine n (setQp n (fun q => { q with dbPend := true }) s)) s

/-- PACKET_FIRST_SEND (R376 to R378): a QP whose context is cached takes further entries and sends one packet. -/
def execPacketFirstSend (qpn : Nat) (env : GEnv) (s : State) : Host.Outcome State Fault Refusal :=
  act s fun s =>
    match tget s.qps qpn with
    | some q =>
      if cached s q.engine qpn then
        let s := settleRto qpn s
        let s := takeSq qpn false env env.entries (touch q.engine qpn s)
        ((sendOne qpn env env.data s).map (·.1)).getD s
      else s
    | none => s

/-! ## The responder (R355, R356, R370, R374, R379 to R382) -/

/-- The 24-bit difference of R379. -/
def msnDiff (msn next : Nat) : Nat := (msn + 2 ^ 24 - next % 2 ^ 24) % 2 ^ 24

def findRec (q : Qp) (msn : Nat) : Option Rec := q.recs.find? (·.msn == msn)

/-- A record changed, or added. -/
def putRec (q : Qp) (r : Rec) : Qp :=
  { q with recs := if (findRec q r.msn).isSome then q.recs.map fun x => if x.msn = r.msn then r else x else q.recs ++ [r] }

/-- The bay of a QP is in reset: a packet that starts a message is turned away (R398). -/
def bayResetting (s : State) (q : Qp) : Bool :=
  match tget s.bays q.bay with
  | some y => y.st != .active
  | none => true

/-- A packet outside the protocol (R379, R380). -/
def outsideProtocol (e : Nat) (q : Qp) (s : State) : State := fire (srcEngine e) 2 e q.bay (bumpEngine e oGeRxProto s)

/-- Complete messages at the front of the MSN order advance NEXT; a SEND gives its receive completion (R348, R381, R383). -/
def advanceNext : Nat → Qp → Qp
  | 0, q => q
  | n + 1, q =>
    match findRec q q.next with
    | some r =>
      if r.complete then
        let q := if r.op = 4 then
            let c : Cqe := { wrId := r.wrId, bytes := r.count, seq := r.ssn, status := r.status, kind := 1 }
            { q with held := q.held ++ [c], rqes := tdel q.rqes r.ssn, nextRcv := (r.ssn + 1) % 2 ^ 24 }
          else q
        advanceNext n { q with recs := q.recs.filter fun x => x.msn != r.msn, next := (q.next + 1) % 2 ^ 24 }
      else q
    | none => q

/-- What the packet of an index does to its record (R380). -/
inductive Slot where
  | dup | outside | fresh
  deriving DecidableEq, Repr

def recSlot (r : Rec) (i : Nat) : Slot :=
  if i < r.base || r.bits.contains i then .dup else if r.base + 511 < i then .outside else .fresh

/-- The record with a packet placed (R380): its bit, its bytes, T, and completeness. -/
def recPlace (r : Rec) (i bytes : Nat) (t : Option Nat) : Rec :=
  let (b, l) := markIndex r.base r.bits i
  let total := match t with | some x => some x | none => r.total
  { r with base := b, bits := l, count := r.count + bytes, total := total,
           complete := r.complete || total == some (r.count + bytes) }

/-- The record of a packet's message, a new one when it is not in progress. -/
def recFor (q : Qp) (g : Gal) : Rec := (findRec q g.msn).getD { msn := g.msn, op := g.op, ssn := g.ssn }

/-- A new message finds no free record in its engine (R380). -/
def noRecord (s : State) (e : Nat) (q : Qp) (g : Gal) : Bool :=
  (findRec q g.msn).isNone && decide (2048 ≤ engineSum s e (·.recs.length))

/-- One check of R379, R380 and R398 common to WRITE, SEND and READ_REQ: what to do instead of placing, if anything. -/
def beforePlace (e : Nat) (pkt : Msg) (g : Gal) (q : Qp) (served : State → State) (s : State) : Option State :=
  let d := msnDiff g.msn q.next
  if 2 ^ 23 ≤ d then some (served s)
  else if 8 ≤ d then some (outsideProtocol e q s)
  else if (findRec q g.msn).isNone && bayResetting s q then some (refuse e pkt g nkError 0 s)
  else
    match recSlot (recFor q g) (g.offset / mtuBytes g.mtu) with
    | .dup => some (served (bumpEngine e oGeRxDup s))
    | .outside => some (outsideProtocol e q s)
    | .fresh => if noRecord s e q g then some (refuse e pkt g nkLater 8 s) else none

/-- A page that is missing, or whose request failed, in a PAGING 1 region (R374): the answer instead of the access, and the state with
the pages that are translated. -/
def pageRefusal (e : Nat) (pkt : Msg) (g : Gal) (q : Qp) (r : Region) (env : GEnv) (lo len : Nat) (s : State) :
    Option State × State :=
  let bad := match tget s.bays q.bay with | some y => y.badPages | none => []
  if r.paging && (pagesOf lo len).any (bad.contains ·) then (some (refuse e pkt g nkAccess 0 s), s)
  else if env.xlatFail then (some (refuse e pkt g nkAccess 0 s), s)
  else
    match translate e q.bay r env lo len s with
    | (some page, t) => (some (refuse e pkt g nkLater 64 (pageRequest q.bay page t)), t)
    | (none, t) => (none, t)

/-- Bytes of a packet placed at an address: answered when they have left flight, at once when there are none; refused when a
part fails (R356, R448, R449). The flag says that they were placed. -/
def place (e : Nat) (pkt : Msg) (g : Gal) (q : Qp) (region : Nat) (r : Region) (env : GEnv) (lo : Nat) (s : State) :
    Bool × State :=
  if g.payload.isEmpty then (true, engineSend e (ack s pkt g) s)
  else
    let p : Place := { eng := e, qpn := g.dqpn, bay := q.bay, region := some region,
                       pages := if r.paging then pagesOf lo g.payload.length else [],
                       ok := some (ack s pkt g), bad := some (nak s pkt g nkAccess 0) }
    let (ok, s) := engineWrite e q.bay env.bridge p lo g.payload s
    (ok, if ok then s else engineSend e (nak s pkt g nkAccess 0) s)

/-- The region a WRITE or READ_REQ names, when it passes R370 for `len` bytes. -/
def remoteRegion (s : State) (q : Qp) (g : Gal) (write : Bool) (len : Nat) : Option Region :=
  match curRegion s q.bay g.rmr with
  | some r =>
    let ok := if write then bit r.access 1 else bit r.access 0
    if ok && decide (g.roff + g.offset + len ≤ r.length) then some r else none
  | none => none

/-- The placement a packet would repeat is still in flight: its acknowledgement follows it (R449). -/
def placing (s : State) (g : Gal) : Bool :=
  let same := fun (p : Place) => p.qpn == g.dqpn && (match p.ok.bind (·.gal) with
    | some a => a.msn == g.msn && a.offset == g.offset && a.dqpn == g.sqpn
    | none => false)
  s.places.any (fun e => same e.2)
    || s.halls.any fun x => x.2.engines.any fun e => e.2.outQ.any fun m => (m.place.map same).getD false

/-- A duplicate is acknowledged again (R379, R380). -/
def ackAgain (e : Nat) (pkt : Msg) (g : Gal) (s : State) : State := if placing s g then s else engineSend e (ack s pkt g) s

/-- A WRITE packet (R370, R374, R380). -/
def onWrite (e : Nat) (pkt : Msg) (g : Gal) (q : Qp) (env : GEnv) (s : State) : State :=
  match beforePlace e pkt g q (ackAgain e pkt g) s with
  | some t => t
  | none =>
    match remoteRegion s q g true g.payload.length with
    | none => refuse e pkt g nkAccess 0 s
    | some r =>
      let lo := r.addr + g.roff + g.offset
      match pageRefusal e pkt g q r env lo g.payload.length s with
      | (some t, _) => t
      | (none, s) =>
        let (ok, s) := place e pkt g q g.rmr r env lo s
        if ok then
          let t := if g.last then some g.tlen else none
          setQp g.dqpn (fun q =>
            advanceNext 8 (putRec q (recPlace (recFor q g) (g.offset / mtuBytes g.mtu) g.payload.length t))) s
        else s

/-- The READ_RSP of a READ_REQ with the bytes read. -/
def readRsp (s : State) (pkt : Msg) (g : Gal) (q : Qp) (data : Bytes) : Msg :=
  let last := decide (g.tlen ≤ g.offset + data.length)
  packet s g.dqpn q .rsp pkt.spid
    { op := 3, last := last, ece := g.ce, mtu := g.mtu, dqpn := g.sqpn, msn := g.msn, offset := g.offset,
      tlen := if last then g.tlen else 0, payload := data }

/-- A READ_REQ is served: its bytes read and sent, or refused. The flag says that it was served (R370, R374, R448). -/
def serveRead (e : Nat) (pkt : Msg) (g : Gal) (q : Qp) (env : GEnv) (s : State) : Bool × State :=
  let len := packetLen g.tlen g.mtu (g.offset / mtuBytes g.mtu)
  match remoteRegion s q g false len with
  | none => (false, refuse e pkt g nkAccess 0 s)
  | some r =>
    let lo := r.addr + g.roff + g.offset
    match pageRefusal e pkt g q r env lo len s with
    | (some t, _) => (false, t)
    | (none, s) =>
      let (ok, s) := engineRead e q.bay lo len s
      if ok then (true, engineSend e (readRsp s pkt g q (fit len env.data)) s) else (false, refuse e pkt g nkAccess 0 s)

/-- A READ_REQ of the message at NEXT: served and counted (R382). -/
def readNow (e : Nat) (pkt : Msg) (g : Gal) (q : Qp) (env : GEnv) (s : State) : State :=
  let (ok, s) := serveRead e pkt g q env s
  if ok then
    let len := packetLen g.tlen g.mtu (g.offset / mtuBytes g.mtu)
    setQp g.dqpn (fun q => advanceNext 8 (putRec q (recPlace (recFor q g) (g.offset / mtuBytes g.mtu) len (some g.tlen)))) s
  else s

/-- READ_REQ packets that waited are served once their message is the lowest incomplete one and a tag is free (R193, R382). -/
def servePending (e qpn : Nat) : Nat → State → State
  | 0, s => s
  | n + 1, s =>
    match tget s.qps qpn with
    | some q =>
      match q.reads.find? fun x => match x.1.gal with | some g => g.msn == q.next && bayTag s q.bay | none => false with
      | some x =>
        let s := setQp qpn (fun q => { q with reads := q.reads.erase x }) s
        (match x.1.gal with
         | some g => servePending e qpn n (readNow e x.1 g q x.2 s)
         | none => s)
      | none => s
    | none => s

/-- A READ_REQ packet (R370, R382): served when its message is at NEXT and a tag is free, else it waits in
its message's record. -/
def onReadReq (e : Nat) (pkt : Msg) (g : Gal) (q : Qp) (env : GEnv) (s : State) : State :=
  match beforePlace e pkt g q (fun s => (serveRead e pkt g q env s).2) s with
  | some t => t
  | none =>
    if g.msn = q.next && bayTag s q.bay then readNow e pkt g q env s
    else
      setQp g.dqpn (fun q =>
        let q := putRec q (recFor q g)
        { q with reads := if q.reads.any (fun x => x.1 == pkt) then q.reads else q.reads ++ [(pkt, env)] }) s

/-- A SEND packet (R349, R381): the RQ entry of its SSN, its checks, its bytes. -/
def onSend (e : Nat) (pkt : Msg) (g : Gal) (q : Qp) (env : GEnv) (s : State) : State :=
  match beforePlace e pkt g q (ackAgain e pkt g) s with
  | some t => t
  | none =>
    if (findRec q g.msn).isNone && crFull q then refuse e pkt g nkLater 32 s
    else
      match tget q.rqes g.ssn with
      | none => refuse e pkt g nkLater 32 s
      | some w =>
        let fail := fun (st : Nat) (s : State) =>
          setQp g.dqpn (fun q =>
            advanceNext 8 (putRec q { recFor q g with status := st, complete := true, wrId := w.wrId })) s
        match localStatus s q.bay w with
        | some st => fail st (refuse e pkt g nkAccess 0 s)
        | none =>
          if w.length < g.offset + g.payload.length then fail 5 (refuse e pkt g nkSmall 0 s)
          else
            match curRegion s q.bay w.localMr with
            | none => s
            | some r =>
              let lo := w.localAddr + g.offset
              match pageRefusal e pkt g q r env lo g.payload.length s with
              | (some t, _) => t
              | (none, s) =>
                let (ok, s) := place e pkt g q w.localMr r env lo s
                if ok then
                  let t := if g.last then some g.tlen else none
                  setQp g.dqpn (fun q => advanceNext 8 (putRec q
                    { recPlace (recFor q g) (g.offset / mtuBytes g.mtu) g.payload.length t with wrId := w.wrId })) s
                else s

/-- A DATAGRAM packet (R349, R381): the next valid RQ entry, or a discard. -/
def onDatagram (e : Nat) (pkt : Msg) (g : Gal) (q : Qp) (env : GEnv) (s : State) : State :=
  let drop := bumpEngine e oDgramDrop s
  if bayResetting s q || crFull q then drop
  else
    match q.rqes with
    | [] => drop
    | (n, w) :: _ =>
      let done := fun (st bytes : Nat) (s : State) =>
        setQp g.dqpn (fun q => { q with
          rqes := tdel q.rqes n, nextRcv := (n + 1) % 2 ^ 24,
          held := q.held ++ [{ wrId := w.wrId, bytes := bytes, status := st, kind := 1, srcPid := pkt.spid, srcQpn := g.sqpn }] }) s
      if w.length < g.payload.length then drop
      else
        match localStatus s q.bay w, curRegion s q.bay w.localMr with
        | some st, _ => done st 0 drop
        | none, none => drop
        | none, some r =>
          let (gone, s) := translate e q.bay r env w.localAddr g.payload.length s
          match gone with
          | some page => bumpEngine e oDgramDrop (pageRequest q.bay page s)
          | none =>
            let p : Place := { eng := e, qpn := g.dqpn, bay := q.bay, region := some w.localMr,
                               pages := if r.paging then pagesOf w.localAddr g.payload.length else [] }
            let (ok, t) := engineWrite e q.bay env.bridge p w.localAddr g.payload s
            done (if ok then 0 else 1) g.payload.length t

/-! ## The requester (R357 to R360, R375, R383) -/

/-- An ACK (R357, R360, R376): one for no entry is ignored. -/
def onAck (g : Gal) (q : Qp) (s : State) : State :=
  match findOutst q g.msn (idxOfOffset q g.offset) with
  | some o =>
    if o.pkt.cls == .req then s else setQp g.dqpn (fun q => acknowledged s q o (g.ece || g.ce) 0) s
  | none => s

/-- The completion status a NAK gives (R358). -/
def nakStatus (st : Nat) : Nat := if st = 2 then 3 else if st = 4 then 5 else 4

/-- A NAK (R358, R359, R376). -/
def onNak (g : Gal) (q : Qp) (s : State) : State :=
  match findOutst q g.msn (idxOfOffset q g.offset) with
  | some o =>
    if g.status = nkLater then
      let dec := (qpClass s q).2
      setQp g.dqpn (fun q =>
        let q := decreaseQp dec q
        { q with later := satAdd 32 q.later 1,
                 outst := q.outst.map fun x => if x == o then { o with notBefore := some (nsNow s + 256 * g.hint) } else x }) s
    else
      setQp g.dqpn (fun q => let q := errorQp (some o.msn) (nakStatus g.status) q
                             { q with naks := satAdd 32 q.naks 1 }) s
  | none => s

/-- A READ_RSP (R375, R380, R383): its bytes placed in the READ's local buffer. -/
def onReadRsp (e : Nat) (g : Gal) (q : Qp) (env : GEnv) (s : State) : State :=
  let i := idxOfOffset q g.offset
  match findOutst q g.msn i, q.wrs.find? (·.msn == g.msn) with
  | some o, some w =>
    if o.pkt.cls != .req then s
    else
      let lo := w.wqe.localAddr + g.offset
      let len := g.payload.length
      (match curRegion s q.bay w.wqe.localMr with
       | none => setQp g.dqpn (errorQp (some w.msn) 1) s
       | some r =>
         let (gone, s) := translate e q.bay r env lo len s
         match gone with
         | some page =>
           pageRequest q.bay page (setQp g.dqpn (fun q => { q with
             stall := some (page, w.msn), outst := q.outst.map fun x => if x == o then { o with paged := true } else x }) s)
         | none =>
           let p : Place := { eng := e, qpn := g.dqpn, bay := q.bay, region := some w.wqe.localMr,
                              pages := if r.paging then pagesOf lo len else [], msn := some w.msn }
           let (ok, s) := engineWrite e q.bay env.bridge p lo g.payload s
           if !ok || env.xlatFail then setQp g.dqpn (errorQp (some w.msn) 1) s
           else setQp g.dqpn (fun q => acknowledged s q o (g.ece || g.ce) len) s)
  | _, _ => s

/-! ## Arrival at the engine (R355, R365, R366) -/

/-- The QP's kind admits the OP (R342, R355). -/
def opSuits (q : Qp) (op : Nat) : Bool :=
  if q.dgram == some true then op == 5 else (op == 1 || op == 2 || op == 3 || op == 4 || op == 6 || op == 7)

/-- Checks 2 to 4 of R355. -/
def responderOk (q : Qp) (pkt : Msg) (g : Gal) : Bool :=
  (q.st == .rtr || q.st == .rts)
    && (q.dgram == some true || (pkt.spid == q.cfg.peerPid && g.sqpn == q.cfg.peerQpn))
    && opSuits q g.op

/-- Packets that ask a responder for an access to memory. -/
def turnsAway (op : Nat) : Bool := op == 1 || op == 2 || op == 4 || op == 5

/-- A packet handled with its QP's context in the cache. With the TDI in ERROR its engine may issue no request: what asks for one
is refused with REMOTE_ERROR, and a READ_RSP is not placed (R216; the answer is the model's, DESIGN CHOICE, log 84). -/
def handlePacket (e : Nat) (pkt : Msg) (g : Gal) (env : GEnv) (s : State) : State :=
  let s := touch e g.dqpn (settleRto g.dqpn s)
  match tget s.qps g.dqpn with
  | some q =>
    if !responderOk q pkt g || (turnsAway g.op && !tdiIssues s q.bay) then refuse e pkt g nkError 0 s
    else if g.op = 3 && !tdiIssues s q.bay then s
    else
      let s := (match g.op with
        | 1 => onWrite e pkt g q env s
        | 2 => onReadReq e pkt g q env s
        | 3 => onReadRsp e g q env s
        | 4 => onSend e pkt g q env s
        | 5 => onDatagram e pkt g q env s
        | 6 => onAck g q s
        | _ => onNak g q s)
      servePending e g.dqpn 512 s
  | none => refuse e pkt g nkError 0 s

/-- Check 1 of R355: DQPN belongs to a bay of the H port that holds the packet's DPID. -/
def rightPort (s : State) (q : Qp) (pkt : Msg) : Bool :=
  match bayPort s q.bay with
  | some p => pidPort s pkt.dpid == some p
  | none => false

/-- A packet for a QP whose context is absent parks, or finds no room (R365, R366). -/
def park (e : Nat) (pkt : Msg) (g : Gal) (env : GEnv) (s : State) : State :=
  let used := engineSum s e fun q => (q.parked.map fun x => parkSlots x.1).sum
  if 64 < used + parkSlots pkt then
    if g.op = 3 || g.op = 6 || g.op = 7 then s
    else
      let s := bumpEngine e oParkFull s
      if g.op = 5 then s else engineSend e (nak s pkt g nkLater 8) s
  else startFetch e g.dqpn (setQp g.dqpn (fun q => { q with parked := q.parked ++ [(pkt, env)] }) s)

/-- A Gallery packet arrives at the engine that serves its QP (R355, R361, R365). -/
def arrive (pkt : Msg) (g : Gal) (env : GEnv) (s : State) : State :=
  match tget s.qps g.dqpn with
  | some q =>
    let e := q.engine
    if !rightPort s q pkt then refuse e pkt g nkError 0 s
    else if cached s e g.dqpn && q.parked.isEmpty then kick e (handlePacket e pkt g env s)
    else park e pkt g env s
  | none => refuse (galleryEngine s pkt) pkt g nkError 0 s

/-- A packet of a row's OP arrives; a packet of another OP is not this row's event (log 4). -/
def arriveOp (op : Nat) (pkt : Msg) (env : GEnv) (s : State) : State :=
  match pkt.gal with
  | some g => if g.op = op then arrive pkt g env s else s
  | none => s

/-- GALLERY_WRITE (R370): a WRITE packet is checked, placed and acknowledged by the responder. -/
def execGalleryWrite (pkt : Msg) (env : GEnv) (s : State) : Host.Outcome State Fault Refusal := act s (arriveOp 1 pkt env)

/-- GALLERY_READ_REQ (R382): a READ_REQ is served in MSN order with a READ_RSP. -/
def execGalleryReadReq (pkt : Msg) (env : GEnv) (s : State) : Host.Outcome State Fault Refusal := act s (arriveOp 2 pkt env)

/-- GALLERY_READ_RSP (R383): a READ_RSP is received, placed, and ends its entry. -/
def execGalleryReadRsp (pkt : Msg) (env : GEnv) (s : State) : Host.Outcome State Fault Refusal := act s (arriveOp 3 pkt env)

/-- GALLERY_SEND (R381): a SEND packet is placed in the RQ entry of its SSN. -/
def execGallerySend (pkt : Msg) (env : GEnv) (s : State) : Host.Outcome State Fault Refusal := act s (arriveOp 4 pkt env)

/-- GALLERY_DATAGRAM (R381): a DATAGRAM is placed in the next valid RQ entry or discarded. -/
def execGalleryDatagram (pkt : Msg) (env : GEnv) (s : State) : Host.Outcome State Fault Refusal := act s (arriveOp 5 pkt env)

/-- GALLERY_ACK (R357): an ACK ends an outstanding-packet entry and updates the window. -/
def execGalleryAck (pkt : Msg) (s : State) : Host.Outcome State Fault Refusal := act s (arriveOp 6 pkt {})

/-- GALLERY_NAK (R358): a NAK ends the work request, or RETRY_LATER schedules a re-send. -/
def execGalleryNak (pkt : Msg) (s : State) : Host.Outcome State Fault Refusal := act s (arriveOp 7 pkt {})

/-! ## Contexts (R340, R364 to R366) -/

/-- A fetch has failed: the parked packets are answered and the QP enters ERROR (R366). -/
def fetchFailed (e qpn : Nat) (s : State) : State :=
  let parked := match tget s.qps qpn with | some q => q.parked | none => []
  let s := setEngine e (fun g => { g with cache := g.cache.filter (·.qpn != qpn) }) s
  let s := setQp qpn (fun q => { errorQp none 1 q with parked := [], dbPend := false, rqPend := false }) s
  parked.foldl (fun s x => match x.1.gal with | some g => refuse e x.1 g nkError 0 s | none => s) s

/-- CONTEXT_FETCH_COMPLETE (R340, R341, R365, R366): the fetched context is used, or its check or its access has failed. -/
def execContextFetchComplete (qpn : Nat) (ok checkOk : Bool) (sq rq : GEnv) (s : State) :
    Host.Outcome State Fault Refusal :=
  act s fun s =>
    match tget s.qps qpn with
    | some q =>
      let e := q.engine
      match cacheEnt (getEngine s e) qpn with
      | some c =>
        if !c.fetching || !bayTag s q.bay then s
        else
          let base := match (tget s.bays q.bay).bind (·.ctx) with | some x => x.1 | none => 0
          let (pass, s) := engineRead e q.bay (base + 256 * q.slot) 256 s
          if !ok || !pass then kick e (fetchFailed e qpn s)
          else
            let s := setEngine e (fun g => { g with cache := g.cache.map fun x =>
              if x.qpn = qpn then { x with fetching := false } else x }) s
            let s := if checkOk then s else fire (srcEngine e) 1 e q.bay (setQp qpn (errorQp none 1) s)
            let s := setQp qpn (fun q => { q with parked := [], dbPend := false, rqPend := false }) s
            let s := q.parked.foldl (fun s x => match x.1.gal with | some g => handlePacket e x.1 g x.2 s | none => s) s
            let s := if q.rqPend then takeRq qpn rq.entries (touch e qpn s) else s
            let s := if q.dbPend then runSq qpn false sq (touch e qpn s) else s
            kick e s
      | none => s
    | none => s

/-- CONTEXT_WRITE_BACK_DONE (R364): a victim's write-back has completed and the fetch that waits for it starts. -/
def execContextWriteBackDone (qpn : Nat) (s : State) : Host.Outcome State Fault Refusal :=
  act s fun s =>
    match tget s.qps qpn with
    | some q =>
      let e := q.engine
      match cacheEnt (getEngine s e) qpn with
      | some c =>
        if !c.writing then s
        else
          let base := match (tget s.bays q.bay).bind (·.ctx) with | some x => x.1 | none => 0
          let (parts, s) := mpuCheck e q.bay true (base + 256 * q.slot) 256 s
          let s := if allPass parts then s else setQp qpn (errorQp none 1) (dropWrite e s)
          kick e (setEngine e (fun g => { g with cache := g.cache.filter (·.qpn != qpn) }) s)
      | none => s
    | none => s

/-! ## Re-sends (R357, R359, R360) -/

/-- RETRY_LATER_RESEND (R359): HINT x 256 ns after the NAK the packet is sent again, uncounted. -/
def execRetryLaterResend (qpn msn offset : Nat) (s : State) : Host.Outcome State Fault Refusal :=
  act s fun s =>
    match tget s.qps qpn with
    | some q =>
      match findOutst q msn (idxOfOffset q offset) with
      | some o =>
        (match o.notBefore with
         | some t => if !tdiIssues s q.bay then s else let s := clockTo (2 * t) s; resend qpn o { o with sentAt := nsNow s, notBefore := none } s
         | none => s)
      | none => s
    | none => s

/-- RTO_EXPIRY (R357, R360): an entry has been held for RTO since its last send. An acknowledgement of the same cycle is processed
first, so the expiry acts when that cycle is over (`settleRto`). -/
def execRtoExpiry (qpn msn offset : Nat) (s : State) : Host.Outcome State Fault Refusal :=
  act s fun s =>
    match tget s.qps qpn with
    | some q =>
      match findOutst q msn (idxOfOffset q offset) with
      | some o =>
        if o.notBefore.isSome || o.paged || o.due.isSome || !tdiIssues s q.bay then s
        else
          let s := clockTo (2 * (o.sentAt + 1000 * q.cfg.rto)) s
          setQp qpn (fun q => { q with outst := q.outst.map fun x => if x == o then { o with due := some s.dc } else x }) s
      | none => s
    | none => s

/-! ## Completions, pages, regions -/

/-- COMPLETION_WRITE (R348 to R350, R353): the next held completion is written once the CR has room. -/
def execCompletionWrite (qpn : Nat) (s : State) : Host.Outcome State Fault Refusal :=
  act s fun s =>
    match tget s.qps qpn with
    | some q => if mayComplete s q && cached s q.engine qpn then writeCqe qpn (touch q.engine qpn s) else s
    | none => s

/-- Bays of an H port. -/
def baysOf (s : State) (p : Nat) : List Nat := (s.bays.filter fun e => e.2.hport == p).map (·.1)

/-- ATS_INVALIDATION (R372 to R374): the cached translations go at once, and the answer once no access that uses one remains;
failures of the page are forgotten. -/
def execAtsInvalidation (port page : Nat) (s : State) : Host.Outcome State Fault Refusal :=
  act s fun s =>
    let used := s.places.any fun p => p.2.pages.contains page && bayPort s p.2.bay == some port
    let s := { s with halls := tmap s.halls fun _ h => { h with engines := tmap h.engines fun _ g =>
      { g with atc := g.atc.filter fun x => !(x.2 == page && bayPort s x.1 == some port) } } }
    if !isType s .h port || used then s
    else
      emit (.atsDone port page) { s with bays := tmap s.bays fun _ y =>
        if y.hport = port then { y with badPages := y.badPages.filter (· != page) } else y }

/-- The READ_REQs of a QP whose data waited for a page are sent again, uncounted (R375). -/
def resendPaged (qpn : Nat) (s : State) : State :=
  match tget s.qps qpn with
  | some q => (q.outst.filter (·.paged)).foldl (fun s o => resend qpn o { o with paged := false, sentAt := nsNow s } s) s
  | none => s

/-- A QP stalled on a page goes on, or its message ends with LOCAL_ACCESS (R375). -/
def unstall (page : Nat) (ok : Bool) (s : State) (qpn : Nat) : State :=
  match tget s.qps qpn with
  | some q =>
    match q.stall with
    | some (p, msn) =>
      if p != page then s
      else if ok then resendPaged qpn (setQp qpn (fun q => { q with stall := none }) s)
      else setQp qpn (errorQp (some msn) 1) s
    | none => s
  | none => s

/-- PAGE_RESPONSE (R374, R375): a PRI page response ends the stalls on its page, or marks the page failed. -/
def execPageResponse (bay page : Nat) (ok : Bool) (s : State) : Host.Outcome State Fault Refusal :=
  act s fun s =>
    match tget s.bays bay with
    | some y =>
      if !y.priOut.contains page then s
      else
        let s := setBay bay (fun y => { y with
          priOut := y.priOut.erase page,
          badPages := if ok || y.badPages.contains page then y.badPages else y.badPages ++ [page] }) s
        ((s.qps.filter fun e => e.2.bay == bay).map (·.1)).foldl (unstall page ok) s
    | none => s

/-- A region entry is freed and its generation moves on (R368). -/
def freeRegion (h : Nat) (s : State) : State :=
  let (i, hall, gen) := handleParts h
  setHall hall (fun x => { x with mrs := tdel x.mrs i, mrGen := tset x.mrGen i ((gen + 1) % 2 ^ 15) }) s

/-- An access that uses a region is in flight. -/
def regionBusy (s : State) (h : Nat) : Bool :=
  s.places.any (fun p => p.2.region == some h)
    || s.halls.any fun x => x.2.engines.any fun e => e.2.outQ.any fun m => (m.place.bind (·.region)) == some h

/-- MR_DEREGISTER_DONE (R371): no access of a deregistered region remains and MR_DEREGISTER replies. -/
def execMrDeregisterDone (handle : Nat) (s : State) : Host.Outcome State Fault Refusal :=
  act s fun s =>
    match findRegion s handle with
    | some r => if r.ending && !regionBusy s handle then endOp (.deregister handle) 0 [] (freeRegion handle s) else s
    | none => s

end Sys2Proof.Machine
end

