-- ==== Sys2Proof/Machine/GalleryCmd.lean ====
section
/-! DEFINITION. The commands of the Gallery engines: context tables, QPs, memory regions and QP classes
(09_gallery_engines, 02_command_protocol QP_CREATE to MR_DEREGISTER). -/

namespace Sys2Proof.Machine

open Sys2Proof

def bodyCtxTableSet : Body := fun c _ s => do
  let (b, y) ← bayF s c
  let n ← rangeF c 1 4 4 y.tgt.qp 0 y.tgt.qp
  let a ← idF c 2 8 8 none (· % 4096 == 0)
  rejectIf (qpsHeld s b != 0) stInvalidState
  rejectIf (bayBusy s b) stBusy
  rejectIf (tdiLocked s b) stLocked
  okWith (setBay b (fun y => { y with ctx := if a = 0 && n = 0 then none else some (a, n) }) s) []

def specCtxTableSet : OpSpec :=
  { code := 0x0501, scope := .bay, body := bodyCtxTableSet, layout := { flds := [(0, 2), (4, 4), (8, 8)], fin := 16 } }

/-- CTX_TABLE_SET (R339). -/
def execCtxTableSet (c : Cmd) (s : State) : Host.Outcome State Fault Refusal := command specCtxTableSet c s

/-- The engine of a hall that serves the fewest QPs, the lowest on a tie (R338). -/
def fewestEngine (s : State) (h : Nat) : Nat :=
  (List.range 8).foldl (fun best k =>
    if (s.qps.filter fun e => e.2.engine == 8 * h + k).length < (s.qps.filter fun e => e.2.engine == best).length
    then 8 * h + k else best) (8 * h)

/-- The lowest free slot of a bay's context table (R339). -/
def freeSlot (s : State) (b n : Nat) : Option Nat := lowestFree ((s.qps.filter fun e => e.2.bay == b).map (·.2.slot)) n

/-- The lowest number from `k` on that a rising list does not hold. -/
def firstGap : Nat → List Nat → Nat
  | k, [] => k
  | k, a :: r => if k < a then k else if a = k then firstGap (k + 1) r else firstGap k r

def bodyQpCreate : Body := fun c _ s => do
  let (b, y) ← bayF s c
  let n ← idF c 1 4 4 (some 0xFFFFFFFF) fun v => decide (v < 2 ^ 20) || v == 0xFFFFFFFF
  let cl ← elseF c 2 8 1 0 (· ≤ 7) 0
  let w ← rangeF c 3 10 2 512 1 512
  let pin ← elseF c 4 12 1 0 (· ≤ 1) 0
  rejectIf y.ctx.isNone stInvalidState
  rejectIf (bayBusy s b) stBusy
  let qpn := if n = 0xFFFFFFFF then firstGap 0 (tkeys s.qps) else n
  let h := hallOf y.hport
  let e := fewestEngine s h
  let pinned := fun (f : Qp → Bool) => (s.qps.filter fun x => x.2.pin && f x.2).length
  let slot := freeSlot s b ((y.ctx.map (·.2)).getD 0)
  rejectIf (decide (y.tgt.qp ≤ qpsHeld s b) || (tget s.qps qpn).isSome || decide (2 ^ 20 ≤ qpn) || slot.isNone) stNoResource
  rejectIf (pin = 1 && (decide (224 ≤ pinned fun q => q.engine == e)
    || decide (y.tgt.ctx ≤ pinned fun q => q.engine / 8 == h && q.bay == b))) stNoResource
  let q : Qp := { bay := b, engine := e, cls := cl, wmax := w, pin := pin == 1, slot := slot.getD 0 }
  okWith (noticeHeld s { s with qps := tset s.qps qpn q }) (le 4 qpn ++ le 1 e)

def specQpCreate : OpSpec :=
  { code := 0x0502, scope := .bay, body := bodyQpCreate,
    layout := { flds := [(0, 2), (4, 4), (8, 1), (10, 2), (12, 1)], fin := 13 } }

/-- QP_CREATE (R338, R339, R83, R363). -/
def execQpCreate (c : Cmd) (s : State) : Host.Outcome State Fault Refusal := command specQpCreate c s

/-- The QP of field 0. -/
def qpF (s : State) (c : Params) : Chk (Nat × Qp) := do
  let n ← idF c 0 0 4 none fun v => (tget s.qps v).isSome
  match tget s.qps n with
  | some q => pure (n, q)
  | none => rejectAt stInvalidParam 0

/-- The states of TO_STATE. -/
def qpStateNum : QpState → Nat
  | .reset => 0 | .init => 1 | .rtr => 2 | .rts => 3 | .error => 4

/-- The transitions of R351. -/
def qpMay (f : QpState) (t : Nat) : Bool :=
  t == 4 || (f == .reset && t == 1) || (f == .init && t == 2) || (f == .rtr && t == 3) || (f == .error && t == 0)
    || (f == .init && t == 0)

/-- A field of the requested transition: checked by `k`, or ignored otherwise (R351). -/
def whenTo (b : Bool) (k : Chk Nat) (v : Nat) : Chk Nat := if b then k else pure v

def bodyQpModify : Body := fun c _ s => do
  let (n, q) ← qpF s c
  let t ← idF c 1 4 1 none (· ≤ 4)
  let al := fun (v : Nat) => v % 4096 == 0
  let g := q.cfg
  let mtu ← whenTo (t == 2) (elseF c 2 5 1 4 (· ≤ 4) 4) g.mtu
  let spray ← whenTo (t == 2) (elseF c 3 6 1 0 (· ≤ 1) 0) (b2n g.spray)
  let sq ← whenTo (t == 1) (idF c 4 8 8 none al) g.sqAddr
  let rq ← whenTo (t == 1) (idF c 5 16 8 none al) g.rqAddr
  let cr ← whenTo (t == 1) (idF c 6 24 8 none al) g.crAddr
  let sl ← whenTo (t == 1) (rangeF c 7 32 1 8 4 11) g.sqLog
  let rl ← whenTo (t == 1) (rangeF c 8 33 1 8 4 11) g.rqLog
  let cl ← whenTo (t == 1) (rangeF c 9 34 1 9 4 11) g.crLog
  let pid ← whenTo (t == 2) (idF c 10 36 2 none fun v => decide (v < 4096) || v == 0xFFFF) g.peerPid
  let msixOf := match tget s.bays q.bay with | some y => y.tgt.msix | none => 0
  let vec ← whenTo (t == 1) (idF c 11 38 2 (some 0xFFFF) fun v => v == 0xFFFF || decide (v < msixOf)) (g.vector.getD 0xFFFF)
  let dg := if t = 2 then pid == 0xFFFF else q.dgram == some true
  let pq ← whenTo (t == 2 && !dg) (idF c 12 40 4 none (· < 2 ^ 20)) g.peerQpn
  let rto ← whenTo (t == 3) (rangeF c 13 44 2 100 1 10000) g.rto
  let retry ← whenTo (t == 3) (rangeF c 14 46 1 7 1 15) g.retry
  rejectIf (!qpMay q.st t) stInvalidState
  rejectIf (bayBusy s q.bay) stBusy
  let cfg : QpCfg := { sqAddr := sq, rqAddr := rq, crAddr := cr, sqLog := sl, rqLog := rl, crLog := cl,
                       vector := if vec = 0xFFFF then none else some vec, peerPid := pid, peerQpn := pq, mtu := mtu,
                       spray := spray == 1, rto := rto, retry := retry }
  let f : Qp → Qp := fun q =>
    match t with
    | 0 => resetQp q
    | 1 => { q with st := .init, cfg := cfg }
    | 2 => { q with st := .rtr, cfg := cfg, dgram := some dg }
    | 3 => { q with st := .rts, cfg := cfg, w := 256 * min 16 q.wmax, armed := none }
    | _ => errorQp none 7 q
  okWith (noticeHeld s (setQp n f s)) []

def specQpModify : OpSpec :=
  { code := 0x0503, scope := .qpn, body := bodyQpModify,
    layout := { flds := [(0, 4), (4, 1), (5, 1), (6, 1), (8, 8), (16, 8), (24, 8), (32, 1), (33, 1), (34, 1), (36, 2),
                         (38, 2), (40, 4), (44, 2), (46, 1)], fin := 47 } }

/-- QP_MODIFY (R351, R352, R376). -/
def execQpModify (c : Cmd) (s : State) : Host.Outcome State Fault Refusal := command specQpModify c s

/-- A QP and its cached context are gone; packets still parked are answered (R352, R401). -/
def dropQp (n : Nat) (s : State) : State :=
  match tget s.qps n with
  | some q =>
    let s := setEngine q.engine (fun g => { g with cache := g.cache.filter (·.qpn != n), waiting := g.waiting.filter (· != n) }) s
    q.parked.foldl (fun s x => match x.1.gal with | some g => refuse q.engine x.1 g nkError 0 s | none => s)
      { s with qps := tdel s.qps n }
  | none => s

def bodyQpDestroy : Body := fun c _ s => do
  let (n, q) ← qpF s c
  rejectIf (q.st != .reset && q.st != .error) stInvalidState
  rejectIf (bayBusy s q.bay) stBusy
  okWith (noticeHeld s (kick q.engine (dropQp n s))) []

def specQpDestroy : OpSpec :=
  { code := 0x0504, scope := .qpn, body := bodyQpDestroy, layout := { flds := [(0, 4)], fin := 4 } }

/-- QP_DESTROY (R351, R391). -/
def execQpDestroy (c : Cmd) (s : State) : Host.Outcome State Fault Refusal := command specQpDestroy c s

/-- The QP_QUERY result (02, QP_QUERY). DESIGN CHOICE (log 91): a packet count beyond its field reads as all ones. -/
def qpRecord (s : State) (n : Nat) (q : Qp) : Bytes :=
  let dg := q.dgram == some true
  [qpStateNum q.st, match q.dgram with | none => 0xFF | some d => b2n d, q.engine, q.cls] ++ le 4 q.bay ++ le 4 q.slot
    ++ le 4 (if q.dgram == some false then q.cfg.peerQpn else 0) ++ le 2 q.cfg.peerPid
    ++ [q.cfg.mtu, b2n q.pin + 2 * b2n q.cfg.spray + 4 * b2n (cached s q.engine n) + 8 * b2n q.stall.isSome]
    ++ le 2 (q.w / 256) ++ le 2 q.outst.length ++ le 4 (if dg then 0 else q.nextMsn) ++ le 4 (if dg then 0 else q.nextSsn)
    ++ le 4 (min q.sent 0xFFFFFFFF) ++ le 4 (min q.resent 0xFFFFFFFF) ++ le 4 (min q.later 0xFFFFFFFF) ++ le 4 (min q.naks 0xFFFFFFFF)

def bodyQpQuery : Body := fun c _ s => do
  let (n, q) ← qpF s c
  okWith s (qpRecord s n q)

def specQpQuery : OpSpec :=
  { code := 0x0505, scope := .qpn, body := bodyQpQuery, layout := { flds := [(0, 4)], fin := 4 } }

/-- QP_QUERY (R89). -/
def execQpQuery (c : Cmd) (s : State) : Host.Outcome State Fault Refusal := command specQpQuery c s

def bodyMrRegister : Body := fun c _ s => do
  let (b, y) ← bayF s c
  let a ← idF c 1 8 8 none fun _ => true
  let l ← idF c 2 16 8 none fun _ => true
  rejectIfAt (decide (2 ^ 48 < l) || decide (2 ^ 64 < a + l)) stTooLarge 2
  let pg ← elseF c 3 24 1 0 (· ≤ 1) 0
  let ac ← anyF c 25 1 0
  rejectIf (bayBusy s b) stBusy
  let h := hallOf y.hport
  match lowestFree (tkeys (getHall s h).mrs) 16384 with
  | none => reject stNoResource
  | some i =>
    let gen := tgetD (getHall s h).mrGen i 0
    let r : Region := { bay := b, gen := gen, addr := a, length := l, paging := pg == 1, access := ac % 4 }
    okWith (setHall h (fun x => { x with mrs := tset x.mrs i r }) s) (le 4 (i + 2 ^ 14 * h + 2 ^ 17 * gen))

def specMrRegister : OpSpec :=
  { code := 0x0506, scope := .bay, body := bodyMrRegister,
    layout := { flds := [(0, 2), (8, 8), (16, 8), (24, 1), (25, 1)], fin := 26 } }

/-- MR_REGISTER (R367, R368). -/
def execMrRegister (c : Cmd) (s : State) : Host.Outcome State Fault Refusal := command specMrRegister c s

/-- The current region of a handle changed. -/
def setRegion (h : Nat) (f : Region → Region) (s : State) : State :=
  let (i, hall, _) := handleParts h
  setHall hall (fun x => { x with mrs := tmod x.mrs i f }) s

def bodyMrDeregister : Body := fun c _ s => do
  let h ← idF c 0 0 4 none fun v => (findRegion s v).isSome
  let b := match findRegion s h with | some r => r.bay | none => 0
  rejectIf (bayBusy s b || s.ops.any fun o => o.kind == .deregister h) stBusy
  if regionBusy s h then pure (setRegion h (fun r => { r with ending := true }) s, .later (.deregister h) [])
  else okWith (freeRegion h s) []

def specMrDeregister : OpSpec :=
  { code := 0x0507, scope := .handle, body := bodyMrDeregister, layout := { flds := [(0, 4)], fin := 4 } }

/-- MR_DEREGISTER (R371). -/
def execMrDeregister (c : Cmd) (s : State) : Host.Outcome State Fault Refusal := command specMrDeregister c s

def bodyQpClassSet : Body := fun c _ s => do
  let k ← idF c 0 0 1 none (· ≤ 7)
  let st ← rangeF c 1 1 1 1 1 64
  let d ← rangeF c 2 2 1 2 2 64
  okWith { s with qcls := tset s.qcls k (st, d) } []

def specQpClassSet : OpSpec :=
  { code := 0x0508, body := bodyQpClassSet, layout := { flds := [(0, 1), (1, 1), (2, 1)], fin := 3 } }

/-- QP_CLASS_SET (R376). -/
def execQpClassSet (c : Cmd) (s : State) : Host.Outcome State Fault Refusal := command specQpClassSet c s

end Sys2Proof.Machine
end

