-- ==== Sys2Proof/Machine/Bay.lean ====
section
/-! DEFINITION. Bays: creation, resources, reset, removal, and the rows of their functions (10_bays_and_alcoves R385 to
R404; 05_standard_ports R214 to R216, R222 to R224). -/

namespace Sys2Proof.Machine

open Sys2Proof

/-! ## Pools (R390, R393) -/

def bayList (s : State) (f : Bay → Bool) : List (Nat × Bay) := s.bays.filter fun e => f e.2

/-- What the bays of a pool commit: the larger of target and amount held. -/
def committedBy (s : State) (f : Bay → Bool) (g : Res → Nat) : Nat :=
  (bayList s f).foldl (fun n e => n + max (g e.2.tgt) (g (heldRes s e.1 e.2))) 0

/-- Leaves of a hall bound to no bay's subscriber. -/
def leavesFree (s : State) (h : Nat) : Nat :=
  ((getHall s h).leaves.filter fun e =>
    e.2.sub == 0 || (bayAt s (64 * h + e.2.port) (e.2.sub - 1)).isNone).length

/-- Meters of a hall charged to no bay. -/
def metersOrphan (s : State) (h : Nat) : Nat := ((getHall s h).meters.filter fun e => (meterCharged s h e.2).isNone).length

/-- Windows in use that no bay owns. -/
def windowsOther (s : State) : Nat := (s.gn.shadowW.filter fun e => e.2.owner == 0xFFFF && e.2.valid).length

/-- The free amount of each pool for a bay of an H port (R390). RATE has no pool. -/
def freeRes (s : State) (p : Nat) : Res :=
  let h := hallOf p
  let hall : Bay → Bool := fun y => hallOf y.hport == h
  { qp := 1048576 - committedBy s (fun _ => true) (·.qp),
    ctx := 2048 - committedBy s hall (·.ctx),
    leaves := 3840 - committedBy s hall (·.leaves) - leavesFree s h,
    rate := 0,
    meters := 8192 - committedBy s hall (·.meters) - metersOrphan s h,
    msix := 2048 - committedBy s (fun y => y.hport == p) (·.msix),
    windows := 65536 - committedBy s (fun _ => true) (·.windows) - windowsOther s }

/-! ## BAY_CREATE, BAY_RESIZE, BAY_QUERY -/

/-- The subscriber of a bay: created if absent, else re-rated from its rate in force before (R299, R300). -/
def baySub (p loc : Nat) (before : State) (s : State) : State :=
  match (getPort s p).bind fun q => tget q.subs (1 + loc) with
  | some u => rerate p (1 + loc) (subRate before p (1 + loc) u) (subRate s p (1 + loc) u) u.burst u s
  | none =>
    match getPort s p with
    | some q =>
      putSub p (1 + loc) { rate := lineRate q, burst := 65536, b := (65536 * 2 ^ 24 : Nat), tLast := nsNow s } s
    | none => s

/-- Subscriber entries of a hall (R295). -/
def subCount (s : State) (h : Nat) : Nat :=
  (s.ports.filter fun e => hallOf e.1 == h).foldl (fun n e => n + e.2.subs.length) 0

/-- The seven resource fields of BAY_CREATE and BAY_RESIZE from offset 4 on: defaults, field number of the first, and free
amounts with what is held. -/
def resFields (c : Params) (i : Nat) (d f : Res) (line : Nat) : Chk Res := do
  let qp ← rangeF c i 4 4 d.qp 0 f.qp
  let ctx ← rangeF c (i + 1) 8 2 d.ctx 0 (min 2048 f.ctx)
  let lv ← rangeF c (i + 2) 12 2 d.leaves 0 (min 4096 f.leaves)
  let rt ← rangeF c (i + 3) 16 4 d.rate 0 line
  let mt ← rangeF c (i + 4) 20 2 d.meters 0 (min 8192 f.meters)
  let mx ← rangeF c (i + 5) 24 2 d.msix 1 (max 1 (min 2048 f.msix))
  let wn ← rangeF c (i + 6) 28 4 d.windows 0 (min 65536 f.windows)
  pure { qp := qp, ctx := ctx, leaves := lv, rate := rt, meters := mt, msix := mx, windows := wn }

def bodyBayCreate : Body := fun c _ s => do
  let p ← typedPortF s .h c 0 0
  let q ← thePort s p
  let l ← idF c 1 2 2 (some 0xFFFF) fun v => decide (v < 256) || v == 0xFFFF
  let f := freeRes s p
  let t ← resFields c 2 { rate := lineRate q, msix := 1 } f (lineRate q)
  rejectIf (q.st == .amber || (l != 0xFFFF && (bayAt s p l).isSome)) stInvalidState
  let used := (bayList s fun y => y.hport == p).map (·.2.loc)
  let loc := if l = 0xFFFF then lowestFree used 256 else some l
  rejectIf (f.msix = 0) stNoResource
  match lowestFree (tkeys s.bays) 2048, loc with
  | some b, some j =>
    rejectIf ((tget q.subs (1 + j)).isNone && decide (4096 ≤ subCount s (hallOf p))) stNoResource
    let y : Bay := { hport := p, loc := j, tgt := t }
    let s' := baySub p j s { s with bays := tset s.bays b y }
    okWith (noticeHeld s s') (le 4 b ++ le 4 j ++ resBytes t (heldRes s' b y))
  | _, _ => reject stNoResource

def resLayout : List (Nat × Nat) := [(4, 4), (8, 2), (12, 2), (16, 4), (20, 2), (24, 2), (28, 4)]

def specBayCreate : OpSpec :=
  { code := 0x0601, scope := .port, body := bodyBayCreate, layout := { flds := [(0, 2), (2, 2)] ++ resLayout, fin := 32 } }

/-- BAY_CREATE (R389, R390, R300). -/
def execBayCreate (c : Cmd) (s : State) : Host.Outcome State Fault Refusal := command specBayCreate c s

/-- Free plus held of each resource (R391). -/
def addRes (f h : Res) : Res :=
  { qp := f.qp + h.qp, ctx := f.ctx + h.ctx, leaves := f.leaves + h.leaves, rate := 0, meters := f.meters + h.meters,
    msix := f.msix + h.msix, windows := f.windows + h.windows }

def bodyBayResize : Body := fun c _ s => do
  let (b, y) ← bayF s c
  let line := match getPort s y.hport with | some q => lineRate q | none => 0
  let h := heldRes s b y
  let t ← resFields c 1 h (addRes (freeRes s y.hport) h) line
  rejectIf (bayBusy s b) stBusy
  rejectIf (tdiLocked s b) stLocked
  let s' := setBay b (fun y => { y with tgt := t }) s
  let s' := if t.rate = y.tgt.rate then s' else baySub y.hport y.loc s s'
  okWith (noticeHeld s s') (resBytes t (heldRes s' b { y with tgt := t }))

def specBayResize : OpSpec :=
  { code := 0x0602, scope := .bay, body := bodyBayResize, layout := { flds := (0, 2) :: resLayout, fin := 32 } }

/-- BAY_RESIZE (R391, R395, R84). -/
def execBayResize (c : Cmd) (s : State) : Host.Outcome State Fault Refusal := command specBayResize c s

/-- BY_STATUS (R388). -/
def byStatus (s : State) (b : Nat) : Nat :=
  match tget s.bays b with
  | some y =>
    let st := match y.st with | .active => 1 | .draining => 2 | .squashing => 3
    st + 8 * b2n (shrinkPending y.tgt (heldRes s b y)) + 16 * b2n (vfVisible s b) + 32 * b2n (tdiLocked s b)
      + 2 ^ 8 * y.loc + 2 ^ 16 * b + 2 ^ 27 * y.cause
  | none => 0

def bodyBayQuery : Body := fun c _ s => do
  let b ← idF c 0 0 2 none (· < 2048)
  match tget s.bays b with
  | some y => okWith s (le 4 (byStatus s b) ++ resBytes y.tgt (heldRes s b y))
  | none => okWith s (List.replicate 60 0)

def specBayQuery : OpSpec :=
  { code := 0x0605, scope := .bay, body := bodyBayQuery, layout := { flds := [(0, 2)], fin := 2 } }

/-- BAY_QUERY (R395). -/
def execBayQuery (c : Cmd) (s : State) : Host.Outcome State Fault Refusal := command specBayQuery c s

/-! ## Reset (R396 to R404) -/

/-- A message is owned by the bay (R397). -/
def ownedBy (b : Nat) (m : Msg) : Bool := m.owner == some b

/-- Stored messages owned by a bay. -/
def ownedMids (s : State) (b : Nat) : List Nat := (s.cells.filter fun e => ownedBy b e.2.msg && !e.2.leaving).map (·.1)

/-- The work of a bay in the device (R397). -/
def bayWork (s : State) (b : Nat) : Nat :=
  let qs := s.qps.filter fun e => e.2.bay == b
  (ownedMids s b).length
    + qs.foldl (fun n e => n + e.2.outst.length + e.2.recs.length + e.2.parked.length) 0
    + s.ports.foldl (fun n e => n + (e.2.std.np.filter fun r => ownedBy b r.msg).length
        + (e.2.inQ.filter fun a => ownedBy b a.msg).length) 0
    + s.halls.foldl (fun n e => n + e.2.engines.foldl (fun k g => k + (g.2.outQ.filter fun m => ownedBy b m.msg).length) 0) 0

/-- An answer that outlives the bay is owned by none. -/
def disown (b : Nat) (s : State) : State :=
  { s with halls := tmap s.halls fun _ h => { h with engines := tmap h.engines fun _ g =>
      { g with outQ := g.outQ.map fun x => if ownedBy b x.msg then { x with msg := { x.msg with owner := none } } else x } } }

/-- A stored message removed with every reference it has (R279, R400). -/
def removeStored (s : State) (mid : Nat) : State :=
  let s := pullMid mid s
  let s := { s with cells := tmod s.cells mid fun x => { x with refs := 1 } }
  releaseWaits (dropRef mid (retireMid false mid s))

/-- The non-posted requests of a bay give their tags to its H port's quarantine (R400). -/
def quarantine (b : Nat) (s : State) : State :=
  let tags := s.ports.flatMap fun e => (e.2.std.np.filter fun r => ownedBy b r.msg).map (·.msg.tag)
  let s := { s with ports := tmap s.ports fun _ q => { q with std := { q.std with np := q.std.np.filter fun r => !ownedBy b r.msg } } }
  match bayPort s b with
  | some p => setStd p (fun d => { d with quar := d.quar ++ tags.filter fun t => !d.quar.contains t }) s
  | none => s

/-- Everything of a bay is squashed (R400). -/
def squashBay (b : Nat) (s : State) : State :=
  let n := bayWork s b
  let wait := s.halls.flatMap fun e => e.2.engines.flatMap fun g => (g.2.outQ.filter fun x => ownedBy b x.msg).filterMap (·.place)
  let s := { s with
    halls := tmap s.halls fun _ h => { h with engines := tmap h.engines fun _ g =>
      { g with outQ := g.outQ.filter fun x => !ownedBy b x.msg } },
    ports := tmap s.ports fun _ q => { q with inQ := q.inQ.filter fun a => !ownedBy b a.msg } }
  let s := wait.foldl (fun s p => match p.bad with
    | some m => setEngine p.eng (fun g => { g with outQ := g.outQ ++ [{ msg := m }] }) s
    | none => s) s
  let s := (ownedMids s b).foldl removeStored s
  let parked := (s.qps.filter fun e => e.2.bay == b).flatMap fun e => e.2.parked.map fun x => (e.2.engine, x.1)
  let s := { s with qps := tmap s.qps fun _ q =>
    if q.bay = b then { q with outst := [], recs := [], reads := [], parked := [] } else q }
  let s := parked.foldl (fun s x => match x.2.gal with
    | some g =>
      if g.op = 1 || g.op = 2 || g.op = 4 then
        setEngine x.1 (fun e => { e with outQ := e.outQ ++ [{ msg := nak s x.2 g nkError 0 }] }) s
      else refuse x.1 x.2 g nkError 0 s
    | none => s) s
  let s := disown b (quarantine b s)
  setBay b (fun y => { y with st := .squashing, rst := y.rst.map fun r => { r with squashed := r.squashed + n } }) s

/-- Teardown (R401). -/
def teardown (b : Nat) (s : State) : State :=
  match tget s.bays b with
  | some y =>
    let s := ((s.qps.filter fun e => e.2.bay == b).map (·.1)).foldl (fun s n => dropQp n s) s
    let s := { s with halls := tmap s.halls fun _ h => { h with engines := tmap h.engines fun _ g =>
      { g with atc := g.atc.filter (·.1 != b) } } }
    let regions := s.halls.flatMap fun e => (e.2.mrs.filter fun r => r.2.bay == b).map fun r => r.1 + 2 ^ 14 * e.1 + 2 ^ 17 * r.2.gen
    let s := regions.foldl (fun s h => endOp (.deregister h) 0 [] (freeRegion h s)) s
    let s := (match (getPort s y.hport).bind fun q => tget q.subs (1 + y.loc) with
      | some u => putSub y.hport (1 + y.loc) { u with b := (u.burst * 2 ^ 24 : Nat), e := none, tLast := nsNow s } s
      | none => s)
    setBay b (fun y => { y with
      ctx := none, tdi := .error, bme := false, msixPend := [], msixOpen := [], msixTab := [], toMgr := [], toBay := [], bside := {},
      mside := {}, pendRes := false, pendDone := none, nseq := 0, badPages := [], priOut := [],
      rst := y.rst.map fun r => { r with ended := true } }) s
  | none => s

/-- The items drained: the work at the start less what was squashed (DEDUCED, log 24). -/
def drainedOf (r : BayReset) : Nat := r.work - r.squashed

/-- A reset starts: DRAINING, FIFOs flushed, TDI in ERROR (R216, R398); with DRAIN_LIMIT 0 squash starts in the same cycle
(R400), and the bay's User session ends (R416). A reset in progress takes the earlier deadline (R403). -/
def startReset (b limitUs cause : Nat) (s : State) : State :=
  match tget s.bays b with
  | some y =>
    match y.rst with
    | none =>
      let r : BayReset := { removal := cause == 2, deadline := s.dc + 2000 * limitUs, work := bayWork s b, start := s.dc }
      let s := endSessions (fun x => x.role == .user b) s
      let s := setBay b (fun y => { y with
        st := .draining, cause := cause, tdi := .error, rst := some r, toMgr := [], toBay := [],
        bside := { y.bside with inRead := false, flushPend := false },
        mside := { y.mside with inRead := false, flushPend := false } }) s
      if limitUs = 0 then teardown b (squashBay b s) else s
    | some r =>
      if r.removal && cause != 2 && cause != 6 then s
      else
        let s := setBay b (fun y => { y with tdi := .error, rst := some { r with
          removal := r.removal || cause == 2, deadline := min r.deadline (s.dc + 2000 * limitUs) } }) s
        if limitUs = 0 && !r.ended then teardown b (squashBay b s) else s
  | none => s

/-- BY_FLR_DRAIN.LIMIT as it acts (R388). -/
def flrLimit (s : State) (p : Nat) : Nat := nearer 10 50000 (((getPort s p).map (·.std.flrDrain)).getD 1000)

/-- A reset that no command starts (R396). -/
def startOwnReset (b cause : Nat) (s : State) : State :=
  match bayPort s b with
  | some p => startReset b (flrLimit s p) cause s
  | none => s

/-- A bay owns a locked region entry (R455). -/
def ownsLocked (s : State) (b : Nat) : Bool :=
  s.gn.mpus.any fun m => m.2.locks.any fun e =>
    ((tget m.2.shadow e).map (·.owner)) == some b || ((tget m.2.active e).map (·.owner)) == some b

def bodyBayReset : Body := fun c _ s => do
  let (b, _) ← bayF s c
  let d ← rangeF c 1 4 4 1000 10 100000
  rejectIf (bayBusy s b) stBusy
  pure (startReset b d 1 s, .later (.bayReset b) [])

def specBayReset : OpSpec :=
  { code := 0x0603, scope := .bay, body := bodyBayReset, layout := { flds := [(0, 2), (4, 4)], fin := 8 } }

/-- BAY_RESET (R396, R398). -/
def execBayReset (c : Cmd) (s : State) : Host.Outcome State Fault Refusal := command specBayReset c s

def bodyBayRemove : Body := fun c _ s => do
  let (b, _) ← bayF s c
  let d ← rangeF c 1 4 4 1000 10 100000
  rejectIf (ownsLocked s b) stLocked
  let s := abortOp (.bayRemove b) (abortOp (.bayReset b) s)
  pure (startReset b d 2 s, .later (.bayRemove b) [])

def specBayRemove : OpSpec :=
  { code := 0x0604, scope := .bay, body := bodyBayRemove, layout := { flds := [(0, 2), (4, 4)], fin := 8 } }

/-- BAY_REMOVE (R402, R403, R455). -/
def execBayRemove (c : Cmd) (s : State) : Host.Outcome State Fault Refusal := command specBayRemove c s

/-- BAY_DRAIN_END (R399, R401): a draining bay's work is empty and its teardown starts. -/
def execBayDrainEnd (bay : Nat) (s : State) : Host.Outcome State Fault Refusal :=
  act s fun s =>
    match (tget s.bays bay).bind (·.rst) with
    | some r => if !r.ended && bayWork s bay = 0 then teardown bay s else s
    | none => s

/-- DRAIN_LIMIT_EXPIRY (R399, R400): DRAIN_LIMIT passes; what is outstanding is squashed, and teardown starts. -/
def execDrainLimitExpiry (bay : Nat) (s : State) : Host.Outcome State Fault Refusal :=
  act s fun s =>
    match (tget s.bays bay).bind (·.rst) with
    | some r =>
      if r.ended then s
      else
        let s := clockTo r.deadline s
        if bayWork s bay = 0 then teardown bay s else teardown bay (squashBay bay s)
    | none => s

/-- A leaf of a removed bay clears VALID; what it still holds moves to the default leaf of its class (log 25). -/
def freeLeaf (h : Nat) (s : State) (leaf : Nat) : State :=
  match tget (getHall s h).leaves leaf with
  | some k =>
    let p := 64 * h + k.port
    let items := leafQ s h leaf
    let s := setHall h (fun x => { x with leaves := tdel x.leaves leaf, leafOff := tset x.leafOff leaf k }) (setLeafQ h leaf [] s)
    let s := setPort p (fun q => { q with assign := tfilter q.assign fun _ l => l != leaf }) s
    (qMids items).foldl (fun s mid =>
      match tget s.cells mid with
      | some x => queueAt p (defaultLeaf p x.msg.cls) mid s
      | none => s) s
  | none => s

/-- A removed bay's resources return to their pools and the bay is ABSENT (R402, R455). -/
def bayAbsent (b : Nat) (s : State) : State :=
  match tget s.bays b with
  | some y =>
    let h := hallOf y.hport
    let leaves := ((getHall s h).leaves.filter fun e => e.2.port == y.hport % 64 && e.2.sub == 1 + y.loc).map (·.1)
    let mine := ((getHall s h).meters.filter fun e => meterCharged s h e.2 == some b).map (·.1)
    let s := leaves.foldl (freeLeaf h) s
    let s := setHall h (fun x => { x with meters := tmap x.meters fun k m => if mine.contains k then { m with orphan := true } else m }) s
    let s := absentCleanup b s
    { s with bays := tdel s.bays b }
  | none => s

/-- BAY_RESET_COMPLETE (R401, R402): teardown and removal of descriptors have ended; the bay is ACTIVE or ABSENT and the
command replies. -/
def execBayResetComplete (bay : Nat) (s : State) : Host.Outcome State Fault Refusal :=
  act s fun s =>
    match tget s.bays bay with
    | some y =>
      match y.rst with
      | some r =>
        if !r.ended || bayWork s bay != 0 then s
        else
          let data := le 4 (drainedOf r) ++ le 4 r.squashed
          let st := if r.squashed = 0 then 0 else stSquashed
          if r.removal then endOp (.bayRemove bay) st data (bayAbsent bay s)
          else
            let s := setBay bay (fun y => { y with
              st := .active, rst := none, pendDone := some (y.cause, drainedOf r, r.squashed) }) s
            endOp (.bayReset bay) st data (postNotices bay s)
      | none => s
    | none => s

/-- TAG_QUARANTINE_RELEASE (R400): the late completion or the completion timeout of a quarantined tag has come. -/
def execTagQuarantineRelease (port tag : Nat) (s : State) : Host.Outcome State Fault Refusal :=
  act s fun s => setStd port (fun d => { d with quar := d.quar.filter (· != tag) }) s

/-- FUNCTION_LEVEL_RESET (R396, R404). -/
def execFunctionLevelReset (bay : Nat) (s : State) : Host.Outcome State Fault Refusal :=
  act s fun s => if bayReach s bay then startOwnReset bay 3 s else s

/-- NumVFs becomes `n` on an H port: bays that are no longer visible are reset (R387, R396). -/
def lowerVfs (port n : Nat) (s : State) : State :=
  match getPort s port with
  | some q =>
    let gone := ((bayList s fun y => y.hport == port && decide (n ≤ y.loc) && decide (y.loc < q.std.numVfs)).map (·.1))
    let s := setStd port (fun d => { d with numVfs := n }) s
    gone.foldl (fun s b => startOwnReset b 4 s) s
  | none => s

/-- VF_ENABLE_CLEAR (R396): VF Enable is cleared (`numVfs` 0) or NumVFs lowered. -/
def execVfEnableClear (port numVfs : Nat) (s : State) : Host.Outcome State Fault Refusal :=
  act s fun s =>
    match getPort s port with
    | some q => if pf0Reach s port && decide (numVfs < q.std.numVfs) then lowerVfs port numVfs s else s
    | none => s

/-- The bay resets that wired reactions start (R461). -/
def wiredReset (s : State) (b : Nat) : Option Wired := s.atr.wired.find? fun w => w.react == 3 && w.actor == b

/-- WIRED_BAY_RESET (R461): 6 dc after the firing the reset of the bay named as the actor starts. -/
def execWiredBayReset (bay : Nat) (s : State) : Host.Outcome State Fault Refusal :=
  act s fun s =>
    match wiredReset s bay with
    | some w =>
      let s := clockTo w.due (setAtr (fun a => { a with wired := a.wired.erase w }) s)
      startOwnReset bay 5 s
    | none => s

/-! ## TDI (R214 to R216) and Bus Master Enable (R222 to R224) -/

/-- A TDISP request reaches Bedrock as the device security manager of the bay's H port: Bedrock is ready, the bay's function is
visible, and the host's Link session on PF0 of the port is established (R214, R415). -/
def tdispOpen (s : State) (b : Nat) : Bool :=
  s.boot.bedrock && bayReach s b
    && (match bayPort s b with | some p => s.sec.sessions.any fun x => x.role == .link p && x.done | none => false)

/-- A TDISP request of a bay is answered: `f` gives the TDI's next state, or none for the standard's error (R214, R216). -/
def tdispRequest (b : Nat) (f : Bay → Option Bay) (s : State) : State :=
  match tget s.bays b with
  | some y =>
    if !tdispOpen s b then s
    else
      match f y with
      | some z => emit (.tdisp b false z.tdi) (setBay b (fun _ => z) s)
      | none => emit (.tdisp b true y.tdi) s
  | none => s

/-- LOCK_INTERFACE_REQUEST (R215): CONFIG_UNLOCKED to CONFIG_LOCKED. -/
def execLockInterfaceRequest (bay stream : Nat) (s : State) : Host.Outcome State Fault Refusal :=
  act s (tdispRequest bay fun y =>
    if y.tdi = .unlocked && y.st == .active then some { y with tdi := .locked, stream := some stream } else none)

/-- START_INTERFACE_REQUEST (R215): CONFIG_LOCKED to RUN. -/
def execStartInterfaceRequest (bay : Nat) (s : State) : Host.Outcome State Fault Refusal :=
  act s (tdispRequest bay fun y => if y.tdi = .locked then some { y with tdi := .run } else none)

/-- The message that was moving data ends with BME_STOPPED, and the QP enters ERROR from whatever state (R222, R352, R353). -/
def stopQp (q : Qp) : Qp :=
  if q.st == .error then q
  else errorQp ((q.wrs.find? fun w => w.done.isNone && w.sent != 0).map (·.msn)) 8 q

/-- Requests of a function that have not passed the ingress pipe of its H port are not issued: posted ones are dropped and counted,
and non-posted ones give their tags back (R222). -/
def dropIssued (fn : Fn) (p : Nat) (s : State) : State :=
  match getPort s p with
  | some q =>
    let mine := q.inQ.filter fun a => a.fn == some fn
    let np := (mine.filter (·.msg.np)).map (·.msg.tag)
    let n := (mine.filter fun a => !a.msg.np).length
    let s := setPort p (fun q => { q with
      inQ := q.inQ.filter fun a => a.fn != some fn,
      std := { q.std with np := q.std.np.filter fun r => !(r.fn == some fn && np.contains r.msg.tag) } }) s
    let s := mine.foldl (fun s a => endArrival p a s) s
    if n = 0 then s else bumpPort p oBmeDrop n s
  | none => s

/-- BME_CLEAR in the cycle in which a reset of the bay began applies first: the reset counts what is left (R224). -/
def recount (b : Nat) (s : State) : State :=
  let w := bayWork s b
  setBay b (fun y => { y with rst := y.rst.map fun r => if r.start = s.dc then { r with work := w + r.squashed } else r }) s

/-- Writes of a bay's engines not yet committed to the H port's queue are dropped and counted (R222). -/
def dropWrites (b p : Nat) (s : State) : State :=
  let mine := fun (x : EngMsg) => x.port.isSome && ownedBy b x.msg
  let n := s.halls.foldl (fun n e => n + e.2.engines.foldl (fun k g => k + (g.2.outQ.filter mine).length) 0) 0
  let s := { s with halls := tmap s.halls fun _ h => { h with engines := tmap h.engines fun _ g =>
    { g with outQ := g.outQ.filter fun x => !mine x } } }
  if n = 0 then s else bumpPort p oBmeDrop n s

/-- BME_CLEAR (R222, R216, R224): Bus Master Enable of PF0 or a bay is cleared. -/
def execBmeClear (fn : Fn) (s : State) : Host.Outcome State Fault Refusal :=
  act s fun s =>
    match fn with
    | .pf0 p => if pf0Reach s p then dropIssued fn p (setStd p (fun d => { d with bme := false }) s) else s
    | .bay b =>
      match tget s.bays b with
      | some y =>
        if !bayReach s b then s
        else
          let s := setBay b (fun y => { y with bme := false, tdi := if y.tdi = .run then .error else y.tdi }) s
          recount b (dropIssued fn y.hport
            (dropWrites b y.hport { s with qps := tmap s.qps fun _ q => if q.bay = b then stopQp q else q }))
      | none => s

/-- MSI-X messages held pending that may be sent now are sent (R222). -/
def flushMsix (fn : Fn) (s : State) : State :=
  match fn with
  | .pf0 p =>
    match getPort s p with
    | some q => q.std.msixPend.foldl (fun s v => msix fn v s) (setStd p (fun d => { d with msixPend := [] }) s)
    | none => s
  | .bay b =>
    match tget s.bays b with
    | some y => y.msixPend.foldl (fun s v => msix fn v s) (setBay b (fun y => { y with msixPend := [] }) s)
    | none => s

/-- STOP_INTERFACE (R216): back to CONFIG_UNLOCKED from any state; the function may issue requests again. -/
def execStopInterface (bay : Nat) (s : State) : Host.Outcome State Fault Refusal :=
  act s fun s =>
    let t := tdispRequest bay (fun y => some { y with tdi := .unlocked }) s
    if tdispOpen s bay then flushMsix (.bay bay) t else t

/-- The held completions of a bay are written while their rings have room (R353). -/
def writeHeld (b : Nat) (s : State) : State :=
  (s.qps.filter fun e => e.2.bay == b).foldl (fun s e =>
    (List.range e.2.held.length).foldl (fun s _ =>
      match tget s.qps e.1 with
      | some q => if mayComplete s q then writeCqe e.1 s else s
      | none => s) s) s

/-- BME_SET (R223, R353): requests may be issued again; held completions are written before new work. -/
def execBmeSet (fn : Fn) (s : State) : Host.Outcome State Fault Refusal :=
  act s fun s =>
    match fn with
    | .pf0 p => if pf0Reach s p then flushMsix fn (setStd p (fun d => { d with bme := true }) s) else s
    | .bay b =>
      if bayReach s b then writeHeld b (flushMsix fn (setBay b (fun y => { y with bme := true }) s)) else s

end Sys2Proof.Machine
end

