-- ==== Sys2Proof/Machine/Channel.lean ====
section
/-! DEFINITION. A Newel channel: its settings, its gate, its requests, and the order of R486 in which the events of one CLK_P
cycle take effect (13_newel_power R481 to R486, R491, R500 to R502, R509). -/

namespace Sys2Proof.Machine

open Sys2Proof

/-- The first CLK_P edge at or after a time in dc. -/
def clkP (t : Nat) : Nat := ceilDiv t 32 * 32

/-! ## Settings (R481) -/

def rsense (c : Chan) : Nat := max 100 (c.board.extractLsb' 0 16).toNat
def slewCode (c : Chan) : Nat := (c.board.extractLsb' 16 3).toNat
def presEn (c : Chan) : Bool := c.board.getLsbD 19
def inrush (c : Chan) : Nat := nearer 1 80 (c.board.extractLsb' 20 7).toNat
def otTrip (c : Chan) : Nat := nearer 100 175 (c.therm.extractLsb' 0 8).toNat
def tRef (c : Chan) : Nat := (c.therm.extractLsb' 8 8).toNat
def rthOf (c : Chan) : Nat := (c.therm.extractLsb' 16 8).toNat
def tauOf (c : Chan) : Nat := max 1 (c.therm.extractLsb' 24 8).toNat

/-- Degrees in the unit of the stored temperature. -/
def degC (n : Nat) : Int := (n * 2 ^ 32 : Nat)

/-- A board is present: the contact, or always (PRES_EN). -/
def boardIn (c : Chan) : Bool := !presEn c || c.present

/-- The gate is on. -/
def gateOn (c : Chan) : Bool := c.st == .ramp || c.st == .on

/-! ## Feeds and the budget -/

/-- The feed a channel should use: the preferred one while it is good, else the other when that is good (R488). -/
def feedFor (s : State) (c : Chan) : Option Nat :=
  if (getFeed s c.feedPri).good then some c.feedPri
  else if (getFeed s (1 - c.feedPri)).good then some (1 - c.feedPri) else none

/-- Amperes charged to a feed's budget (R491, R492). -/
def chargedTo (s : State) (f : Nat) : Nat :=
  s.nw.chs.foldl (fun n e => if e.2.st == .ramp && e.2.feed = f then n + inrush e.2 else n) 0

/-- Channels QUEUED on a feed (R491). -/
def queuedOn (s : State) (f : Nat) : List (Nat × Chan) := s.nw.chs.filter fun e => e.2.st == .queued && feedFor s e.2 == some f

/-! ## Gate, requests, retries -/

/-- A channel's gate is commanded off: PG deasserts and NW_PERST_N falls (R498, R530). -/
def gateOff (ch : Nat) (s : State) : State :=
  let c := getChan s ch
  let s := if c.st == .ramp || c.st == .on then emit (.newelGate ch false) s else s
  setChan ch (fun c => { c with
    offAt := if c.st == .ramp || c.st == .on then s.dc else c.offAt, pg := false, perst := false, moving := none,
    blank := false, front := false }) s

/-- NEWEL_OFF on a channel (R501, R509). -/
def chanOff (ch : Nat) (s : State) : State :=
  let s := gateOff ch s
  setChan ch (fun c => { c with
    requested := false, retries := if c.st == .lockout || c.st == .short then c.retries else 0,
    st := if c.st == .lockout || c.st == .short then c.st else .off }) s

/-- The retry timer starts; one that runs is not restarted (R485, R500, R502). -/
def startRetry (ch : Nat) (s : State) : State :=
  setChan ch (fun c => { c with timer := some (c.timer.getD (s.dc + 2000000 * c.retryTmr)) }) s

/-- A channel is requested (R506, R509). -/
def requestChan (ch : Nat) (s : State) : State :=
  setChan ch (fun c =>
    if c.st == .off then { c with requested := true, st := .wait, tj := if c.tempMode = 1 then degC (tRef c) else c.tj }
    else c) s

/-- NEWEL_CLEAR (R503, R509). -/
def clearChanLock (ch : Nat) (s : State) : State :=
  setChan ch (fun c => if c.st == .lockout then { c with st := .off, retries := 0, requested := false } else c) s

/-- A board is inserted (R501, R502). -/
def seatBoard (ch : Nat) (s : State) : State := setChan ch (fun c => { c with present := true, retries := 0 }) s

/-- The retry timer expires (R485). -/
def expireRetry (ch : Nat) (s : State) : State := setChan ch (fun c => { c with timer := none, expAt := some s.dc }) s

/-- Conditions of R484 beside the time since the last expiry. -/
def mayQueue (s : State) (c : Chan) : Bool :=
  c.st == .wait && c.requested && c.timer.isNone && boardIn c && decide (c.tj < degC (otTrip c) - degC 20) && !s.nw.under
    && !s.boot.basalt

/-- A channel that may start is QUEUED (R484). -/
def queueChan (ch : Nat) (s : State) : State :=
  let c := getChan s ch
  let rested := match c.expAt with | some t => decide (t + 200000000 ≤ s.dc) | none => true
  if mayQueue s c && rested then setChan ch (fun c => { c with st := .queued, front := false }) s else s

/-- A QUEUED channel is admitted on its feed (R491, R495). -/
def rampChan (ch feed : Nat) (s : State) : State :=
  let c := getChan s ch
  if c.st == .queued && feedFor s c == some feed then
    emit (.newelGate ch true)
      (setChan ch (fun c => { c with st := .ramp, feed := feed, closed := true, front := false, admitAt := s.dc }) s)
  else s

/-! ## Events of one CLK_P cycle (R486) -/

/-- The place of a logged event in the order of R486. -/
def evRank : ChanEv → Nat
  | .inserted => 4
  | .off | .on | .clear => 5
  | .expiry | .eligible => 6
  | .admitted _ => 7

/-- What a logged event does to its channel. -/
def redo (ch : Nat) : ChanEv → State → State
  | .inserted => seatBoard ch
  | .off => chanOff ch
  | .on => requestChan ch
  | .clear => clearChanLock ch
  | .expiry => expireRetry ch
  | .eligible => queueChan ch
  | .admitted f => rampChan ch f

/-- The events that channels have taken in the CLK_P cycle now running. -/
def doneNow (s : State) : List (Nat × ChanEv × Chan) := if s.nw.cyc = ceilDiv s.dc 32 then s.nw.done else []

/-- An event of a channel is noted with the channel as it finds it. -/
def noteEv (ch : Nat) (e : ChanEv) (s : State) : State :=
  { s with nw := { s.nw with cyc := ceilDiv s.dc 32, done := doneNow s ++ [(ch, e, getChan s ch)] } }

/-- The events of a channel in this cycle that a new one of rank `r` comes before. -/
def laterEvs (s : State) (ch r : Nat) : List (Nat × ChanEv × Chan) :=
  (doneNow s).filter fun e => e.1 == ch && decide (r < evRank e.2.1)

/-- An admission that an earlier event of its cycle prevents frees its feed for another one. -/
def unadmit (ch : Nat) (e : ChanEv) (s : State) : State :=
  match e with
  | .admitted f => if (getChan s ch).st == .ramp then s else emit (.newelGate ch false) (setFeed f (fun x => { x with lastAdm := none }) s)
  | _ => s

/-- Logged events act again on their channel alone; what else they did stands (log 92). -/
def redoAll (ch : Nat) (l : List (Nat × ChanEv × Chan)) (s : State) : State :=
  l.foldl (fun s e =>
    let t := noteEv ch e.2.1 s
    unadmit ch e.2.1 (setChan ch (fun _ => getChan (redo ch e.2.1 t) ch) t)) s

/-- A channel as an event of this cycle found it, in all that the events of R486 change; its settings stay as they are. -/
def rewind (old c : Chan) : Chan :=
  { old with board := c.board, therm := c.therm, assoc := c.assoc, ilimit := c.ilimit, dead := c.dead, retryTmr := c.retryTmr,
             retryCnt := c.retryCnt, feedPri := c.feedPri, tempMode := c.tempMode, prio := c.prio, fetShort := c.fetShort,
             trip := c.trip, oc := c.oc, ot := c.ot, startTo := c.startTo, removed := c.removed, sensor := c.sensor, tj := c.tj }

/-- An event of rank `r` takes effect in the order of R486: on the channel as the events of lower rank of this CLK_P cycle left
it, and the later ones act on what it leaves. -/
def inTurn (r ch : Nat) (f : State → State) (s : State) : State :=
  match laterEvs s ch r with
  | [] => f s
  | e :: l =>
    let t := { s with nw := { s.nw with done := (doneNow s).filter fun x => !(x.1 == ch && decide (r < evRank x.2.1)) } }
    redoAll ch (e :: l) (f (setChan ch (rewind e.2.2) t))

/-- An event that is logged takes effect in its turn. -/
def took (ch : Nat) (e : ChanEv) (f : State → State) (s : State) : State := inTurn (evRank e) ch (fun s => f (noteEv ch e s)) s

end Sys2Proof.Machine
end

