-- ==== Sys2Proof/Machine/PortState.lean ====
section
/-! DEFINITION. Port states: training starts, HOLD, the flush of a port that goes down, AMBER and its way out, the port map
and the commands on ports (01_architecture R29 to R49, R569, R570; 02 R81, R93, R94; 04 R166 to R176; 05 R201, R227 to
R234; 06 R279 to R283; 14 R525 to R528). -/

namespace Sys2Proof.Machine

open Sys2Proof

/-! ## Links and bridges -/

def setLanes (p : Nat) (f : Lane → Lane) (s : State) : State :=
  match getPort s p with
  | some q => (portLanes p q).foldl (fun s l => setLane l f s) s
  | none => s

/-- What the virtual bridge of a binding reports: presence and link-active (R198, R201, R203, R230). -/
def bridgeView (q : Port) (b : Option Binding) : Bool × Bool :=
  match b with
  | some b =>
    if b.active then (q.st == .up || (q.st == .training && q.std.rxDet), q.st == .up) else (false, false)
  | none => (false, false)

/-- Hot-plug events of the bridges of a D port whose report has changed, where the host has enabled them (R203). -/
def mirror (p : Nat) (before s : State) : State :=
  match getPort before p, getPort s p with
  | some q, some r =>
    q.std.binds.foldl (fun s e =>
      let v := bridgeView r (tget r.std.binds e.1)
      if bridgeView q (some e.2) != v && (match getPort s e.2.hport with | some h => h.std.hotplug | none => false) then
        emit (.hotplug e.2.hport e.2.bridge v.1 v.2) s
      else s) s
  | _, _ => s

/-- A LANE_TEST runs on a lane of the port (R123). -/
def tested (s : State) (p : Nat) (q : Port) : Bool := (portLanes p q).any fun l => (getLane s l).test.isSome

/-- The quad of a lane (R98). -/
def quadOf (l : Nat) : Nat := l / 4

/-- An eye of EYE_SCAN's result: four bytes (R126). -/
def eyeBytes (e : Eye) : Bytes := [e.left, e.right, e.top, e.bottom]

/-- The eyes a scan measures: all, or the one of its EYE field; at NRZ the middle one (R126). -/
def eyeMask (x : Scan) (nrz : Bool) (k : Nat) (e : Eye) : Eye :=
  if nrz then (if k = 1 then e else {}) else if x.eye = 0 || x.eye = k + 1 then e else {}

/-- EYE_SCAN's result (R126). -/
def eyeData (complete nrz : Bool) (x : Scan) (u m l : Eye) : Bytes :=
  [b2n complete + 2 * b2n nrz, 0, 0, 0] ++ eyeBytes (eyeMask x nrz 0 u) ++ eyeBytes (eyeMask x nrz 1 m)
    ++ eyeBytes (eyeMask x nrz 2 l)

/-- An eye whose margins the manual leaves open: free values in the ranges of R126. -/
def freeEye (s : State) : Eye :=
  let f := fun k n => let v := Config.freeNat (s.freeN + k) % n; if v + 1 = n then 255 else v
  { left := f 0 34, right := f 1 34, top := f 2 256, bottom := f 3 256 }

/-- The NRZ rates: those below 64.0 GT/s (R126). -/
def nrzRate (code : Nat) : Bool := decide (code < 5)

/-- The port leaves UP with an eye scan running: it ends at once and replies with the margins found so far, which are free
(R125). -/
def endScan (p : Nat) (s : State) (l : Nat) : State :=
  match (getLane s l).scan, getPort s p with
  | some x, some q =>
    let u := freeEye s
    let s := { s with freeN := s.freeN + 4 }
    let m := freeEye s
    let s := { s with freeN := s.freeN + 4 }
    let w := freeEye s
    let s := { s with freeN := s.freeN + 4 }
    endOp (.eyeScan p (l - p)) 0 (eyeData false (nrzRate q.rate) x u m w) (setLane l (fun y => { y with scan := none }) s)
  | _, _ => s

/-- A port takes a state, and what mirrors it follows; its eye scans end as it leaves UP (R125). -/
def portTo (p : Nat) (st : PortState) (s : State) : State :=
  let s := match getPort s p with
    | some q => if q.st == .up && st != .up then (portLanes p q).foldl (endScan p) s else s
    | none => s
  mirror p s (setState p st s)

/-! ## Span training -/

/-- A span without link state: its timers and the FDID last seen stay. -/
def spanFresh (x : Span) : Span :=
  { ackCoal := x.ackCoal, ackTmr := x.ackTmr, replayTmr := x.replayTmr, nbr := x.nbr }

/-- The settings of a span with keys, resize and estimates gone (R173). -/
def scfgFresh (c : SpanCfg) : SpanCfg := { c with keys := {}, rs := {}, estH := {}, estD := {}, incs := [] }

/-- The phases of training start over (R162). -/
def startAttempt (dc : Nat) (x : Span) : Span :=
  { x with phase := .align, rated := false, paramRx := none, paramOk := false, eqDone := (false, false),
           gotAll := (false, false), keyxFrags := [], hello := [], sig := [], keyxPos := 0, initSeen := false,
           replayDue := none, since := dc, resting := false }

/-- The alignment word, then TRAIN flits with PHASE 1 (R117, R162, R171). -/
def sendPhase1 (p : Nat) (s : State) : State := sendTrain p (sendWord p s)

/-- The lanes of a span as training begins: not aligned, no request of their own outstanding (R110, R162). -/
def unalign (l : Lane) : Lane := { l with aligned := false, misses := 0, eqReq := 0, eqOut := false }

/-- An attempt of fresh training begins, at 32 GBd with preset S3 and a new proposal (R109, R162, R164). -/
def freshAttempt (p : Nat) (s : State) : State :=
  match getPort s p with
  | some q =>
    let s := drawn (setSpan p (fun x => { startAttempt s.dc (spanFresh x) with
      tgt := (q.width, 0), proposal := freeVal s % 2 ^ 32 }) s)
    let s := setPort p (fun q => { q with widthNow := q.width, rate := 255 }) s
    sendPhase1 p (setLanes p (fun l => { unalign l with cm1 := -4, cp1 := -8, rate := 9 }) s)
  | none => s

/-- Fresh TRAINING of a port (R162, R174, R232, R525). -/
def freshTraining (p : Nat) (s : State) : State :=
  match getPort s p with
  | some q =>
    let s := setStd p (fun d => { d with amberCause := 0, hotRst := false, perstDown := false }) s
    let s := portTo p .training s
    if q.typ == .span then freshAttempt p (setScfg p scfgFresh s) else s
  | none => s

/-- Retained TRAINING of a span: everything R172 names is kept (R170, R171, R174). -/
def retainedTraining (p : Nat) (s : State) : State :=
  match getPort s p with
  | some q =>
    let s := portTo p .training (setSpan p (fun x => { startAttempt s.dc x with
      retained := true, tgt := (q.widthNow, q.rate - 7) }) s)
    sendPhase1 p (setLanes p unalign s)
  | none => s

/-- A span in UP forces a retrain (R170). -/
def forceRetrain (p : Nat) (s : State) : State :=
  if portSt s p == some .up then retainedTraining p s else s

/-- A resize ends without being made: width and rate before it stand again, and its command replies ABORTED (R180). -/
def dropResize (p : Nat) (s : State) : State :=
  let s := match (getPort s p).bind (·.scfg.rs.before) with
    | some (w, r) => setPort p (fun q => { q with widthNow := w, rate := 7 + r }) s
    | none => s
  let half := match getPort s p with
    | some q => q.scfg.rs.half && decide (q.widthNow < homeWidth q)
    | none => false
  abortOp (.spanResize p) (setScfg p (fun c => { c with rs := { half := half } }) s)

/-- A span enters HOLD (R166, R172, R174, R180). -/
def enterHold (p : Nat) (s : State) : State :=
  let s := dropResize p s
  let s := setSpan p (fun x => { x with phase := .align, retained := true }) (portTo p .hold s)
  sendPhase1 p (fireDegr p 14 s)

/-! ## Flush (R279 to R283, R173) -/

/-- Messages wholly in the Landing, which is discarded (R173). -/
def flushLanding (p : Nat) (s : State) : State :=
  match getPort s p with
  | some q =>
    let ms := q.span.landing.filterMap fun f => f.seg.bind fun g => if g.last then some g.msg else none
    ms.foldl (fun s m => setPort p (fun q => { q with
      flush := q.flush.map fun f => { f with landing := cadd f.landing m.cls 1 } }) (bumpPort p (oSpFlush m.cls) 1 s)) s
  | none => s

/-- The message a transmitter was sending: one partly in the Landing is removed as a descriptor is (R280); one that left
whole has left; at an edge port it is cut off with its link. -/
def flushSending (p : Nat) (s : State) : State :=
  match getPort s p with
  | some q =>
    match q.sched.sending with
    | some x =>
      let s := setSched p (fun d => { d with sending := none }) s
      let whole := q.typ == .span && decide (flitsOf x.msg ≤ x.flits)
      let s := if q.typ == .span && !whole then removeMsg p x.msg s else s
      (match x.mid with | some k => dropRef k (retireMid whole k s) | none => s)
    | none => s
  | none => s

/-- A leaf of a port loses its descriptors and fences (R279). -/
def flushLeaf (p : Nat) (s : State) (leaf : Nat) : State :=
  let l := leafQ s (hallOf p) leaf
  (qMids l).foldl (fun s mid => removeAt p mid s) (setLeafQ (hallOf p) leaf [] s)

/-- Messages still arriving at a port are discarded; their credits are not released (R279). -/
def flushArrivals (p : Nat) (s : State) : State :=
  match getPort s p with
  | some q =>
    let s := q.inQ.foldl (fun s a => match a.ovr with | some x => unchargeAcct (hallOf p) x (cellsOf a.msg) s | none => s) s
    let s := setGn (fun g => { g with acc := g.acc.filter fun a => !(a.write && a.port == p && a.mid.isNone) }) s
    let s := q.mgtWait.foldl (fun s a => if a.ovr.isNone then unhold p a true s else unhold p a false s) s
    let s := setPort p (fun q => { q with inQ := [], mgtWait := [] }) s
    setSpan p (fun x => { x with rxPart := none }) s
  | none => s

/-- A deferred message is discarded and counted (R323). -/
def dropDeferred (p : Nat) (s : State) (mid : Nat) : State :=
  let s := bumpPort p 0x500C 1 s
  let s := { s with cells := tmod s.cells mid fun x => { x with cred := none } }
  dropRef mid (retireMid false mid s)

/-- The defer queues of a port's meters (R323). -/
def flushDeferred (p : Nat) (s : State) : State :=
  let h := hallOf p
  let mids := (getHall s h).meters.flatMap fun e => if e.2.port = p % 64 then e.2.defer else []
  let s := setHall h (fun x => { x with
    meters := tmap x.meters fun _ m => if m.port = p % 64 then { m with defer := [] } else m }) s
  mids.foldl (dropDeferred p) s

/-- Copies of management broadcasts owed to a port that goes down are dropped, and a stage it filled owes it no credit. -/
def flushStages (p : Nat) (s : State) : State :=
  let drop : Stage → Stage := fun g =>
    { g with ports := g.ports.erase p, arrival := if g.arrival = some p then none else g.arrival }
  let done := s.halls.flatMap fun h => h.2.stages.filterMap fun e =>
    if e.2.ports == [p] then e.2.arrival.map fun a => (a, e.2.msg) else none
  let s := { s with halls := tmap s.halls fun _ h =>
    { h with stages := tfilter (tmap h.stages fun _ g => drop g) fun _ g => !g.ports.isEmpty } }
  done.foldl (fun s e => if e.1 = p then s else releaseCred e.1 e.2 s) s

/-- The credits of messages kept from before belong to counts that are cleared (R173, R279; DEDUCED, log 26). -/
def forgetCredits (p : Nat) (s : State) : State :=
  { s with cells := tmap s.cells fun _ x => if x.cred = some p then { x with cred := none } else x }

/-- What ends with a link: operations, keys, sessions (R75, R180, R416, R426). -/
def endLink (p : Nat) (s : State) : State :=
  let s := dropResize p s
  let s := abortOp (.rekey p) s
  let s := setLanes p (fun l => { l with cdr := false, aligned := false, misses := 0, rate := 15 }) s
  let s := setStd p (fun d => { d with
    ide := tmap d.ide fun _ i => { i with secure := false, keys := [] }, l1 := false, l1sub := 0, l1Exit := false, l0pRed := false, rxDet := false, heldCpl := [] }) s
  let s := endSessions (fun x => x.role == .link p) s
  let s := if s.boot.mgr == some p then endSessions (fun x => x.role == .officer && x.origin == some (.vdm p)) s else s
  let s := setScfg p scfgFresh (setSpan p spanFresh s)
  setPort p (fun q => { q with rate := 255, widthNow := q.width, flit := false, t1 := none }) s

/-- A port enters DOWN or AMBER: its state first, then the flush of R279 in the order of R280. Requests of the device's own
functions went inward: they await the completions that are removed here (R228). -/
def enterDown (p : Nat) (st : PortState) (s : State) : State :=
  match getPort s p with
  | some q =>
    let n := (portMids s p).length
    let old := match q.flush with | some f => f.compl | none => []
    let s := setPort p (fun q => { q with flush := some { at_ := s.dc, n := n, compl := old, next := s.dc + 1 } }) s
    let s := portTo p st s
    let s := (q.std.np.filter fun r => r.fn.isNone).foldl (completeOutstanding p)
      (setStd p (fun d => { d with np := d.np.filter fun r => r.fn.isSome }) s)
    let s := flushSending p s
    let s := (portLeaves s p).foldl (flushLeaf p) s
    let s := flushLanding p s
    let s := flushStages p (flushDeferred p (flushArrivals p s))
    let s := if q.typ == .span then forgetCredits p s else s
    let s := endLink p s
    if st == .down then abortOp (.flight p) (setSched p (fun d => { d with pendFlight := none }) s) else s
  | none => s

/-! ## AMBER (R227 to R232, R551) -/

/-- KIND of a source in HP_AMBER_CAUSE. -/
def amberKind (src : Nat) : Nat :=
  if (centralNum src).isSome then 3 else if src % 256 < 64 then 1 else if src % 256 < 128 then 2 else 3

def amberWord (src cause : Nat) : BitVec 32 := BitVec.ofNat 32 (cause % 256 + 256 * amberKind src + 2 ^ 16 * src)

/-- The bays of a port. -/
def baysOfPort (s : State) (p : Nat) : List Nat := (bayList s fun y => y.hport == p).map (·.1)

/-- The port is in AMBER: what R229 and R230 add for an H port and for a D port. -/
def amberExtras (p : Nat) (s : State) : State :=
  match getPort s p with
  | some q =>
    match q.typ with
    | .h => (baysOfPort s p).foldl (fun s b => startReset b 0 6 s) s
    | .d => q.std.binds.foldl (fun s e => if e.2.active then aer e.2.hport (some e.2.bridge) 3 s else s) s
    | .span => s
  | none => s

/-- A command that takes the port to DOWN waits for its reply: PORT_DOWN, NEWEL_OFF on its channel, ZEROIZE of the span
(R237, R438). -/
def downAsked (s : State) (p : Nat) : Bool :=
  s.ops.any fun o => match o.kind with
    | .portDown q => q == p
    | .zeroDown q => q == p
    | .newelOff _ q => q == p
    | _ => false

/-- The flush in progress ends the commands that wait for it with ABORTED (R570). -/
def abortFlush (p : Nat) (s : State) : State :=
  setPort p (fun q => { q with flush := q.flush.map fun f => { f with abort := true } }) s

/-- A port enters AMBER for a source, or does what that reaction does in its state (R38, R40, R174, R175, R463). Of the
causes of one cycle HP_AMBER_CAUSE names the lowest source (R551, R569). A port that went to DOWN in this very cycle enters
AMBER, and the command that took it there replies ABORTED (R40, R570). -/
def enterAmber (p src cause : Nat) (s : State) : State :=
  match getPort s p with
  | some q =>
    let name := setStd p (fun d => { d with amberCause := amberWord src cause })
    let now := cameFrom s q
    match q.st with
    | .disabled => s
    | .amber => if now.isSome && decide (src < q.std.amberCause.toNat / 2 ^ 16) then name s else s
    | .down =>
      if now.isSome && now != some .disabled && (q.typ != .span || q.scfg.amber = 1) then
        amberExtras p (name (setStd p (fun d => { d with perstDown := false, hotRst := false })
          (abortFlush p (portTo p .amber s))))
      else s
    | _ =>
      if q.typ == .span && q.scfg.amber = 0 then forceRetrain p s
      else
        let asked := downAsked s p
        let s := enterDown p .amber s
        amberExtras p (name (if asked then abortFlush p s else s))
  | none => s

/-- The wired AMBER reactions due at a port (R461, R463). -/
def amberWired (s : State) (p : Nat) : List Wired := s.atr.wired.filter fun w => w.react == 2 && w.object == p

/-- The element of a list with the least number. -/
def leastBy {α : Type} (f : α → Nat) : List α → Option α
  | [] => none
  | a :: r => match leastBy f r with
    | none => some a
    | some b => if f b < f a then some b else some a

/-- The wired AMBER reactions of a port that are due take effect as one, under the lowest source ID (R461, R551, R569). -/
def amberDue (p : Nat) (s : State) : State :=
  let due := (amberWired s p).filter fun w => decide (w.due ≤ s.dc)
  match leastBy (·.source) due with
  | some w =>
    enterAmber p w.source w.cause (setAtr (fun a => { a with wired := a.wired.filter fun x => !due.contains x }) s)
  | none => s

/-- AMBER_ENTRY (R228, R461): 6 dc after the firing. -/
def execAmberEntry (port : Nat) (s : State) : Host.Outcome State Fault Refusal :=
  act s fun s =>
    match leastBy (·.due) (amberWired s port) with
    | some w => amberDue port (clockTo w.due s)
    | none => s

/-- An open H port or D port is in service: its link can be lost (R39). -/
def linked (q : Port) : Bool := q.typ != .span && q.st == .up

/-- The loss of a port's link beats the DOWN that reached the port in the same cycle: the port enters AMBER in place of DOWN
(R40, R237, R570). Its wired reaction has then acted (DESIGN CHOICE, log 68). -/
def lossBeatsDown (p cause : Nat) (s : State) : State :=
  let s := fire (srcLink p) cause p noActor s
  let mine := fun (w : Wired) => w.source == srcLink p && w.due == s.dc + 6
  enterAmber p (srcLink p) cause (setAtr (fun a => { a with wired := a.wired.filter fun w => !mine w }) s)

/-- A command's DOWN reached a port in this cycle, out of a state whose link can be lost (R40). A loss of link that the host's
reset or PERST_N causes never takes the port to AMBER (R528). -/
def justDown (s : State) (q : Port) (f : PortState → Bool) : Bool :=
  q.st == .down && !q.std.perstDown && !q.std.hotRst && (match cameFrom s q with | some x => f x | none => false)

/-- A link lost without command: the PORT_LINK source fires; a D port that PG leaves may still be in TRAINING (R39, R236). -/
def loseLink (p cause : Nat) (s : State) : State :=
  match getPort s p with
  | some q =>
    if linked q || (cause = 2 && q.st == .training) then fire (srcLink p) cause p noActor s
    else if q.typ != .span && justDown s q fun x => x == .up || (cause = 2 && x == .training) then lossBeatsDown p cause s
    else s
  | none => s

/-- LINK_DOWN (R39). -/
def execLinkDown (port : Nat) (s : State) : Host.Outcome State Fault Refusal := act s (loseLink port 1)

/-- A span loses lock: in mission mode or in retained training it enters HOLD; under Amber policy 1 it enters AMBER from any
state but DISABLED and DOWN (R39, R120, R166, R174, R180). -/
def loseLock (p cause : Nat) (s : State) : State :=
  match getPort s p with
  | some q =>
    if q.typ != .span then s
    else if q.scfg.amber = 1 then
      if q.st == .up || q.st == .training || q.st == .hold then fire (srcLink p) cause p noActor s
      else if justDown s q fun x => x == .up || x == .training || x == .hold then lossBeatsDown p cause s
      else s
    else if q.st == .up || (q.st == .training && q.span.retained) then enterHold p s
    else s
  | none => s

/-- FLUSH_COMPLETION_ISSUE (R280): the next completion of a port's sequence enters the core, at most one per dc from the
cycle after the entry. -/
def execFlushCompletionIssue (port : Nat) (s : State) : Host.Outcome State Fault Refusal :=
  act s fun s =>
    match (getPort s port).bind (·.flush) with
    | some f =>
      match f.compl with
      | m :: r =>
        let s := clockTo f.next s
        let g := { f with compl := r, next := max f.next s.dc + 1 }
        let s := setPort port (fun q => { q with flush := if r.isEmpty && !f.active then none else some g }) s
        sendCompletion port m s
      | [] => s
    | none => s

/-- The result data of R281. -/
def flushData (f : Flush) : Bytes :=
  allCls.flatMap (fun c => le 4 (cget f.removed c)) ++ allCls.flatMap fun c => le 4 (cget f.landing c)

/-- NEWEL_OFF operations that wait for a port to be DOWN end (R237, R570). -/
def endNewelOffs (p : Nat) (abort : Bool) (s : State) : State :=
  s.ops.foldl (fun s o =>
    match o.kind with
    | .newelOff ch q => if q = p then (if abort then abortOp o.kind s else endOp o.kind 0 [] (took ch .off (chanOff ch) s)) else s
    | _ => s) s

/-- FLUSH_END (R281): removal, four descriptors per dc, and the Landing discard have ended. -/
def execFlushEnd (port : Nat) (s : State) : Host.Outcome State Fault Refusal :=
  act s fun s =>
    match (getPort s port).bind (·.flush) with
    | some f =>
      if !f.active then s
      else
        let s := clockTo (f.at_ + ceilDiv f.n 4) s
        let s := setPort port (fun q => { q with flush := if f.compl.isEmpty then none else some { f with active := false } }) s
        let st := if f.abort then stAborted else 0
        endNewelOffs port (f.abort || portSt s port != some .down)
          (endOp (.zeroDown port) st [] (endOp (.portDown port) st (flushData f) (firePipe port 3 s)))
    | none => s

/-! ## Commands on ports -/

/-- The HOLD that a span entered in this cycle is discarded: a DOWN by command beats it, and its event goes with it (R40). -/
def unHold (p : Nat) (s : State) : State :=
  match getPort s p with
  | some q =>
    match (if q.st == .hold then cameFrom s q else none), q.was with
    | some _, some w =>
      let src := srcDegr p
      setAtr (fun a =>
        let pend := match w.pend with | some e => tset a.pend src e | none => tdel a.pend src
        { a with
          pend := pend, again := tdel a.again src, fired := a.fired.filter fun e => e.source != src,
          first := if (a.first.map (·.source)) == some src && w.first.isNone then
              leastBy (·.source) ((pend.map (·.2)).filter fun e => e.cyc == s.dc / 8)
            else a.first }) s
    | _, _ => s
  | none => s

/-- A loss of the port's link fired in this cycle: AMBER is due six cycles on (R227, R570). -/
def lossNow (s : State) (p : Nat) : Bool := (amberWired s p).any fun w => w.source == srcLink p && w.due == s.dc + 6

/-- A DOWN that a command asks for reaches a port. The answer says whether AMBER takes the port in its place (R40, R570): an
entry due now, one of this very cycle, or one that a loss of link of this cycle brings. -/
def meetDown (p : Nat) (s : State) : State × Bool :=
  let t := if (amberWired s p).any fun w => w.due == s.dc then amberDue p s else s
  match getPort t p with
  | some q =>
    if q.st == .amber && (cameFrom t q).isSome then (abortFlush p t, true)
    else if lossNow t p then (t, true)
    else if q.st == .down then (t, false)
    else (enterDown p .down (unHold p t), false)
  | none => (t, false)

/-- A port that went DOWN in this cycle by another cause joins it; one that was DOWN before is left as it is, with the flush
that still runs there and the PORT_DOWN that waits for it (R75, R81, R569; DESIGN CHOICE, log 69). -/
def bodyPortDown : Body := fun c _ s => do
  let p ← portF s c 0 0
  let q ← thePort s p
  let joins := q.st == .down && (cameFrom s q).isSome && (match q.flush with | some f => f.active | none => false)
  if (q.st == .down || q.st == .disabled) && !joins then okWith s (List.replicate 32 0)
  else pure ((meetDown p (if joins then s else abortOp (.portDown p) s)).1, .later (.portDown p) [])

def specPortDown : OpSpec := { code := 0x0204, scope := .port, body := bodyPortDown, layout := layoutPort }

/-- PORT_DOWN (R81, R279 to R281, R570). -/
def execPortDown (c : Cmd) (s : State) : Host.Outcome State Fault Refusal := command specPortDown c s

/-- An operation of R74 runs on the port. -/
def portBusy (s : State) (p : Nat) : Bool :=
  s.ops.any fun o => match o.kind with
    | .portDown q => q == p
    | .zeroDown q => q == p
    | .spanResize q => q == p
    | .rekey q => q == p
    | .newelOff _ q => q == p
    | _ => false

/-- PERST_N of an H port is high (R525). -/
def perstHigh (s : State) (p : Nat) : Bool := s.boot.perst.contains (perstIdx s p)

/-- A port starts fresh TRAINING, or, an H port whose PERST_N is low, is held in DOWN (R525, R527; DEDUCED, log 27). -/
def startTraining (p : Nat) (s : State) : State :=
  if isType s .h p && !perstHigh s p then
    setStd p (fun d => { d with amberCause := 0, perstDown := true }) (portTo p .down s)
  else freshTraining p s

def bodyPortEnable : Body := fun c _ s => do
  let p ← portF s c 0 0
  let q ← thePort s p
  rejectIf (q.st != .disabled) stInvalidState
  rejectIf (portBusy s p || tested s p q) stBusy
  okWith (startTraining p s) []

def specPortEnable : OpSpec := { code := 0x0202, scope := .port, body := bodyPortEnable, layout := layoutPort }

/-- PORT_ENABLE (R94, R123). -/
def execPortEnable (c : Cmd) (s : State) : Host.Outcome State Fault Refusal := command specPortEnable c s

def bodyPortDisable : Body := fun c _ s => do
  let p ← portF s c 0 0
  let q ← thePort s p
  if q.st == .disabled then okWith s []
  else do
    rejectIf (q.st != .down) stInvalidState
    rejectIf (portBusy s p) stBusy
    okWith (portTo p .disabled (setStd p (fun d => { d with amberCause := 0 }) s)) []

def specPortDisable : OpSpec := { code := 0x0203, scope := .port, body := bodyPortDisable, layout := layoutPort }

/-- PORT_DISABLE (R94). -/
def execPortDisable (c : Cmd) (s : State) : Host.Outcome State Fault Refusal := command specPortDisable c s

/-- The rings of a PF0 are stopped (R527, R549): commands not read and replies owed are discarded. -/
def stopRings (p : Nat) (s : State) : State :=
  let s := { s with ops := s.ops.map fun o => if o.reply.origin = .ring p then { o with quiet := true } else o }
  let s := if (getPort s p).any (·.std.rings.enable) then noteSet (.ring p) s else s
  setStd p (fun d => { d with rings := { d.rings with
    enable := false, stopped := d.rings.enable || d.rings.stopped, cmdCons := d.rings.cmdProd, resv := 0 } }) s

/-- PF0 of a port is ready: Bedrock is ready, and Mezzanine runs or both images were rejected (R526). -/
def pf0CanBeReady (s : State) : Bool :=
  s.boot.bedrock && (s.boot.mezz == .running || (s.boot.rejected.contains 0 && s.boot.rejected.contains 1))

/-- PF0's configuration space takes its reset values; its rings and, on the managing H port, the event ring stop (R527). The
manual gives this list for the resets of R527; that it is also the state after a Function Level Reset, in which PORT_RELEASE
leaves PF0 (R232), is the model's (DESIGN CHOICE, log 83). -/
def pf0Reset (p : Nat) (s : State) : State :=
  let s := stopRings p s
  let s := setStd p (fun d => { d with
    bme := false, numVfs := 0, aspm := false, l0pHost := false, ptm := false, hotplug := false, msixPend := [],
    msixOpen := [], msixTab := [], ready := false, mps := 128, mrrs := 512, hdm := [], l11 := false, l12 := false }) s
  let s := setStd p (fun d => { d with ready := pf0CanBeReady s }) s
  if s.boot.mgr == some p then setAtr (fun a => { a with ring := none }) s else s

def bodyPortRelease : Body := fun c _ s => do
  let p ← portF s c 0 0
  let q ← thePort s p
  rejectIf (q.st != .amber) stInvalidState
  rejectIf (portBusy s p) stBusy
  okWith (startTraining p (if q.typ == .h then pf0Reset p s else s)) []

def specPortRelease : OpSpec := { code := 0x0205, scope := .port, body := bodyPortRelease, layout := layoutPort }

/-- PORT_RELEASE (R81, R232). -/
def execPortRelease (c : Cmd) (s : State) : Host.Outcome State Fault Refusal := command specPortRelease c s

/-! ## PORT_STATUS -/

def stateCode : PortState → Nat
  | .disabled => 1 | .training => 2 | .up => 3 | .hold => 4 | .amber => 5 | .down => 6

def typeCode : PortType → Nat
  | .h => 0 | .d => 1 | .span => 2

/-- The Newel channel associated with a D port (R508). -/
def assocChan (s : State) (p : Nat) : Option Nat :=
  if isType s .d p then
    (List.range 32).find? fun k => let a := (getChan s k).assoc.toNat; bit a 31 && a % 512 == p
  else none

/-- The 16 bytes of a port number (R89). -/
def portRecord (s : State) (p : Nat) : Bytes :=
  match getPort s p with
  | none => [0, 0xFF, 0, 0, 0xFF, 0] ++ le 2 0xFFFF ++ le 2 0xFFFF ++ le 2 0 ++ le 4 0
  | some q =>
    let pg := match assocChan s p with | some c => (getChan s c).pg | none => false
    let flags := b2n q.flit + 2 * b2n q.std.l1 + 4 * b2n q.std.l0pRed + 8 * b2n q.scfg.rs.half + 16 * b2n q.span.compat
      + 32 * b2n (q.st == .training && q.span.retained) + 64 * b2n pg
    let isD := q.typ == .d
    let bound := if isD then (leastBy id (q.std.binds.map (·.2.hport))).getD 0xFFFF else 0xFFFF
    let rate := if q.st == .training && !q.span.retained then 255 else q.rate
    [stateCode q.st, typeCode q.typ, q.width, q.widthNow, rate, flags] ++ le 2 (q.pid.getD 0xFFFF) ++ le 2 bound
      ++ le 2 (if isD then q.std.binds.length else 0)
      ++ le 4 (tgetD q.cnt (if q.typ == .span then oReplay else oHpTrainFail) 0)

def bodyPortStatus : Body := fun c _ s => do
  let f ← idF c 0 0 2 none (· < 512)
  let n ← rangeF c 1 2 2 1 1 (min 64 (512 - f))
  okWith s ((List.range n).flatMap fun k => portRecord s (f + k))

def specPortStatus : OpSpec :=
  { code := 0x0206, scope := .portStatus, body := bodyPortStatus, layout := { flds := [(0, 2), (2, 2)], fin := 4 } }

/-- PORT_STATUS (R89). -/
def execPortStatus (c : Cmd) (s : State) : Host.Outcome State Fault Refusal := command specPortStatus c s

/-! ## The port map (R30 to R36, R93, R288, R519) -/

/-- The class minimums of R244. -/
def defaultMins (t : PortType) (w : Nat) : Cls4 :=
  let n := 128 * w
  match t with
  | .span => ⟨n / 4, n / 4, n * 7 / 16, n / 16⟩
  | _ => ⟨n / 4, n / 4, n / 2, 0⟩

/-- A port as it is created (R93, R244, R293, R295, R521). -/
def newPort (t : PortType) (w ns : Nat) : Port :=
  let q : Port := { typ := t, width := w, widthNow := w, mins := defaultMins t w }
  { q with subs := [(0, { rate := lineRate q, burst := 65536, b := (65536 * 2 ^ 24 : Nat), tLast := ns })] }

/-- An entry of a requested map: PORT, WIDTH, TYPE. -/
abbrev MapEnt := Nat × Nat × PortType

/-- What a quad carries: lanes of a span, or lanes of H ports and D ports (R33). -/
def quadMix (es : List MapEnt) (e : MapEnt) : Bool :=
  es.any fun f => (f.2.2 == .span) != (e.2.2 == .span)
    && decide (f.1 / 4 ≤ (e.1 + e.2.1 - 1) / 4) && decide (e.1 / 4 ≤ (f.1 + f.2.1 - 1) / 4)

/-- An entry breaks R30, R33 or R34 beside the entries before it. -/
def mapBreaks (before : List MapEnt) (e : MapEnt) : Bool :=
  e.1 % 64 % e.2.1 != 0 || (e.2.2 == .span && e.2.1 < 4)
    || before.any (fun f => decide (e.1 < f.1 + f.2.1) && decide (f.1 < e.1 + e.2.1)) || quadMix before e
    || (e.2.2 == .h && decide (8 ≤ (before.filter fun f => f.2.2 == .h && hallOf f.1 == hallOf e.1).length))

/-- The first entry at which a map fails. -/
def mapFault : List MapEnt → List MapEnt → Nat → Option Nat
  | _, [], _ => none
  | before, e :: r, k => if mapBreaks before e then some k else mapFault (before ++ [e]) r (k + 1)

/-- The entries of PORT_MAP_SET, each checked: fields 1 + 3k on (R93). -/
def mapEntries (c : Params) : Nat → Nat → List MapEnt → Chk (List MapEnt)
  | 0, _, l => pure l
  | n + 1, k, l => do
    let last := match l.getLast? with | some e => e.1 | none => 0
    let p ← idF c (1 + 3 * k) (4 + 4 * k) 2 none fun v => decide (v < 512) && (l.isEmpty || decide (last < v))
    let w ← idF c (2 + 3 * k) (6 + 4 * k) 1 none fun v => v == 1 || v == 2 || v == 4 || v == 8 || v == 16
    let t ← idF c (3 + 3 * k) (7 + 4 * k) 1 none (· ≤ 2)
    mapEntries c n (k + 1) (l ++ [(p, w, if t = 0 then .h else if t = 1 then .d else .span)])

/-- A port leaves the map (R288): its leaves, the flows from it and to it, the meters on it. Completions still owed are
issued first. -/
def removePort (p : Nat) (s : State) : State :=
  let s := match (getPort s p).bind (·.flush) with
    | some f => f.compl.foldl (fun s m => sendCompletion p m s) s
    | none => s
  let h := hallOf p
  let s := setHall h (fun x => { x with
    leaves := tfilter x.leaves fun _ k => k.port != p % 64,
    leafOff := (tfilter x.leaves fun _ k => k.port == p % 64).foldl (fun t e => tset t e.1 e.2) x.leafOff, meters := tfilter x.meters fun _ m => m.port != p % 64,
    wheel := x.wheel.filter fun w => w.1 != p }) s
  let s := { s with ports := tmap s.ports fun _ q => { q with assign := tfilter q.assign fun k _ => k / 4 != p } }
  let s := mirror p s (setStd p (fun d => { d with binds := [] }) s)
  { s with ports := tdel s.ports p }

/-- A new port takes its place, with the cells its predecessor's account still holds; its counters read 0 (R545). -/
def createPort (e : MapEnt) (old : Option Port) (s : State) : State :=
  let q := newPort e.2.2 e.2.1 (nsNow s)
  let q := match old with | some o => { q with minUse := o.minUse, poolUse := o.poolUse } | none => q
  let s := { s with ports := tset s.ports e.1 q }
  setLanes e.1 (fun _ => {}) s

/-- What names a removed port elsewhere and finds no port of its type there goes with it (DESIGN CHOICE, log 28). -/
def dropNames (p : Nat) (s : State) : State :=
  let s := { s with
    routes := tfilter s.routes fun _ r => !(r.kind == 0 && r.target == p),
    mcast := tfilter (tmap s.mcast fun _ l => l.filter (· != p)) fun _ l => !l.isEmpty,
    tree := s.tree.filter (· != p) }
  (s.groups.filter fun e => e.2.members.contains p).foldl (fun s e =>
    let ms := e.2.members.filter (· != p)
    if ms.isEmpty then { s with groups := tdel s.groups e.1, routes := tfilter s.routes fun _ r => !(r.kind == 1 && r.target == e.1) }
    else
      let home := e.2.home.foldl (fun h m => if m = p then h ++ [(fewest ms (h ++ e.2.home)).getD 0] else h ++ [m]) []
      regroup e.1 { s with groups := tset s.groups e.1 { e.2 with members := ms, home := home } }) s

/-- The new map takes the place of the map in force. -/
def applyMap (es : List MapEnt) (s : State) : State :=
  let same := fun (k : Nat) (q : Port) => es.any fun e => e.1 == k && e.2.1 == q.width && e.2.2 == q.typ
  let gone := s.ports.filter fun e => !same e.1 e.2
  let s' := gone.foldl (fun s e => removePort e.1 s) s
  let add := es.filter fun e => (getPort s' e.1).isNone
  let s' := add.foldl (fun t e => createPort e (getPort s e.1) t) s'
  gone.foldl (fun t e => if isType t e.2.typ e.1 then t else dropNames e.1 t) s'

/-- The field a removal or change names: the entry's PORT field, or field 0 when the map omits the port (R93). -/
def mapField (es : List MapEnt) (p : Nat) : Nat :=
  match es.findIdx? (·.1 == p) with
  | some k => 1 + 3 * k
  | none => 0

def bodyPortMapSet : Body := fun c _ s => do
  let n ← idF c 0 0 2 none (· ≤ 512)
  let es ← mapEntries c n 0 []
  match mapFault [] es 0 with
  | some k => rejectAt stInvalidParam (1 + 3 * k)
  | none =>
    let gone := s.ports.filter fun e => !(es.any fun x => x.1 == e.1 && x.2.1 == e.2.width && x.2.2 == e.2.typ)
    let bad := fun (e : Nat × Port) =>
      !(e.2.st == .disabled || e.2.st == .down)
        || (s.boot.mgr == some e.1 && !(es.any fun x => x.1 == e.1 && x.2.2 == .h))
    match gone.find? bad with
    | some e => rejectAt stInvalidState (mapField es e.1)
    | none =>
      match gone.find? fun e => portBusy s e.1 || tested s e.1 e.2 with
      | some e => rejectAt stBusy (mapField es e.1)
      | none => okWith (applyMap es s) []

def specPortMapSet : OpSpec :=
  { code := 0x0201, body := bodyPortMapSet,
    layout := { flds := [(0, 2)], fin := 4, list := some { off := 4, size := 4, cOff := 0, cW := 2 } } }

/-- PORT_MAP_SET (R35, R36, R93, R288, R520). -/
def execPortMapSet (c : Cmd) (s : State) : Host.Outcome State Fault Refusal := command specPortMapSet c s

/-! ## Link events of H ports and D ports -/

/-- A card's kind against a binding (R200, R201). -/
def kindOk (mld : Bool) (ld : Nat) : Bool := if mld then ld < 16 else ld == 0xFFFF

/-- The slot of an associated channel has PG, or there is none (R235). -/
def slotPowered (s : State) (p : Nat) : Bool :=
  match assocChan s p with
  | some c => (getChan s c).pg
  | none => true

/-- The PLLs of a port's quads have lock again: its lanes run. -/
def quadsBack (p : Nat) (s : State) : State :=
  match getPort s p with
  | some q => setBoot (fun b => { b with quadLost := b.quadLost.filter fun k => !((portLanes p q).map quadOf).contains k }) s
  | none => s

/-- The cache IDs that bindings of a VH hold (R195). -/
def idsOf (h : Nat) (t : Tab Binding) : List Nat := (t.filter fun b => b.2.hport == h).filterMap (·.2.cacheId)

/-- The cache IDs held in a VH, but for those of one port. -/
def cacheIds (s : State) (h : Nat) (but : Option Nat) : List Nat :=
  (s.ports.filter fun e => some e.1 != but).flatMap fun e => idsOf h e.2.std.binds

/-- Bindings of a card that turns out to use CXL.cache: a VH has at most 16 such devices, the rest bind without it (R195,
R200; DEDUCED for a card that was not known when it was bound, log 41). -/
def limitCache (s : State) (p : Nat) : Tab Binding → Tab Binding → Tab Binding
  | done, [] => done
  | done, (ld, b) :: r =>
    let id := if b.cacheOff then none else lowestFree (cacheIds s b.hport (some p) ++ idsOf b.hport done) 16
    limitCache s p (done ++ [(ld, { b with cacheOff := id.isNone, cacheId := id })]) r

/-- The rate code in force: at most 32.0 GT/s in non-flit mode (R192). -/
def linkRate (info : LinkInfo) : Nat := min info.rate (if info.flit then 6 else 4)

/-- The standard's request to a transmitter lane of an H port or D port is taken: every preset, and every coefficient in the range
of full swing; another, such as one for reduced swing, is not applied (R112). -/
def stdAsk (l : Lane) : Option EqAsk → Lane
  | some (.preset n) => if n ≤ 10 then { l with cm1 := (stdPreset n).1, cp1 := (stdPreset n).2 } else l
  | some (.coef a b) => if stdCoefOk a b then { l with cm1 := a, cp1 := b } else l
  | none => l

/-- A lane of a link that has trained: beyond the trained width it is idle. Precoding is on where the partner asks for it, and the
receiver asks for it, at the rates that know it, 32.0 GT/s and above (R107; PRESUMED, log 82). -/
def linkLane (info : LinkInfo) (k : Nat) (l : Lane) : Lane :=
  if info.width ≤ k then { l with cdr := false, aligned := false, precode := false, rxPre := false, rate := 15 }
  else
    let pre := decide (4 ≤ linkRate info)
    { stdAsk l (info.eq.getD k none) with
      cdr := true, aligned := true, precode := info.precode && pre, rxPre := pre, ctle := min 24 info.ctle,
      rate := linkRate info }

/-- LINK_UP (R192, R201, R203, R235): an H port or D port in TRAINING enters UP; a D port records the kind of its card and
compares its bindings. -/
def execLinkUp (port : Nat) (info : LinkInfo) (s : State) : Host.Outcome State Fault Refusal :=
  act s fun s =>
    match getPort s port with
    | some q =>
      if q.typ == .span || q.st != .training || !slotPowered s port || q.width < info.width || info.width = 0 then s
      else
        let isD := q.typ == .d
        let binds := if isD then tmap q.std.binds fun ld b => { b with active := kindOk info.mld ld } else q.std.binds
        let binds := if isD then (if info.cache then limitCache s port [] binds else tmap binds fun _ b => { b with cacheId := none })
          else binds
        let wrong := binds.any fun e => !e.2.active
        let s' := setPort port (fun q => { q with
          widthNow := info.width, rate := linkRate info, flit := info.flit,
          std := { q.std with
            binds := binds, card := if isD then some info.mld else q.std.card, cache := info.cache, rxDet := true,
            linkW := info.width, busyAt := s.dc, l0pAt := s.dc } }) s
        let s' := (List.range q.width).foldl (fun s k => setLane (port + k) (linkLane info k) s) s'
        let s' := quadsBack port s'
        let s' := mirror port s (setState port .up (exchangeFc port s'))
        let s' := (baysOfPort s' port).foldl (fun s b => flushMsix (.bay b) s) (flushMsix (.pf0 port) s')
        if isD && wrong then fireDegr port 16 s' else s'
    | none => s

/-- LINK_TRAINING_FAIL (R233). -/
def execLinkTrainingFail (port : Nat) (s : State) : Host.Outcome State Fault Refusal :=
  act s fun s =>
    match getPort s port with
    | some q => if q.typ != .span && q.st == .training then bumpPort port oHpTrainFail 1 s else s
    | none => s

/-- LOOPBACK_REQUEST (R129): ignored in TRAINING; a port that was UP when its partner left L0 to ask has lost its link. -/
def execLoopbackRequest (port : Nat) (s : State) : Host.Outcome State Fault Refusal := act s (loseLink port 1)

/-- RECEIVER_DETECT (R203, R234, R235): a D port in TRAINING, once its slot has PG. -/
def execReceiverDetect (port : Nat) (detected : Bool) (s : State) : Host.Outcome State Fault Refusal :=
  act s fun s =>
    match getPort s port with
    | some q =>
      if q.typ == .d && q.st == .training && (slotPowered s port || !detected) then
        mirror port s (setStd port (fun d => { d with rxDet := detected }) s)
      else s
    | none => s

/-! ## Resets of H ports (R525 to R528) -/

/-- An H port enters DOWN by its host or its pin (R527): flush, PF0's configuration, its bays. -/
def hostDown (p : Nat) (s : State) : State :=
  let s := if portSt s p == some .down || portSt s p == some .disabled then s else enterDown p .down s
  let s := (baysOfPort s p).foldl (fun s b => startOwnReset b 4 s) s
  pf0Reset p s

/-- HOT_RESET (R527): a hot reset or link disable from the host. -/
def execHotReset (port : Nat) (s : State) : Host.Outcome State Fault Refusal :=
  act s fun s =>
    match getPort s port with
    | some q =>
      if q.typ == .h && q.st == .up then setStd port (fun d => { d with hotRst := true }) (hostDown port s) else s
    | none => s

/-- HOT_RESET_EXIT (R527): the port leaves the DOWN it held, unless PERST_N holds it. -/
def execHotResetExit (port : Nat) (s : State) : Host.Outcome State Fault Refusal :=
  act s fun s =>
    match getPort s port with
    | some q =>
      if q.typ == .h && q.st == .down && q.std.hotRst then
        let s := setStd port (fun d => { d with hotRst := false }) s
        if perstHigh s port then freshTraining port s else setStd port (fun d => { d with perstDown := true }) s
      else s
    | none => s

/-- PERST_N_ASSERT (R527, R528): the port goes to DOWN; one in AMBER stays there, and one DISABLED or already DOWN keeps
its state. A DOWN by command of this cycle is joined, and that command holds the port (R569; DEDUCED, log 68). -/
def execPerstNAssert (idx : Nat) (s : State) : Host.Outcome State Fault Refusal :=
  let low := setBoot (fun b => { b with perst := b.perst.filter (· != idx) }) s
  .next (if !live s then low
    else
      match perstPort s idx with
      | some p =>
        match getPort s p with
        | some q =>
          let joins := q.st == .down && (cameFrom s q).isSome && cameFrom s q != some .disabled
          if q.st == .amber || q.st == .disabled || (q.st == .down && !q.std.hotRst && !joins) then low
          else setStd p (fun d => { d with perstDown := !joins || d.perstDown, hotRst := false }) (hostDown p low)
        | none => low
      | none => low)

/-- PERST_N_DEASSERT (R525, R527): fresh TRAINING once Bedrock is ready. -/
def execPerstNDeassert (idx : Nat) (s : State) : Host.Outcome State Fault Refusal :=
  let high := setBoot (fun b => { b with perst := if b.perst.contains idx then b.perst else b.perst ++ [idx] }) s
  .next (if !live s then high
    else
      match perstPort s idx with
      | some p =>
        match getPort s p with
        | some q =>
          if q.st == .down && q.std.perstDown && s.boot.bedrock then freshTraining p high else high
        | none => high
      | none => high)

end Sys2Proof.Machine
end

