-- ==== Sys2Proof/Machine/SwitchCmd.lean ====
section
/-! DEFINITION. The commands of the switch core and the schedulers: routes, groups, multicast, buffers, the management
tree, leaves, subscribers, services, lengths, Flights and meters (06_switch_core R242 to R271; 07_scheduling R286 to R324;
02 R74, R95). -/

namespace Sys2Proof.Machine

open Sys2Proof

/-! ## PID_SET, ROUTE_SET -/

def bodyPidSet : Body := fun c _ s => do
  let p ← idF c 0 0 2 none fun v => inUse s v && !isType s .span v
  let pid ← idF c 1 2 2 none fun v => v < 4096 || v == 0xFFFF
  rejectIf (pid != 0xFFFF && (pidPort s pid).isSome && pidPort s pid != some p) stInvalidState
  rejectIf (portBusy s p) stBusy
  if pid = 0xFFFF then okWith (setPort p (fun q => { q with pid := none }) s) []
  else do
    okWith (setPort p (fun q => { q with pid := some pid }) s) []

def specPidSet : OpSpec := { code := 0x0301, scope := .port, body := bodyPidSet, layout := { flds := [(0, 2), (2, 2)], fin := 4 } }

/-- PID_SET (R95, R206). -/
def execPidSet (c : Cmd) (s : State) : Host.Outcome State Fault Refusal := command specPidSet c s

/-- May a route of a kind name this target (R258)? -/
def targetOk (s : State) (kind t : Nat) : Bool :=
  match kind with
  | 0 => isType s .span t
  | 1 => t < 64
  | 2 => t < 4096
  | _ => true

/-- The records of ROUTE_SET: DPID, KIND, TARGET. -/
def routeRecs (s : State) (c : Params) : Nat → Nat → List (Nat × Nat × Nat) → Chk (List (Nat × Nat × Nat))
  | 0, _, l => pure l
  | n + 1, k, l => do
    let d ← idF c (1 + 3 * k) (4 + 8 * k) 2 none fun v => v < 4096 && !(l.any fun e => e.1 == v)
    let kd ← idF c (2 + 3 * k) (6 + 8 * k) 1 none (· ≤ 3)
    let t ← idF c (3 + 3 * k) (8 + 8 * k) 2 none (targetOk s kd)
    routeRecs s c n (k + 1) (l ++ [(d, kd, t)])

/-- The field of the first record that the state rejects: the DPID of a port of this M5120, or the TARGET of a missing
group (R258). -/
def routeFault (s : State) (rs : List (Nat × Nat × Nat)) : Option Nat :=
  (rs.zipIdx.filterMap fun r =>
    if (pidPort s r.1.1).isSome then some (1 + 3 * r.2)
    else if r.1.2.1 == 1 && (tget s.groups r.1.2.2).isNone then some (3 + 3 * r.2)
    else none).head?

def bodyRouteSet : Body := fun c _ s => do
  let n ← idF c 0 0 2 none fun v => decide (1 ≤ v) && decide (v ≤ 256)
  let rs ← routeRecs s c n 0 []
  let f := routeFault s rs
  rejectIfAt f.isSome stInvalidState (f.getD 0)
  okWith { s with routes := rs.foldl (fun t r => if r.2.1 = 3 then tdel t r.1 else tset t r.1 ⟨r.2.1, r.2.2⟩) s.routes } []

def specRouteSet : OpSpec :=
  { code := 0x0302, body := bodyRouteSet,
    layout := { flds := [(0, 2)], fin := 4, list := some { off := 4, size := 8, cOff := 0, cW := 2 } } }

/-- ROUTE_SET (R258). -/
def execRouteSet (c : Cmd) (s : State) : Host.Outcome State Fault Refusal := command specRouteSet c s

/-! ## Span groups -/

/-- A list of ports checked one by one: each in a permitted set, none given twice. -/
def portList (ok : Nat → Bool) (c : Params) (i off : Nat) : Nat → Nat → List Nat → Chk (List Nat)
  | 0, _, l => pure l
  | n + 1, k, l => do
    let p ← idF c (i + k) (off + 2 * k) 2 none fun v => ok v && !l.contains v
    portList ok c i off n (k + 1) (l ++ [p])

/-- The highest-numbered entry a member holds. -/
def lastEntry (h : List Nat) (v : Nat) : Option Nat :=
  (h.zipIdx.filter fun e => e.1 == v).getLast?.map (·.2)

/-- Entries of members that have left, first to last (R266). -/
def rehome (ms : List Nat) (h : List Nat) : List Nat :=
  (List.range 256).foldl (fun h j =>
    if ms.contains (h[j]?.getD 0) then h else h.set j ((fewest ms h).getD 0)) h

/-- Entries taken over by an added member (R266). -/
def fillMember (ms : List Nat) (m : Nat) : Nat → List Nat → List Nat
  | 0, h => h
  | n + 1, h =>
    if h.count m < 256 / max 1 ms.length then
      match (most ms h).bind (lastEntry h) with
      | some k => fillMember ms m n (h.set k m)
      | none => h
    else h

/-- The home table after a change of members (R266). -/
def newHome (old new : List Nat) (h : List Nat) : List Nat :=
  (new.filter fun m => !old.contains m).foldl (fun h m => fillMember new m 256 h) (rehome new h)

/-- The home table of a group just created: entry j holds member j mod n. -/
def firstHome (ms : List Nat) : List Nat := (List.range 256).map fun j => ms[j % max 1 ms.length]?.getD 0

/-- Members whose FDID becomes a mismatch raise HALL_SW cause 1 in their hall (R260, R457). -/
def newMismatches (g : Nat) (before s : State) : State :=
  match tget s.groups g with
  | some x =>
    (x.members.filter fun m => mismatched s x m
        && !(match tget before.groups g with | some y => y.members.contains m && mismatched before y m | none => false)).foldl
      (fun s m => fire (srcHall (hallOf m) 228) 1 g noActor s) s
  | none => s

/-- A group is deleted: what its paused entries hold goes on to the members (R260; DESIGN CHOICE, log 29). -/
def deleteGroup (g : Nat) (s : State) : State :=
  match tget s.groups g with
  | some x =>
    let s := (tkeys x.paused).foldl (fun s j => endPause g j s) s
    { s with groups := tdel s.groups g,
             ports := tmap s.ports fun _ q => { q with assign := tfilter q.assign fun k _ => k / 4 != 576 + g } }
  | none => s

/-- GROUP_SET (R260, R266, R267). DESIGN CHOICE (log 90): the live table of a new group starts as its home table. -/
def bodyGroupSet : Body := fun c _ s => do
  let g ← idF c 0 0 1 none (· < 64)
  let n ← idF c 1 2 1 none (· ≤ 16)
  let w ← rangeF c 2 4 2 100 1 10000
  let gr ← rangeF c 3 8 4 10 1 1000000
  let rb ← elseF c 4 12 1 1 (· ≤ 1) 1
  let ms ← portList (isType s .span) c 5 16 n 0 []
  if n = 0 then do
    rejectIfAt (s.routes.any fun e => e.2.kind == 1 && e.2.target == g) stInvalidState 1
    okWith (deleteGroup g s) []
  else do
    let f := ms.findIdx fun m => match groupOf s m with | some k => k != g | none => false
    rejectIfAt (decide (f < ms.length)) stInvalidState (5 + f)
    let x : Group := match tget s.groups g with
      | some y => { y with members := ms, wait := w, grace := gr, rebal := rb == 1, home := newHome y.members ms y.home }
      | none => { members := ms, wait := w, grace := gr, rebal := rb == 1, home := firstHome ms, live := firstHome ms }
    let t := regroup g { s with groups := tset s.groups g x }
    okWith (newMismatches g s t) []

def specGroupSet : OpSpec :=
  { code := 0x0303, body := bodyGroupSet,
    layout := { flds := [(0, 1), (2, 1), (4, 2), (8, 4), (12, 1)], fin := 16,
                list := some { off := 16, size := 2, cOff := 2, cW := 1 } } }

/-- GROUP_SET (R260, R266, R267). -/
def execGroupSet (c : Cmd) (s : State) : Host.Outcome State Fault Refusal := command specGroupSet c s

/-- The entries of GROUP_INDIR_SET: member indices. -/
def indirEntries (n : Nat) (c : Params) : Nat → Nat → List Nat → Chk (List Nat)
  | 0, _, l => pure l
  | k + 1, j, l => do
    let m ← idF c (1 + j) (4 + j) 1 none (· < n)
    indirEntries n c k (j + 1) (l ++ [m])

def bodyGroupIndirSet : Body := fun c _ s => do
  let g ← idF c 0 0 1 none fun v => (tget s.groups v).isSome
  match tget s.groups g with
  | some x =>
    let idx ← indirEntries x.members.length c 256 0 []
    let home := idx.map fun k => x.members[k]?.getD 0
    okWith (regroup g { s with groups := tset s.groups g { x with home := home } }) []
  | none => rejectAt stInvalidParam 0

def specGroupIndirSet : OpSpec :=
  { code := 0x0304, body := bodyGroupIndirSet,
    layout := { flds := (0, 1) :: (List.range 256).map fun j => (4 + j, 1), fin := 260 } }

/-- GROUP_INDIR_SET (R266, R267). -/
def execGroupIndirSet (c : Cmd) (s : State) : Host.Outcome State Fault Refusal := command specGroupIndirSet c s

/-- HOLD_GRACE_EXPIRY (R265): a member has been out of UP for HOLD_GRACE and is no longer live. -/
def execHoldGraceExpiry (port : Nat) (s : State) : Host.Outcome State Fault Refusal :=
  act s fun s =>
    match getPort s port, (groupOf s port).bind (tget s.groups) with
    | some q, some g =>
      match q.scfg.outSince with
      | some t =>
        if q.scfg.graceOut || !(q.st == .hold || q.st == .training) then s
        else
          let s := clockTo (t + 2000 * g.grace) s
          regroupPort port (setScfg port (fun c => { c with graceOut := true }) s)
      | none => s
    | _, _ => s

/-! ## Multicast, management tree -/

def bodyMcastSet : Body := fun c _ s => do
  let g ← idF c 0 0 2 none (· < 4096)
  let n ← idF c 1 2 2 none (· ≤ 512)
  let l ← portList (inUse s) c 2 4 n 0 []
  okWith { s with mcast := if l.isEmpty then tdel s.mcast g else tset s.mcast g l } []

def specMcastSet : OpSpec :=
  { code := 0x0305, body := bodyMcastSet,
    layout := { flds := [(0, 2), (2, 2)], fin := 4, list := some { off := 4, size := 2, cOff := 2, cW := 2 } } }

/-- MCAST_SET (R271). -/
def execMcastSet (c : Cmd) (s : State) : Host.Outcome State Fault Refusal := command specMcastSet c s

/-- The ports of MGT_TREE_SET; a port given twice counts once. -/
def treeList (s : State) (c : Params) : Nat → Nat → List Nat → Chk (List Nat)
  | 0, _, l => pure l
  | n + 1, k, l => do
    let p ← idF c (1 + k) (2 + 2 * k) 2 none (isType s .span)
    treeList s c n (k + 1) (if l.contains p then l else l ++ [p])

def bodyMgtTreeSet : Body := fun c _ s => do
  let n ← idF c 0 0 1 none (· ≤ 64)
  let l ← treeList s c n 0 []
  okWith { s with tree := l } []

def specMgtTreeSet : OpSpec :=
  { code := 0x0307, body := bodyMgtTreeSet,
    layout := { flds := [(0, 1)], fin := 2, list := some { off := 2, size := 2, cOff := 0, cW := 1 } } }

/-- MGT_TREE_SET (R95). -/
def execMgtTreeSet (c : Cmd) (s : State) : Host.Outcome State Fault Refusal := command specMgtTreeSet c s

/-! ## BUFFER_SET (R242, R243) -/

/-- What BUFFER_SET divides: the class minimums of a port, MC_RSV and POOL_RSV. -/
structure Division where
  mins : Cls4
  mc   : Nat
  pool : Nat
  deriving DecidableEq, Repr

/-- Cells a division takes beside what the hall's other ports hold. -/
def divTotal (others : Nat) (d : Division) : Nat := 2048 + others + csum d.mins + d.mc + d.pool

/-- One field lowered by the excess, not below its bound, with its clamp record. -/
def lowerBy (c : Params) (i lo x v : Nat) : Chk Nat :=
  if x = 0 then pure v else clamped c i v (max (min lo v) (v - x))

/-- The fields clamped further in offset order until the pool holds 0 or more (R242). -/
def shrinkDiv (c : Params) (span : Bool) (others : Nat) (d : Division) : Chk Division := do
  let lo := if span then 4 else 0
  let excess := fun (d : Division) => divTotal others d - 49152
  let a ← lowerBy c 1 lo (excess d) d.mins.req
  let d := { d with mins := { d.mins with req := a } }
  let a ← lowerBy c 2 lo (excess d) d.mins.rsp
  let d := { d with mins := { d.mins with rsp := a } }
  let a ← lowerBy c 3 lo (excess d) d.mins.wr
  let d := { d with mins := { d.mins with wr := a } }
  let a ← lowerBy c 4 lo (excess d) d.mins.mgt
  let d := { d with mins := { d.mins with mgt := a } }
  let a ← lowerBy c 6 256 (excess d) d.mc
  let d := { d with mc := a }
  let a ← lowerBy c 7 256 (excess d) d.pool
  pure { d with pool := a }

def bodyBufferSet : Body := fun c _ s => do
  let p ← portF s c 0 0
  let q ← thePort s p
  let h := getHall s (hallOf p)
  let sp := q.typ == .span
  let lo := if sp then 4 else 0
  let a ← rangeF c 1 2 2 q.mins.req lo (if sp then 4084 else 4096)
  let b ← rangeF c 2 4 2 q.mins.rsp lo ((if sp then 4088 else 4096) - a)
  let w ← rangeF c 3 6 2 q.mins.wr lo ((if sp then 4092 else 4096) - a - b)
  let m ← rangeF c 4 8 2 q.mins.mgt lo (if sp then 4096 - a - b - w else 0)
  let al ← rangeF c 5 10 1 h.alpha 0 7
  let mc ← rangeF c 6 12 2 h.mcRsv 256 8192
  let pl ← rangeF c 7 14 2 h.poolRsv 256 8192
  let others := hallMins s (hallOf p) - csum q.mins
  let least : Division := { mins := ⟨min lo a, min lo b, min lo w, min lo m⟩, mc := 256, pool := 256 }
  let fits := divTotal others least ≤ 49152
  let d : Division := { mins := ⟨a, b, w, m⟩, mc := mc, pool := pl }
  let d ← if fits then shrinkDiv c sp others d else pure d
  rejectIf (d.mins != q.mins && !(q.st == .disabled || q.st == .down)) stInvalidState
  rejectIf (portBusy s p) stBusy
  rejectIf (!fits) stNoResource
  let s := setPort p (fun q => { q with mins := d.mins }) (settleCross s)
  okWith (setHall (hallOf p) (fun x => { x with alpha := al, mcRsv := d.mc, poolRsv := d.pool }) s) []

def specBufferSet : OpSpec :=
  { code := 0x0306, scope := .bufferSet, body := bodyBufferSet,
    layout := { flds := [(0, 2), (2, 2), (4, 2), (6, 2), (8, 2), (10, 1), (12, 2), (14, 2)], fin := 16 } }

/-- BUFFER_SET (R242, R243). -/
def execBufferSet (c : Cmd) (s : State) : Host.Outcome State Fault Refusal := command specBufferSet c s

/-! ## Leaves (R255 to R257, R286, R287, R393) -/

/-- A fence of a flow is still pending on a leaf of its port. -/
def fencePending (s : State) (p src : Nat) (k : Cls) : Bool :=
  (portLeaves s p).any fun l => (leafQ s (hallOf p) l).any fun i => match i with
    | .fence a b _ _ => a == src && b == k
    | .desc _ => false

/-- The messages of a flow that have entered and are not yet queued at its port: held by a pause of an entry that names the
port, deferred, or behind a multicast copy or one themselves (R256). -/
def flowComing (s : State) (p src : Nat) (k : Cls) : List Nat :=
  let held := s.groups.flatMap fun g => g.2.paused.flatMap fun e => if g.2.live[e.1]? == some p then e.2.held else []
  let deferred := s.halls.flatMap fun h => h.2.meters.flatMap fun m => m.2.defer
  (s.cells.filter fun e => e.2.src == src && e.2.msg.cls == k && !e.2.leaving
    && (held.contains e.1 || e.2.wait.contains p || (e.2.cross.any fun c => c.2.contains p)
        || (deferred.contains e.1 && (egressPort s e.2.route == some p || e.2.targets.contains p)))).map (·.1)

/-- A flow moves to a leaf: its mapping, and a fence at the tail while messages of it that entered before are still to leave
through the old leaf (R256). -/
def moveFlow (p : Nat) (k : Cls) (leaf : Nat) (s : State) (src : Nat) : State :=
  let h := hallOf p
  let old := flowLeaf s src p k
  if old = leaf then s
  else
    let coming := (flowComing s p src k).filter fun m => match tget s.cells m with | some x => (tget x.leafOf p).isNone | none => false
    let mids := flowMids s h old src k ++ coming
    let s := setPort p (fun q => { q with assign := tset q.assign (4 * src + clsNum k) leaf }) s
    let s := coming.foldl (fun s m => { s with cells := tmod s.cells m fun x => { x with leafOf := tset x.leafOf p old } }) s
    if mids.isEmpty then s else setLeafQ h leaf (leafQ s h leaf ++ [.fence src k old mids]) s

/-- Every source of R252 that exists. -/
def allSources (s : State) : List Nat :=
  tkeys s.ports ++ (List.range 64).map (512 + ·) ++ (tkeys s.groups).map (576 + ·) ++ [640, 641, 642, 643]

def bodyLeafAssign : Body := fun c _ s => do
  let p ← portF s c 0 0
  let src ← idF c 1 2 2 none fun v => v == 0xFFFF || sourceExists s v
  let k ← idF c 2 4 1 none (· < 4)
  let leaf ← idF c 3 6 2 none (· < 4096)
  let bound := match leafCfg s (hallOf p) leaf with | some x => x.port == p % 64 | none => false
  rejectIfAt (!bound) stInvalidState 3
  rejectIfAt (decide (src < 512) && (groupOf s src).isSome) stInvalidState 1
  let srcs := if src = 0xFFFF then allSources s else [src]
  rejectIf (portBusy s p || srcs.any fun x => fencePending s p x (clsOf k)) stBusy
  okWith (srcs.foldl (moveFlow p (clsOf k) leaf) s) []

def specLeafAssign : OpSpec :=
  { code := 0x0308, scope := .port, body := bodyLeafAssign, layout := { flds := [(0, 2), (2, 2), (4, 1), (6, 2)], fin := 8 } }

/-- LEAF_ASSIGN (R255 to R257). -/
def execLeafAssign (c : Cmd) (s : State) : Host.Outcome State Fault Refusal := command specLeafAssign c s

/-- The bay a leaf's subscriber belongs to (R300, R392). -/
def leafBay (s : State) (h : Nat) (k : LeafCfg) : Option Nat :=
  if k.sub = 0 || !isType s .h (64 * h + k.port) then none else bayAt s (64 * h + k.port) (k.sub - 1)

/-- A binding would take more than a bay's target, or more than the hall's free leaves (R393). -/
def leafOver (before after : State) (h : Nat) (k : LeafCfg) : Bool :=
  match leafBay after h k with
  | some b =>
    (match tget after.bays b, tget before.bays b with
     | some y, some z => decide (leavesHeld before z < leavesHeld after y) && decide (y.tgt.leaves < leavesHeld after y)
     | _, _ => false)
  | none =>
    decide (leavesFree before h < leavesFree after h)
      && decide (3840 < committedBy after (fun y => hallOf y.hport == h) (·.leaves) + leavesFree after h)

/-- SC_LEAF_CFG_WRITE (R286, R287, R393): a refused write raises HALL_CORR cause 2; default leaves are RO. -/
def execScLeafCfgWrite (hall leaf value : Nat) (s : State) : Host.Outcome State Fault Refusal :=
  act s fun s =>
    if leaf < 256 || 4096 ≤ leaf || 8 ≤ hall || !mgrReach s then s
    else
      let k : LeafCfg := ⟨bits value 5 0, bits value 8 6, bits value 23 12⟩
      let p := 64 * hall + k.port
      let mapped := s.ports.any fun e => hallOf e.1 == hall && e.2.assign.any fun a => a.2 == leaf
      let named := match getPort s p with | some q => (tget q.subs k.sub).isSome | none => false
      let t := setHall hall (fun x => { x with
        leaves := if bit value 31 then tset x.leaves leaf k else tdel x.leaves leaf,
        leafOff := if bit value 31 then tdel x.leafOff leaf else tset x.leafOff leaf k }) s
      if !(leafQ s hall leaf).isEmpty || mapped || (bit value 31 && (!named || leafOver s t hall k)) then
        fire (srcHall hall 229) 2 0 noActor s
      else noticeHeld s t

/-! ## SUBSCRIBER_SET, SERVICE_SET, LENGTH_MODE_SET -/

def bodySubscriberSet : Body := fun c _ s => do
  let p ← portF s c 0 0
  let q ← thePort s p
  let n ← idF c 1 2 2 none (· < 4096)
  let rate ← rangeF c 2 4 4 (lineRate q) 1 (lineRate q)
  let burst ← rangeF c 3 8 4 65536 256 16777216
  rejectIf (portBusy s p) stBusy
  match tget q.subs n with
  | some u =>
    let v := { u with rate := rate }
    okWith (rerate p n (subRate s p n u) (subRate s p n v) burst v s) []
  | none => do
    rejectIf (decide (4096 ≤ subCount s (hallOf p))) stNoResource
    okWith (putSub p n { rate := rate, burst := burst, b := (burst * 2 ^ 24 : Nat), tLast := nsNow s } s) []

def specSubscriberSet : OpSpec :=
  { code := 0x0401, scope := .port, body := bodySubscriberSet, layout := { flds := [(0, 2), (2, 2), (4, 4), (8, 4)], fin := 12 } }

/-- SUBSCRIBER_SET (R295, R299). -/
def execSubscriberSet (c : Cmd) (s : State) : Host.Outcome State Fault Refusal := command specSubscriberSet c s

def bodyServiceSet : Body := fun c _ s => do
  let p ← portF s c 0 0
  let q ← thePort s p
  let w := fun k => q.sched.weights[k]?.getD 16
  let a ← rangeF c 1 2 1 (w 0) 1 255
  let b ← rangeF c 2 3 1 (w 1) 1 255
  let d ← rangeF c 3 4 1 (w 2) 1 255
  let e ← rangeF c 4 5 1 (w 3) 1 255
  let f ← rangeF c 5 6 1 (w 4) 1 255
  let g ← rangeF c 6 7 1 (w 5) 1 255
  rejectIf (portBusy s p) stBusy
  okWith (setSched p (fun x => { x with weights := [a, b, d, e, f, g] }) s) []

def specServiceSet : OpSpec :=
  { code := 0x0402, scope := .port, body := bodyServiceSet,
    layout := { flds := [(0, 2), (2, 1), (3, 1), (4, 1), (5, 1), (6, 1), (7, 1)], fin := 8 } }

/-- SERVICE_SET (R293). -/
def execServiceSet (c : Cmd) (s : State) : Host.Outcome State Fault Refusal := command specServiceSet c s

def bodyLengthModeSet : Body := fun c _ s => do
  let p ← portF s c 0 0
  let m ← elseF c 1 2 1 0 (· ≤ 1) 0
  let o ← anyF c 3 1 0
  rejectIf (portBusy s p) stBusy
  okWith (setSched p (fun x => { x with wire := m == 1, overhead := o }) s) []

def specLengthModeSet : OpSpec :=
  { code := 0x0403, scope := .port, body := bodyLengthModeSet, layout := { flds := [(0, 2), (2, 1), (3, 1)], fin := 4 } }

/-- LENGTH_MODE_SET (R303). -/
def execLengthModeSet (c : Cmd) (s : State) : Host.Outcome State Fault Refusal := command specLengthModeSet c s

/-! ## FLIGHT_LOAD (R304 to R306, R74) -/

/-- The entries of FLIGHT_LOAD: MASK and DURATION. -/
def flightEntries (c : Params) : Nat → Nat → List (Nat × Nat) → Chk (List (Nat × Nat))
  | 0, _, l => pure l
  | n + 1, k, l => do
    let m ← idF c (3 + 2 * k) (16 + 8 * k) 1 none fun _ => true
    let d ← rangeNoneF c (4 + 2 * k) (20 + 8 * k) 4 1 4294967295
    flightEntries c n (k + 1) (l ++ [(m, d)])

def bodyFlightLoad : Body := fun c _ s => do
  let p ← portF s c 0 0
  let n ← idF c 1 2 2 none fun v => decide (1 ≤ v) && decide (v ≤ 256)
  let t := fabricNs s + 10000
  let st ← elseF c 2 8 8 t (fun v => decide (t ≤ v)) t
  let es ← flightEntries c n 0 []
  rejectIf (s.ops.any fun o => o.kind == .flight p) stBusy
  pure (setSched p (fun d => { d with pendFlight := some { start := st, entries := es } }) s, .later (.flight p) [])

def specFlightLoad : OpSpec :=
  { code := 0x0404, scope := .port, body := bodyFlightLoad,
    layout := { flds := [(0, 2), (2, 2), (8, 8)], fin := 16, list := some { off := 16, size := 8, cOff := 2, cW := 2 } } }

/-- FLIGHT_LOAD (R305, R306). -/
def execFlightLoad (c : Cmd) (s : State) : Host.Outcome State Fault Refusal := command specFlightLoad c s

/-! ## METER_SET (R318, R324, R393) -/

/-- A new meter would take more than the bay's target, or more than the hall's free meters (R393). -/
def meterOver (s : State) (h sub : Nat) : Bool :=
  match (if sub = 0 then none else meterBay s h (sub - 1)) with
  | some b => (match tget s.bays b with | some y => decide (y.tgt.meters ≤ metersHeld s b y) | none => false)
  | none => decide (8192 ≤ committedBy s (fun y => hallOf y.hport == h) (·.meters) + metersOrphan s h)

def bodyMeterSet : Body := fun c _ s => do
  let p ← portF s c 0 0
  let q ← thePort s p
  let n ← idF c 1 2 2 none (· < 4096)
  let line := lineRate q
  let cir ← rangeF c 2 4 4 0 0 line
  let pir ← rangeF c 3 8 4 line cir line
  let cbs ← rangeF c 4 12 4 65536 256 16777216
  let pbs ← rangeF c 5 16 4 cbs cbs 16777216
  let ay ← elseF c 6 20 1 1 (· ≤ 3) 1
  let ar ← elseF c 7 21 1 2 (· ≤ 3) 2
  rejectIf (portBusy s p) stBusy
  let h := hallOf p
  match findMeter s p n with
  | some (k, x) =>
    let x := meterRefill (meterInForce s x) (nsNow s)
    let o : MeterWas := { cir := x.cir, pir := x.pir, cbs := x.cbs, pbs := x.pbs, actY := x.actY, actR := x.actR, tc := x.tc, tp := x.tp }
    okWith (setMeter h k (fun _ => { x with
      was := some (nsNow s, o), cir := cir, pir := pir, cbs := cbs, pbs := pbs, actY := ay, actR := ar,
      tc := min x.tc (cbs * 2 ^ 24), tp := min x.tp (pbs * 2 ^ 24) }) s) []
  | none =>
    match lowestFree (tkeys (getHall s h).meters) 8192 with
    | none => reject stNoResource
    | some k => do
      rejectIf (meterOver s h n) stNoResource
      let x : Meter := { port := p % 64, sub := n, cir := cir, pir := pir, cbs := cbs, pbs := pbs, actY := ay, actR := ar,
                         tc := cbs * 2 ^ 24, tp := pbs * 2 ^ 24, tLast := nsNow s }
      okWith (noticeHeld s (setHall h (fun y => { y with meters := tset y.meters k x }) s)) []

def specMeterSet : OpSpec :=
  { code := 0x0405, scope := .port, body := bodyMeterSet,
    layout := { flds := [(0, 2), (2, 2), (4, 4), (8, 4), (12, 4), (16, 4), (20, 1), (21, 1)], fin := 22 } }

/-- METER_SET (R318, R324, R393, R552). -/
def execMeterSet (c : Cmd) (s : State) : Host.Outcome State Fault Refusal := command specMeterSet c s

end Sys2Proof.Machine
end

