-- ==== Sys2Proof/Machine/Time.lean ====
section
/-! DEFINITION. Fabric time: roles, exchanges, step and slew, the PTM requester (07_scheduling R311 to R316;
05_standard_ports R194). -/

namespace Sys2Proof.Machine

open Sys2Proof

/-- A hop's own MGT message of KIND 3: the marks 0x51 TIME_REQ, 0x52 TIME_RSP, 0x4B fresh key exchange are the model's
(log 15). -/
def mgtMsg (mark : Nat) : Msg := { cls := .mgt, kind := 3, dlen := 16, body := [mark], service := 0 }

/-- A MGT message between the two ends of one span: it ends at this device, and its row tells what it does. -/
def hopLocal (m : Msg) : Bool :=
  m.cls == .mgt && m.kind == 3 && !m.mc
    && (match m.body with | b :: _ => b == 0x4E || b == 0x4B || b == 0x51 || b == 0x52 | [] => false)

/-- Validity follows the roles and the exchanges (R316); when it ends, each port holds its entry (R309). -/
def refreshValid (s : State) : State :=
  let v := grandmaster s || s.ft.exch
  let s := if s.ft.valid && !v then (tkeys s.ports).foldl (fun s p => holdMask p s) s else s
  setFt (fun f => { f with valid := v }) s

/-- The nearer bound of ASYM's range as the field's two bytes. -/
def asymApp (v : Nat) : Nat :=
  let x := signed 2 v
  unsigned 2 (if x < -5000 then -5000 else if x > 5000 then 5000 else x)

def bodyTimeConfig : Body := fun c _ s => do
  let p ← portF s c 0 0
  let q ← thePort s p
  let top := match q.typ with | .span => 2 | .h => 1 | .d => 0
  let r ← elseF c 1 2 1 0 (fun v => decide (v ≤ top)) 0
  let a ← cfgF c 2 4 2 0 asymApp
  rejectIf (r == 1 && s.ports.any fun e => e.1 != p && e.2.role == 1) stInvalidState
  rejectIf (portBusy s p) stBusy
  okWith (refreshValid (setPort p (fun q => { q with role := r, asym := signed 2 a }) s)) []

def specTimeConfig : OpSpec :=
  { code := 0x0406, body := bodyTimeConfig, layout := { flds := [(0, 2), (2, 1), (4, 2)], fin := 6 } }

/-- TIME_CONFIG (R312, R313, R316). -/
def execTimeConfig (c : Cmd) (s : State) : Host.Outcome State Fault Refusal := command specTimeConfig c s

/-- TIME_EXCHANGE_START (R314): the upstream end takes t1 and sends TIME_REQ. -/
def execTimeExchangeStart (port : Nat) (t1 : Int) (s : State) : Host.Outcome State Fault Refusal :=
  act s fun s =>
    match getPort s port with
    | some q =>
      if q.typ == .span && q.st == .up && q.role == 1 then
        coreSend port (mgtMsg 0x51) (setPort port (fun q => { q with t1 := some t1 }) s)
      else s
    | none => s

/-- TIME_REQ (R314): the downstream end returns t2 and t3 in TIME_RSP. -/
def execTimeReq (port : Nat) (t2 t3 : Int) (s : State) : Host.Outcome State Fault Refusal :=
  act s fun s =>
    match getPort s port with
    | some q =>
      if q.typ == .span && q.st == .up && q.role == 2 then coreSend port (mgtMsg 0x52) (emit (.time port t2 t3) s) else s
    | none => s

/-- Twice the offset of R315 in ps: times in 1/8 ns, ASYM in ps. -/
def theta2ps (t1 t2 t3 t4 asym : Int) : Int := 125 * ((t2 - t1) - (t4 - t3)) + 2 * asym

/-- The mean of the last values of the offset (R315). -/
def meanOf (l : List Int) : Int := if l.isEmpty then 0 else (l.foldl (· + ·) 0) / (l.length : Int)

/-- An offset takes effect: a step above 1,000 ns, a slew by the mean of the last 8 values otherwise (R315). -/
def applyTheta (p : Nat) (th2 : Int) (delay : Int) (s : State) : State :=
  let th := th2 / 250
  let s := setFt (fun f => { slewBy f (nsNow s) with theta := th, delay := delay, exch := true }) s
  let s := if th2.natAbs > 2000000 then
      fire (srcCentral 10) 1 p noActor
        (noteSet .stepped (setFt (fun f => { f with off := f.off + th, slew := 0, thetas := [], stepped := true }) s))
    else
      setFt (fun f =>
        let l := (th :: f.thetas).take 8
        { f with thetas := l, slew := meanOf l }) s
  refreshValid s

/-- TIME_RSP (R315): the upstream end completes its exchange. -/
def execTimeRsp (port : Nat) (t2 t3 t4 : Int) (s : State) : Host.Outcome State Fault Refusal :=
  act s fun s =>
    match getPort s port with
    | some q =>
      match q.t1 with
      | some t1 =>
        if q.typ == .span && q.role == 1 then
          applyTheta port (theta2ps t1 t2 t3 t4 q.asym) (((t4 - t1) - (t3 - t2)) / 2) (setPort port (fun q => { q with t1 := none }) s)
        else s
      | none => s
    | none => s

/-- PTM_EXCHANGE (R194, R315): an exchange of the PTM requester that the host has enabled; with ROLE 1 it sets the time. -/
def execPtmExchange (port hostNs : Nat) (t1 t2 t3 t4 : Int) (s : State) : Host.Outcome State Fault Refusal :=
  act s fun s =>
    match getPort s port with
    | some q =>
      if q.typ == .h && q.st == .up && q.std.ptm then
        let s := setFt (fun f => { f with ptm := hostNs % 2 ^ 64, ptmAt := fabricNs s }) s
        if q.role = 1 then applyTheta port (theta2ps t1 t2 t3 t4 q.asym) (((t4 - t1) - (t3 - t2)) / 2) s else s
      else s
    | none => s

end Sys2Proof.Machine
end

