-- ==== Sys2Proof/Machine/Span.lean ====
section
/-! DEFINITION. The span receiver and the Landing: the checks of a flit, acknowledgement, replay, credits, sequence,
delivery, the leak estimate, key changes (04_span_link R138 to R161, R184 to R190). -/

namespace Sys2Proof.Machine

open Sys2Proof

/-! ## Acknowledgement and replay (R156 to R161) -/

/-- The oldest `k` flits leave the Landing; a CTRL flit that waited takes their room (R152, R158, R185). -/
def freeLanding (p k : Nat) (s : State) : State :=
  match getPort s p with
  | some q =>
    let freed := q.span.landing.take k
    let s := setSpan p (fun x => { x with landing := x.landing.drop k, replayAt := s.dc, stallAt := s.dc }) s
    let s := setScfg p (fun c => { c with keys := { c.keys with
      nextSeq := match c.keys.nextSeq with
        | some (some n) => if freed.any fun f => f.seq == n then none else some (some n)
        | x => x } }) s
    match q.scfg.rs.due with
    | some (op, w, r) =>
      if q.st == .up then pushCtrl p op w r (setScfg p (fun c => { c with rs := { c.rs with due := none } }) s) else s
    | none => s
  | none => s

/-- U of R158. -/
def oldestSeq (x : Span) : Nat := match x.landing with | f :: _ => f.seq | [] => x.seq

/-- An acknowledgement, or a NAK, with ACK_SEQ `a` (R158, R160). One that frees a flit in the cycle in which REPLAY_TMR expires
leaves no replay (R159). -/
def judgeAck (p a : Nat) (nak : Bool) (s : State) : State :=
  let s := if ((getPort s p).bind (·.span.replayDue)).any (· < s.dc) then settleReplay p s else s
  match getPort s p with
  | some q =>
    let k := (a + 4096 - oldestSeq q.span) % 4096
    let valid := decide (k < q.span.landing.length) || k == 4095
    if !valid then bumpPort p oAckErr 1 s
    else
      let s := if k = 4095 then s else freeLanding p (k + 1) (setSpan p (fun x => { x with replayDue := none }) s)
      if nak && decide (q.span.replayEnd ≤ s.dc) then startReplay p s else s
  | none => s

/-- An acknowledgement leaves in the next flit; the coalescing count starts again (R156). -/
def sendAck (p : Nat) (nak : Bool) (s : State) : State :=
  idleSlot p (setSpan p (fun x => { x with ackCnt := 0, ackAt := none, ackDue := some (nak || x.ackDue == some true) }) s)

/-- A flit accepted or received as a duplicate counts toward coalescing (R155, R156). -/
def coalesce (p : Nat) (s : State) : State :=
  match getPort s p with
  | some q =>
    if q.span.ackCoal ≤ q.span.ackCnt + 1 then sendAck p false s
    else setSpan p (fun x => { x with ackCnt := x.ackCnt + 1, ackAt := some (x.ackAt.getD s.dc) }) s
  | none => s

/-- A NAK, one for each EXP until REPLAY_TMR has passed (R157). It implies ACK, so coalescing starts again (DEDUCED, log
30). -/
def sendNak (p : Nat) (s : State) : State :=
  match getPort s p with
  | some q =>
    if q.span.nakFor == some q.span.exp && decide (s.dc < q.span.nakAt + 2 * q.span.replayTmr) then s
    else sendAck p true (setSpan p (fun x => { x with nakFor := some x.exp, nakAt := s.dc }) s)
  | none => s

/-! ## Credits and the leak estimate (R147 to R150, R188 to R190) -/

/-- A field of a record is valid: R149 for a cumulative count, R188 for an increment. -/
def countValid (compat : Bool) (m u ret cons : Nat) : Bool :=
  let outstanding := (cons + m - ret) % m
  if compat then decide (u ≤ outstanding) else decide ((u + m - ret) % m ≤ outstanding)

/-- RET after a valid field. -/
def newRet (compat : Bool) (m u ret : Nat) : Nat := if compat then (ret + u) % m else u % m

/-- A credit return record of a class (R149, R188). -/
def takeRecord (p : Nat) (c : Cls) (uh ud : Nat) (s : State) : State :=
  match getPort s p with
  | some q =>
    let x := q.span
    let okH := countValid x.compat 4096 uh (cget x.retH c) (cget x.consH c)
    let okD := countValid x.compat 65536 ud (cget x.retD c) (cget x.consD c)
    let s := setSpan p (fun x => { x with
      retH := if okH then cset x.retH c (newRet x.compat 4096 uh (cget x.retH c)) else x.retH,
      retD := if okD then cset x.retD c (newRet x.compat 65536 ud (cget x.retD c)) else x.retD }) s
    let bad := b2n (!okH) + b2n (!okD)
    if bad = 0 then s else fireDegr p 5 (bumpPort p oCreditErr bad s)
  | none => s

/-- 64 times the sum of the increments of a class in the last 1,024 good flits: avg_inc with 16 fractional bits (R190). -/
def avgInc (incs : List (Option (Cls × Nat × Nat))) (c : Cls) : Nat × Nat :=
  incs.foldl (fun a i =>
    match i with
    | some (d, h, n) => if d == c then (a.1 + 64 * h, a.2 + 64 * n) else a
    | none => a) (0, 0)

/-- The usable window of some class and kind is below the threshold (R190). -/
def leakBelow (q : Port) : Bool :=
  allCls.any fun c =>
    decide (100 * 2 ^ 16 * cget q.span.advH c < q.scfg.threshold * 2 ^ 16 * cget q.span.advH c + 100 * cget q.scfg.estH c)
      || decide (100 * 2 ^ 16 * cget q.span.advD c < q.scfg.threshold * 2 ^ 16 * cget q.span.advD c + 100 * cget q.scfg.estD c)

/-- The check after each update of est: a retrain is forced, at most one in 1 ms for this reason (R190). -/
def leakCheck (p : Nat) (s : State) : State :=
  match getPort s p with
  | some q =>
    let late := match q.scfg.lastForce with | some t => decide (t + 2000000 ≤ s.dc) | none => true
    if q.st == .up && leakBelow q && late then
      forceRetrain p (setScfg p (fun c => { c with lastForce := some s.dc }) s)
    else s
  | none => s

/-- A received flit failed the FEC or the CRC (R190). -/
def leakFail (p : Nat) (s : State) : State :=
  match getPort s p with
  | some q =>
    if !q.span.compat then s
    else
      let add := fun (sel : Nat × Nat → Nat) (e : Cls4) =>
        allCls.foldl (fun e c => cset e c (cget e c + sel (avgInc q.scfg.incs c))) e
      leakCheck p (setScfg p (fun c => { c with estH := add (·.1) c.estH, estD := add (·.2) c.estD }) s)
  | none => s

/-- A flit that passed the CRC enters the last 1,024 of R190, with the increments it carried. -/
def leakGood (p : Nat) (h : BitVec 64) (s : State) : State :=
  setPort p (fun q =>
    if !q.span.compat then q
    else
      let i := if hCrValid h then some (hCrClass h, hCrHdr h, hCrData h) else none
      { q with scfg := { q.scfg with incs := (i :: q.scfg.incs).take 1024 } }) s

/-! ## The checks of R138 -/

/-- A span's receiver delivers flits: in UP, and in TRAINING once its lanes are aligned (R118). -/
def hears (s : State) (p : Nat) : Bool :=
  match getPort s p with
  | some q => q.typ == .span && (q.st == .up || (q.st == .training && (getLane s p).aligned && !q.span.resting))
  | none => false

/-- Steps 1 to 3: the flit passes, or is discarded and counted (R138). -/
def rxCheck (p : Nat) (rx : RxFlit) (s : State) : State × Bool :=
  match rx.fec with
  | .uncorrectable => (leakFail p (firePipe p 1 (bumpPort p oFecUncorr 1 s)), false)
  | .corrected n =>
    let s := if n = 0 then s else bumpPort p oFecCorr n s
    if !rx.crcOk then (leakFail p (firePipe p 2 (bumpPort p oCrcErr 1 s)), false)
    else
      let s := leakGood p rx.hdr s
      let s := if hAck rx.hdr || hNak rx.hdr then judgeAck p (hAckSeq rx.hdr) (hNak rx.hdr) s else s
      let s := if hCrValid rx.hdr then takeRecord p (hCrClass rx.hdr) (hCrHdr rx.hdr) (hCrData rx.hdr) s else s
      (s, true)

/-- A FLIT_TYPE of R134. -/
def typeKnown (t : Nat) : Bool := t == 0 || t == 1 || t == 2 || t == 8 || t == 9 || t == 10

/-- Is the type sent in this state of the receiver (R134)? A TRAIN flit during a resize is the partner's switch (R178). -/
def typeSent (q : Port) (t : Nat) : Bool :=
  t == 0 || (if t ≤ 2 then q.st == .up else q.st == .training) || (t == 8 && q.scfg.rs.agreed.isSome)

/-- A received flit of a type: the checks, then what the type does with its flit (R135, R138). A flit of another type than the
command names is no such event. -/
def receive (p : Nat) (rx : List (List Nat)) (type : Nat) (go : RxFlit → State → State) (s : State) : State :=
  let f := lineFlit s p rx
  let t := hType f.hdr
  if !hears s p || (f.crcOk && typeKnown t && t != type) then s
  else
    let (s, ok) := rxCheck p f (rxAdvance p rx s)
    if !ok then s
    else if !typeKnown t then fireDegr p 2 (bumpPort p oTypeErr 1 s)
    else
      match getPort s p with
      | some q => if typeSent q t then go f s else bumpPort p oTypeErr 1 s
      | none => s

/-! ## Sequence (R155) -/

/-- A flit is accepted: EXP advances, the receive key follows KEY_PHASE (R138 step 6, R184, R185). -/
def acceptFlit (p : Nat) (k : SpanKeys) (s : State) : State :=
  let s := setSpan p (fun x => { x with exp := (x.exp + 1) % 4096, nakFor := none }) s
  coalesce p (setScfg p (fun c => { c with keys := { k with rxN := k.rxN + 1 } }) s)

/-- Steps 4 to 6 for a DATA or CTRL flit: the body when it is accepted (R138, R155, R157). Its receipt ends the idle period of
R182. -/
def rxSequence (p : Nat) (rx : RxFlit) (s : State) : State × Option Bytes :=
  match getPort s p with
  | some q =>
    let s := setSpan p (fun x => { x with idleAt := s.dc }) s
    let d := (hSeq rx.hdr + 4096 - q.span.exp) % 4096
    if d = 0 then
      let k := rxKeysFor s q (hPhase rx.hdr)
      match openBody k rx with
      | some body => (acceptFlit p k s, some body)
      | none => (sendNak p (fireDegr p 8 (bumpPort p oTagErr 1 s)), none)
    else if d < 2048 then (sendNak p s, none)
    else (coalesce p (bumpPort p oRxDup 1 s), none)
  | none => (s, none)

/-! ## Delivery (R142, R143, R150) -/

/-- A message that would take more credits than the partner was given (R150), after it has been counted. -/
def overran (q : Port) (c : Cls) : Bool :=
  decide (advHdr q c < (cget q.span.rcvH c + 4096 - cget q.span.freedH c) % 4096)
    || decide (advData q c < (cget q.span.rcvD c + 65536 - cget q.span.freedD c) % 65536)

/-- The credits a received message stands for are counted. -/
def countReceived (p : Nat) (m : Msg) (s : State) : State :=
  setSpan p (fun x => { x with
    rcvH := cset x.rcvH m.cls ((cget x.rcvH m.cls + 1) % 4096),
    rcvD := cset x.rcvD m.cls ((cget x.rcvD m.cls + dataCredits m) % 65536) }) s

/-- The account of a message that came without credit: the pool reserve, then free cells of the pool (R150). -/
def overrunAcct (s : State) (p k : Nat) : Option Acct :=
  let h := hallOf p
  if rsvRoom s h (getHall s h).prUse (getHall s h).poolRsv k then some .poolRsv
  else if k ≤ poolFree s h then some (.pool (some p)) else none

/-- A complete message enters the ingress of a span's port. -/
def arriveSpan (p : Nat) (m : Msg) (ovr : Option Acct) (s : State) : State :=
  let m := { m with rport := some p }
  setPort p (fun q => { q with inQ := q.inQ ++ [{ msg := m, dest := .pid m.dpid, ovr := ovr }] }) s

/-- A complete message (R143, R150). A message between the two ends of the span goes no further; its row tells the rest. -/
def deliver (p : Nat) (m : Msg) (s : State) : State :=
  let s := countReceived p m s
  match getPort s p with
  | some q =>
    let wide := overran q m.cls
    let s := if wide then fire (srcProto p) 7 p noActor (bumpPort p oCreditOvr 1 s) else s
    if (4 < m.kind && m.kind != 15) || decide (4608 < m.dlen) then
      fireDegr p 3 (bumpPort p oMsgErr 1 (releaseCred p m s))
    else if hopLocal m then releaseCred p m s
    else if wide then
      (match overrunAcct s p (cellsOf m) with
       | some a => arriveSpan p m (some a) (chargeAcct (hallOf p) a (cellsOf m) s)
       | none => releaseCred p m s)
    else arriveSpan p m none s
  | none => s

/-- The slots of a DATA flit: a header begins a message of 1 + DLEN / 16 slots, rounded up, which may go on in later flits; a
header of KIND 15 ends the content of its flit (R142). -/
def rxSlots (p : Nat) : List Bytes → State → State
  | [], s => s
  | b :: r, s =>
    match getPort s p with
    | some q =>
      (match q.span.rxPart with
       | some (m, n) =>
         if n ≤ 1 then rxSlots p r (deliver p (msgOf (m ++ b)) (setSpan p (fun x => { x with rxPart := none }) s))
         else rxSlots p r (setSpan p (fun x => { x with rxPart := some (m ++ b, n - 1) }) s)
       | none =>
         let m := msgOf b
         if m.kind = 15 then s
         else if slotsOf m ≤ 1 then rxSlots p r (deliver p m s)
         else rxSlots p r (setSpan p (fun x => { x with rxPart := some (b, slotsOf m - 1) }) s))
    | none => s

/-- FLIT_RX_DATA (R138, R142, R155). -/
def execFlitRxData (port : Nat) (rx : List (List Nat)) (s : State) : Host.Outcome State Fault Refusal :=
  act s fun s =>
    receive port rx 1 (fun f s =>
      match rxSequence port f s with
      | (s, some body) => rxSlots port (Crypto.blocks 16 body) s
      | (s, none) => s) s

/-- FLIT_RX_IDLE (R135): only the header fields act. -/
def execFlitRxIdle (port : Nat) (rx : List (List Nat)) (s : State) : Host.Outcome State Fault Refusal :=
  act s fun s => receive port rx 0 (fun _ s => s) s

/-! ## Timers of the link -/

/-- ACK_TMR_EXPIRY (R156). -/
def execAckTmrExpiry (port : Nat) (s : State) : Host.Outcome State Fault Refusal :=
  act s fun s =>
    match getPort s port with
    | some q =>
      match q.span.ackAt with
      | some t => if q.typ == .span && q.st == .up then sendAck port false (clockTo (t + 2 * q.span.ackTmr) s) else s
      | none => s
    | none => s

/-- REPLAY_TMR_EXPIRY (R159): the replay of the Landing is due; it begins in the next slot (R160). -/
def execReplayTmrExpiry (port : Nat) (s : State) : Host.Outcome State Fault Refusal :=
  act s fun s =>
    match getPort s port with
    | some q =>
      if q.typ == .span && q.st == .up && !q.span.landing.isEmpty then
        let s := clockTo (q.span.replayAt + 2 * q.span.replayTmr) s
        setSpan port (fun x => { x with replayDue := some s.dc }) s
      else s
    | none => s

/-- REPLAY_STALL (R161). -/
def execReplayStall (port : Nat) (s : State) : Host.Outcome State Fault Refusal :=
  act s fun s =>
    match getPort s port with
    | some q =>
      if q.typ == .span && q.st == .up && !q.span.landing.isEmpty then
        forceRetrain port (fireDegr port 6 (clockTo (q.span.stallAt + 2000000) s))
      else s
    | none => s

/-- LEAK_IDLE_RESET (R190): every flit is acknowledged and no message of the class was sent for 8 us. -/
def execLeakIdleReset (port : Nat) (cls : Cls) (s : State) : Host.Outcome State Fault Refusal :=
  act s fun s =>
    match getPort s port with
    | some q =>
      if q.typ == .span && q.st == .up && q.span.compat && q.span.landing.isEmpty then
        let s := clockTo (cget q.span.sentAt cls + 16000) s
        let oH := (cget q.span.consH cls + 4096 - cget q.span.retH cls) % 4096
        let oD := (cget q.span.consD cls + 65536 - cget q.span.retD cls) % 65536
        leakCheck port (setScfg port (fun c => { c with
          estH := cset c.estH cls (oH * 2 ^ 16), estD := cset c.estD cls (oD * 2 ^ 16) }) s)
      else s
    | none => s

/-! ## Key changes (R185, R186) -/

/-- A message of KIND 3 and class MGT that announces key index `n` (R185). -/
def keyNextMsg (n : Nat) : Msg := { mgtMsg 0x4E with body := keyNextBody n }

/-- Random numbers of KEYX: the ephemeral private key and the nonce of a HELLO, which is formed with the span's SERIAL and its
proposal (R183, R429). -/
def newHello (p : Nat) (s : State) : State :=
  let d := freeVal s % (Crypto.pN - 1) + 1
  let s := drawn s
  let nonce := freeVal s % 2 ^ 256
  let s := drbgUse (drawn s)
  let xy := (Crypto.ptXY (Crypto.ptMul d Crypto.ptG)).getD (0, 0)
  setSpan p (fun x => { x with
    ephKey := d, sig := [], keyxPos := 0, keyxFrags := [], gotAll := (false, false),
    hello := Crypto.toBE 48 xy.1 ++ Crypto.toBE 48 xy.2 ++ Crypto.toBE 32 nonce ++ le 8 s.nv.serial ++ le 4 x.proposal }) s

/-- The partner's data of a KEYX message, whole once each of its fragments has arrived (R428). -/
def keyxData (frags : List (Nat × Nat × Nat × Bytes)) (msg : Nat) : Option Bytes :=
  match frags.find? fun f => f.1 == msg with
  | some f =>
    let parts := (List.range f.2.2.1).map fun i => (frags.find? fun g => g.1 == msg && g.2.1 == i).map (·.2.2.2)
    if parts.all (·.isSome) then some (parts.flatMap (·.getD [])) else none
  | none => none

/-- The two HELLO data, that of the lower SERIAL first. For equal serials, which the manual does not order, the first argument
comes first (DESIGN CHOICE, log 76). -/
def helloPair (own partner : Nat) (a b : Bytes) : Bytes := if partner < own then b ++ a else a ++ b

/-- The number in bytes `off` to `off + w - 1`, most significant first. -/
def beAt (b : Bytes) (off w : Nat) : Nat := Crypto.ofBE (slice b off w)

/-- The checks of R431 on the partner's whole messages. -/
def keyxVerified (s : State) (x : Span) (e : KeyxEnv) (hello cert sig : Bytes) : Bool :=
  let sn := x.partner.getD 0
  let signed := fun h => Crypto.ecdsaOk e.x e.y (h ++ cert) (beAt sig 0 48) (beAt sig 48 48)
  hello.length == 140 && sig.length == 96 && e.chainOk && e.serial == sn && unle (slice hello 128 8) == sn
    && Crypto.onCurve (beAt hello 0 48) (beAt hello 48 48) && Crypto.onCurve e.x e.y
    && (signed (helloPair s.nv.serial sn x.hello hello)
      || (s.nv.serial == sn && signed (hello ++ x.hello)))

/-- The PRK of an exchange (R432): free where the serials are equal, which gives the nonces no order. -/
def keyxPrk (s : State) (x : Span) (hello : Bytes) : Nat :=
  let sn := x.partner.getD 0
  if sn = s.nv.serial then freeVal s % 2 ^ 384
  else
    let z := ((Crypto.ptXY (Crypto.ptMul x.ephKey ⟨beAt hello 0 48, beAt hello 48 48, 1⟩)).getD (0, 0)).1
    Crypto.ofBE (Crypto.hkdfExtract (helloPair s.nv.serial sn (slice x.hello 96 32) (slice hello 96 32)) (Crypto.toBE 48 z))

/-- A KEYX payload joins what the span has of the exchange (R428 to R431): a fragment is kept, the own signature is formed once the
partner's HELLO is whole, and its three messages are verified once they are whole. The flag says that a check failed. -/
def keyxTake (p : Nat) (b : Bytes) (e : KeyxEnv) (s : State) : State × Bool :=
  match getPort s p with
  | some q =>
    if q.span.compat then
      (match e.kx1 with
       | some true => (setSpan p (fun x => { x with gotAll := (true, true) }) s, false)
       | some false => (s, true)
       | none => (s, false))
    else
      let f := fun i => unle (slice b i 1)
      let len := unle (slice b 4 2)
      let s := setSpan p (fun x => { x with gotAll := (x.gotAll.1, x.gotAll.2 || bit (f 3) 0) }) s
      if f 0 < 1 || 3 < f 0 || f 2 < 1 || 18 < f 2 || f 2 ≤ f 1 || len < 1 || 232 < len || q.span.gotAll.1 then (s, false)
      else
        let frags := if q.span.keyxFrags.any (fun g => g.1 == f 0 && g.2.1 == f 1) then q.span.keyxFrags
          else q.span.keyxFrags ++ [(f 0, f 1, f 2, slice b 8 len)]
        let s := setSpan p (fun x => { x with keyxFrags := frags }) s
        let s :=
          match q.span.sig, keyxData frags 1 with
          | [], some h =>
            let k := freeVal s % (Crypto.pN - 1) + 1
            drbgUse (drawn (setSpan p (fun x => { x with
              sig := Crypto.ecdsaSign s.nv.identKey k
                (helloPair s.nv.serial (x.partner.getD 0) x.hello h ++ s.nv.certChain.take 4096) }) s))
          | _, _ => s
        (match getPort s p, keyxData frags 1, keyxData frags 2, keyxData frags 3 with
         | some q, some h, some c, some g =>
           if keyxVerified s q.span e h c g then (setSpan p (fun x => { x with gotAll := (true, x.gotAll.2) }) s, false)
           else (s, true)
         | _, _, _, _ => (s, false))
  | none => (s, false)

/-- The PRK that a finished exchange gives: KX1 has a derivation of its own, which the manual does not give, and is free (R432,
R433). -/
def exchangePrk (s : State) (q : Port) : Nat :=
  if q.span.compat then freeVal s % 2 ^ 384 else keyxPrk s q.span ((keyxData q.span.keyxFrags 1).getD [])

/-- The body of an MGT message that carries a KEYX payload (11_security, before R428). -/
def keyxMsg (b : Bytes) : Msg := { mgtMsg 0x4B with body := [0x4B, 0, 0, 0, 0, 0, 0, 0] ++ b, dlen := 248 }

/-- The own messages of a fresh exchange go out as MGT messages, those of the cycle of R430 that `f` keeps. -/
def sendExchange (p : Nat) (f : Nat → Bool) (s : State) : State :=
  match getPort s p with
  | some q =>
    if q.span.compat then emit (.kx1 p) s
    else
      ((keyxCycle s q.span).filter fun m => f m.1).foldl (fun s m =>
        coreSend p (keyxMsg (keyxBytes m.1 m.2.1 m.2.2.1 q.span.gotAll.1 m.2.2.2)) s) s
  | none => s

/-- A fresh exchange starts, or is joined (R186). -/
def startExchange (p : Nat) (s : State) : State :=
  sendExchange p (fun _ => true) (newHello p (setScfg p (fun c => { c with keys := { c.keys with fresh := true } }) s))

/-- KEY_NEXT is queued toward the partner (R185). -/
def sendKeyNext (p n : Nat) (s : State) : State :=
  coreSend p (keyNextMsg n) (setScfg p (fun c => { c with keys := { c.keys with nextSeq := some none } }) s)

/-- A key change starts: the next index, or a fresh exchange when the index would pass 65,535 (R185, R186). -/
def startRekey (p : Nat) (s : State) : State :=
  match getPort s p with
  | some q => if 65535 ≤ q.scfg.keys.txIdx then startExchange p s else sendKeyNext p (q.scfg.keys.txIdx + 1) s
  | none => s

/-- A key change is under way (R185, R96). -/
def rekeying (q : Port) : Bool := q.scfg.keys.nextSeq.isSome || q.scfg.keys.fresh

def bodySpanRekey : Body := fun c _ s => do
  let p ← typedPortF s .span c 0 0
  let q ← thePort s p
  rejectIf (q.span.compat && s.sec.lock.getLsbD 0) stNotApproved
  rejectIf (q.st != .up) stInvalidState
  rejectIf (rekeying q || portBusy s p) stBusy
  pure (startRekey p s, .later (.rekey p) [])

def specSpanRekey : OpSpec := { code := 0x0707, priv := 1, body := bodySpanRekey, layout := { flds := [(0, 2)], fin := 2 } }

/-- SPAN_REKEY (R96, R185). -/
def execSpanRekey (c : Cmd) (s : State) : Host.Outcome State Fault Refusal := command specSpanRekey c s

/-- KEY_LIMIT_REACHED (R185): N has reached 2^31. -/
def execKeyLimitReached (port : Nat) (s : State) : Host.Outcome State Fault Refusal :=
  act s fun s =>
    match getPort s port with
    | some q =>
      if q.typ == .span && q.st == .up && decide (2 ^ 31 ≤ q.scfg.keys.txN) && !rekeying q then startRekey port s else s
    | none => s

/-- KEY_INDEX_EXHAUSTED (R186): a change is due and the index would pass 65,535. -/
def execKeyIndexExhausted (port : Nat) (s : State) : Host.Outcome State Fault Refusal :=
  act s fun s =>
    match getPort s port with
    | some q =>
      if q.typ == .span && q.st == .up && decide (65535 ≤ q.scfg.keys.txIdx) && decide (2 ^ 31 ≤ q.scfg.keys.txN)
          && !rekeying q then startExchange port s else s
    | none => s

/-- KEY_NEXT (R185): the partner announces its next key index. -/
def execKeyNext (port index : Nat) (s : State) : Host.Outcome State Fault Refusal :=
  act s fun s =>
    if isType s .span port && portSt s port == some .up then
      setScfg port (fun c => { c with keys := { c.keys with rxNext := some (index % 65536) } }) s
    else s

/-- KEYX_MGT_MESSAGE (R186): a KEYX payload of a fresh exchange; the own signature and then the sign that all is received follow
as they can be sent, and when both ends have all messages the new keys start at index 0 with a KEY_NEXT (DEDUCED, log 31). -/
def execKeyxMgtMessage (port : Nat) (payload : Bytes) (env : KeyxEnv) (s : State) : Host.Outcome State Fault Refusal :=
  act s fun s =>
    match getPort s port with
    | some q =>
      if q.typ != .span || q.st != .up then s
      else
        let s := if q.scfg.keys.fresh then s else startExchange port s
        let had := (getPort s port).map fun q => (q.span.sig.isEmpty, q.span.gotAll.1)
        let (s, bad) := keyxTake port payload env s
        if bad then fireDegr port 13 (setScfg port (fun c => { c with keys := { c.keys with fresh := false } }) s)
        else
          match getPort s port with
          | some q =>
            let s := if had.any (·.1) && !q.span.sig.isEmpty then sendExchange port (· == 3) s else s
            let s := if !had.any (·.2) && q.span.gotAll.1 then sendExchange port (· == 1) s else s
            if q.span.gotAll.1 && q.span.gotAll.2 then
              sendKeyNext port 0 (drawn (setScfg port (fun c => { c with keys := { c.keys with
                fresh := false, newPrk := some (exchangePrk s q) } }) s))
            else s
          | none => s
    | none => s

end Sys2Proof.Machine
end

