-- ==== Sys2Proof/Machine/Train.lean ====
section
/-! DEFINITION. Span training, UP, resizes and the span's commands (04_span_link R162 to R182, R188, R189; 03_lanes R110,
R111; 11_security R428 to R433; 02 R82, R156, R176). -/

namespace Sys2Proof.Machine

open Sys2Proof

/-- A phase of training begins (R162). -/
def enterPhase (p : Nat) (ph : Phase) (s : State) : State := setSpan p (fun x => { x with phase := ph, since := s.dc }) s

/-- An attempt fails: a fresh one is counted and rests 1 ms, a retained one goes to HOLD (R166). -/
def failAttempt (p : Nat) (s : State) : State :=
  match getPort s p with
  | some q =>
    if q.span.retained then enterHold p s
    else
      let s := setSpan p (fun x => { x with phase := .failed, since := s.dc, resting := true }) s
      bumpPort p oSpTrainFail 1 (setLanes p (fun l => { l with aligned := false }) s)
  | none => s

/-- The neighbour's FDID from TRAIN flits; the span group follows (R260, R267). -/
def noteFdid (p f : Nat) (s : State) : State :=
  match getPort s p with
  | some q =>
    if q.span.nbr == some f then s
    else
      let t := setSpan p (fun x => { x with nbr := some f }) s
      (match groupOf s p with
       | some g => regroup g (newMismatches g s t)
       | none => t)
  | none => s

/-- A request of R110 on one coefficient pair: the pair after it and the limit flag. -/
def applyEq (cm1 cp1 : Int) (req : Nat) : (Int × Int) × Bool :=
  let w : Int × Int :=
    if 1 ≤ req ∧ req ≤ 8 then preset (req - 1)
    else if req = 9 then (cm1 + 1, cp1) else if req = 10 then (cm1 - 1, cp1)
    else if req = 11 then (cm1, cp1 + 1) else if req = 12 then (cm1, cp1 - 1) else (cm1, cp1)
  if coefOk w.1 w.2 then (w, false) else ((cm1, cp1), true)

/-- The partner's new requests are applied; the next TRAIN flit answers them (R110, R164). -/
def takeRequests (p : Nat) : Nat → List TrainLane → State → State
  | _, [], s => s
  | l, e :: r, s =>
    let x := getLane s (p + l)
    let s :=
      if e.eqReq = 0 || 12 < e.eqReq || e.reqTag % 256 = x.ansTag then s
      else
        let (c, lim) := applyEq x.cm1 x.cp1 e.eqReq
        setLane (p + l) (fun y => { y with cm1 := c.1, cp1 := c.2, ansTag := e.reqTag % 256, limit := lim }) s
    takeRequests p (l + 1) r s

/-- A receiver lane's own requests in EQ (R110): an answer to the one outstanding is taken, then what the lane now asks goes out
under the next tag. -/
def askLane (l : Lane) (e : TrainLane) (ask : Nat) : Lane :=
  let l := if l.eqOut && e.ansTag = l.eqTag then { l with eqOut := false } else l
  if !l.eqOut && 1 ≤ ask && ask ≤ 12 then { l with eqOut := true, eqReq := ask, eqTag := (l.eqTag + 1) % 256 } else l

/-- The own requests of a span's receivers (R110). -/
def askLanes (p w : Nat) (t : Train) (ask : List Nat) (s : State) : State :=
  (List.range w).foldl (fun s k => setLane (p + k) (fun l => askLane l (t.lanes.getD k {}) (ask.getD k 0)) s) s

/-- Every receiver lane is satisfied: no request is outstanding (R162). -/
def eqSettled (s : State) (p w : Nat) : Bool := (List.range w).all fun k => !(getLane s (p + k)).eqOut

/-- The fields of a TRAIN flit that PARAM compares (R162). -/
def paramFields (t : Train) : Train := { t with phase := 0, lanes := [] }

/-- KEYX begins; it fails at once where KX1 is refused (R162, R433). -/
def enterKeyx (p : Nat) (s : State) : State :=
  match getPort s p with
  | some q =>
    let s := enterPhase p .keyx s
    if q.span.compat && s.sec.lock.getLsbD 0 then failAttempt p s
    else sendKeyx p (newHello p s)
  | none => s

/-- INIT begins (R162, R168). -/
def enterInit (p : Nat) (s : State) : State := sendInit p (enterPhase p .init s)

/-- EQ has ended at both ends: INIT in retained training, KEYX in fresh (R162). -/
def afterEq (p : Nat) (s : State) : State :=
  match getPort s p with
  | some q =>
    if q.span.eqDone.1 && q.span.eqDone.2 then (if q.span.retained then enterInit p s else enterKeyx p s) else s
  | none => s

/-- The lanes of a span at a width and rate code: those that the width leaves out go to electrical idle and keep their coefficients
(R181). -/
def rateLanes (p w r : Nat) (s : State) : State :=
  match getPort s p with
  | some q => (List.range q.width).foldl (fun s k => setLane (p + k) (fun l => { l with rate := if k < w then 7 + r else 15 }) s) s
  | none => s

/-- PARAM agrees, or the attempt fails (R165, R166). Two ends of one SERIAL have no rule for the incarnation: it is free. -/
def agree (p : Nat) (t : Train) (s : State) : State :=
  match getPort s p with
  | some q =>
    let x := q.span
    if x.retained != t.retained then
      failAttempt p (if x.retained then fireDegr p 7 s else s)
    else if x.retained then
      if x.incarn == some t.incarn && x.partner == some t.serial && t.width = x.tgt.1 && t.rate = x.tgt.2 then
        sendTrain p (enterEq s)
      else failAttempt p s
    else
      let w := min q.width t.maxWidth
      let r := max (ownRate x.compat) t.maxRate
      let inc := if s.nv.serial < t.serial then x.proposal else if t.serial < s.nv.serial then t.incarn else freeVal s % 2 ^ 32
      let s := if s.nv.serial = t.serial then drawn s else s
      let s := setSpan p (fun x => { x with
        incarn := some inc, partner := some t.serial, tgt := (w, r), phase := .rate }) s
      let s := setPort p (fun q => { q with widthNow := w, rate := 7 + r }) s
      sendPhase1 p (rateLanes p w r (setLanes p unalign s))
  | none => s
where
  enterEq (s : State) : State := setSpan p (fun x => { x with phase := .eq }) s

/-- A TRAIN flit follows the one received, while the span is in a phase that sends them. -/
def answerTrain (p : Nat) (s : State) : State :=
  match getPort s p with
  | some q =>
    if q.st == .training && (q.span.phase == .align || q.span.phase == .param || q.span.phase == .eq) then sendTrain p s else s
  | none => s

/-- A TRAIN flit in training, with what the own receivers ask after it (R110, R162, R165, R167). -/
def takeTrain (p : Nat) (t : Train) (ask : List Nat) (s : State) : State :=
  let s := noteFdid p t.fdid s
  let s := setSpan p (fun x => { x with compat := t.m1280 }) s
  match getPort s p with
  | some q =>
    let x := q.span
    if x.retained && !t.retained && x.partner == some t.serial then
      if q.scfg.amber = 1 then enterAmber p (srcLink p) 5 (fire (srcLink p) 5 p noActor s)
      else failAttempt p (fireDegr p 7 s)
    else
      let s := takeRequests p 0 (t.lanes.take q.widthNow) s
      match x.phase with
      | .align =>
        answerTrain p (if 2 ≤ t.phase then setSpan p (fun x => { x with phase := .param, paramRx := some (paramFields t) }) s else s)
      | .param =>
        if t.phase < 2 then answerTrain p s
        else if x.paramRx == some (paramFields t) then agree p t (setSpan p (fun x => { x with paramOk := true }) s)
        else answerTrain p (setSpan p (fun x => { x with paramRx := some (paramFields t) }) s)
      | .eq =>
        if t.phase < 3 then answerTrain p s
        else
          let s := askLanes p q.widthNow t ask s
          let own := x.eqDone.1 || eqSettled s p q.widthNow
          let s := setSpan p (fun x => { x with eqDone := (own, x.eqDone.2 || t.phase == 4) }) s
          afterEq p (answerTrain p s)
      | _ => s
  | none => s

/-- The switch to retained training at a width and a rate (R178, R181). -/
def switchResize (p w r : Nat) (s : State) : State :=
  match getPort s p with
  | some q =>
    let s := setScfg p (fun c => { c with rs := { c.rs with before := some (q.widthNow, q.rate - 7) } }) s
    let s := setPort p (fun q => { q with widthNow := w, rate := 7 + r }) s
    retainedTraining p (rateLanes p w r s)
  | none => s

/-- FLIT_RX_TRAIN (R162, R178): the partner's switch in UP once the exchange is complete, a step of training otherwise. -/
def execFlitRxTrain (port : Nat) (rx : List (List Nat)) (ask : List Nat) (s : State) : Host.Outcome State Fault Refusal :=
  act s fun s =>
    receive port rx 8 (fun f s =>
      match getPort s port with
      | some q =>
        if q.st == .up then
          match q.scfg.rs.agreed with
          | some (w, r) => switchResize port w r s
          | none => s
        else takeTrain port (trainOf f.payload) ask s
      | none => s) s

/-! ## KEYX and INIT -/

/-- A number of KEYX flits. -/
def sendKeyxs (p : Nat) : Nat → State → State
  | 0, s => s
  | n + 1, s => sendKeyxs p n (sendKeyx p s)

/-- Both ends hold every message: the keys of index 0 are in force, 32 more flits, then INIT (R162, R430, R432). -/
def keyxDone (p : Nat) (s : State) : State :=
  match getPort s p with
  | some q =>
    let prk := exchangePrk s q
    let keys := loadRx s q.span 0 (loadTx s q.span 0 { have_ := true, txPrk := prk, rxPrk := prk })
    enterInit p (sendKeyxs p 32 (drawn (setScfg p (fun c => { c with keys := keys }) s)))
  | none => s

/-- A KEYX flit (R430, R431). One that arrives in EQ tells that the partner has ended EQ. -/
def takeKeyx (p : Nat) (b : Bytes) (e : KeyxEnv) (s : State) : State :=
  let s := match getPort s p with
    | some q =>
      if q.span.phase == .eq && !q.span.retained && q.span.eqDone.1 then
        afterEq p (setSpan p (fun x => { x with eqDone := (true, true) }) s)
      else s
    | none => s
  match getPort s p with
  | some q =>
    match q.span.phase with
    | .keyx =>
      let (s, bad) := keyxTake p b e s
      (match getPort s p with
       | some q =>
         if bad then failAttempt p (fireDegr p 13 s)
         else if q.span.gotAll.1 && q.span.gotAll.2 then keyxDone p s else sendKeyx p s
       | none => s)
    | .init => if bit (unle (slice b 3 1)) 0 then s else sendKeyx p s
    | _ => s
  | none => s

/-- FLIT_RX_KEYX (R430). -/
def execFlitRxKeyx (port : Nat) (rx : List (List Nat)) (env : KeyxEnv) (s : State) : Host.Outcome State Fault Refusal :=
  act s fun s => receive port rx 9 (fun f s => takeKeyx port f.payload env s) s

/-- The credits of the messages that start in the Landing, of one class (R189). -/
def landingCred (l : List LFlit) (c : Cls) : Nat × Nat :=
  l.foldl (fun a f =>
    match f.seg with
    | some g => if g.first && g.msg.cls == c then (a.1 + 1, a.2 + dataCredits g.msg) else a
    | none => a) (0, 0)

/-- The credit counts after retained training in compatibility mode (R189). -/
def compatCredits (init : InitP) (x : Span) : Span :=
  let put := fun (sel : Nat × Nat → Nat) => allCls.foldl (fun e c => cset e c (sel (landingCred x.landing c))) ({} : Cls4)
  { x with advH := init.advH, advD := init.advD, retH := {}, retD := {}, consH := put (·.1), consD := put (·.2) }

/-- An advertisement of fresh training is in range (R146). -/
def advOk (i : InitP) : Bool :=
  allCls.all fun c => decide (1 ≤ cget i.advH c) && decide (cget i.advH c ≤ 4095) && decide (cget i.advD c ≤ 65535)

/-- What a resize leaves when the span is UP again: its command replies with width and rate in force, a command that waited
for an autonomous one starts (R82, R178 to R182). -/
def endResize (p : Nat) (s : State) : State :=
  match getPort s p with
  | some q =>
    let rs := q.scfg.rs
    let running := rs.req.isSome || rs.agreed.isSome || rs.before.isSome || (findOp s (.spanResize p)).isSome
    if !running then s
    else
      let mine := (findOp s (.spanResize p)).isSome && rs.waiting.isNone
      let s := setSpan p (fun x => { x with homeW := if mine then q.widthNow else x.homeW }) s
      let half := !mine && rs.auto && q.scfg.idle != 0 && decide (q.widthNow < homeWidth q)
      let s := setScfg p (fun c => { c with rs := { half := half } }) s
      match rs.waiting with
      | some (w, r) => requestResize p w r false (setScfg p (fun c => { c with rs := {} }) s)
      | none => wakeRest p (if mine then endOp (.spanResize p) 0 [q.widthNow, q.rate - 7] s else s)
  | none => s

/-- The span enters UP (R169, R189). -/
def spanUp (p : Nat) (i : InitP) (s : State) : State :=
  match getPort s p with
  | some q =>
    let x := q.span
    let s :=
      if x.retained then
        let s := judgeAck p (i.lastAcc % 4096) false s
        if x.compat then
          setScfg p (fun c => { c with estH := {}, estD := {} }) (setSpan p (compatCredits i) s)
        else s
      else setSpan p (fun x => { x with advH := i.advH, advD := i.advD }) s
    let s := setSpan p (fun x => { x with
      retained := false, resting := false, replayAt := s.dc, stallAt := s.dc, idleAt := s.dc, replayEnd := s.dc }) s
    let s := portTo p .up s
    endResize p (startReplay p s)
  | none => s

/-- An INIT flit (R146, R168, R169). One that arrives in EQ of retained training, or in KEYX once every message is here,
tells that the partner has ended that phase. One of another incarnation or kind of training, on which the manual is silent, is
passed over (DESIGN CHOICE, log 45). -/
def takeInit (p : Nat) (i : InitP) (s : State) : State :=
  let s := match getPort s p with
    | some q =>
      if q.span.phase == .eq && q.span.retained && q.span.eqDone.1 then
        afterEq p (setSpan p (fun x => { x with eqDone := (true, true) }) s)
      else if q.span.phase == .keyx && q.span.gotAll.1 then keyxDone p (setSpan p (fun x => { x with gotAll := (true, true) }) s)
      else s
    | none => s
  match getPort s p with
  | some q =>
    if q.span.phase != .init || i.retained != q.span.retained || q.span.incarn != some i.incarn then s
    else if !q.span.retained && !advOk i then failAttempt p s
    else
      let s := sendInit p (setSpan p (fun x => { x with initSeen := true }) s)
      if i.seen then spanUp p i s else s
  | none => s

/-- FLIT_RX_INIT (R168, R169). -/
def execFlitRxInit (port : Nat) (rx : List (List Nat)) (s : State) : Host.Outcome State Fault Refusal :=
  act s fun s => receive port rx 10 (fun f s => takeInit port (initOf f.payload) s) s

/-! ## Bounds of the phases (R111, R162, R166) -/

/-- A span in training, not resting, in a phase: its attempt fails `d` dc after the time kept. -/
def phaseBound (p d : Nat) (f : Phase → Bool) (s : State) : State :=
  match getPort s p with
  | some q =>
    if q.typ == .span && q.st == .training && !q.span.resting && f q.span.phase then
      failAttempt p (clockTo (q.span.since + d) s)
    else s
  | none => s

/-- EQ_TIMEOUT (R111): 20 ms from the start of training to the end of EQ. -/
def execEqTimeout (port : Nat) (s : State) : Host.Outcome State Fault Refusal :=
  act s (phaseBound port 40000000 fun f => f == .align || f == .param || f == .rate || f == .eq)

/-- KEYX_TIMEOUT (R162): 50 ms. -/
def execKeyxTimeout (port : Nat) (s : State) : Host.Outcome State Fault Refusal :=
  act s (phaseBound port 100000000 (· == .keyx))

/-- INIT_TIMEOUT (R162): 100 us. -/
def execInitTimeout (port : Nat) (s : State) : Host.Outcome State Fault Refusal :=
  act s (phaseBound port 200000 (· == .init))

/-- FRESH_TRAINING_RETRY (R166): 1 ms after a failed fresh attempt. -/
def execFreshTrainingRetry (port : Nat) (s : State) : Host.Outcome State Fault Refusal :=
  act s fun s =>
    match getPort s port with
    | some q =>
      if q.typ == .span && q.st == .training && q.span.resting then
        freshAttempt port (clockTo (q.span.since + 2000000) s)
      else s
    | none => s

/-! ## Resizes (R177 to R182) -/

/-- The end leads crossed requests (R179). Where FDID and SERIAL are equal, as between two ports of one device, the manual names no
leader: neither leads and both answer (DESIGN CHOICE, log 77). -/
def leads (s : State) (x : Span) : Bool :=
  let f := x.nbr.getD 256
  decide (s.boot.fdid < f) || (s.boot.fdid == f && decide (s.nv.serial < x.partner.getD 0))

/-- An end answers a RESIZE_REQ (R177, R178, R188). A request at the rate in force that halves the width, or ends a half width,
counts as autonomous, since nothing else in it tells (R180, R182; DEDUCED, log 78). -/
def answerResize (p : Nat) (b : ResizeBody) (s : State) : State :=
  match getPort s p with
  | some q =>
    let w := min b.width q.width
    let r := max b.rate (ownRate q.span.compat)
    let auto := r == q.rate - 7 && (2 * w == q.widthNow || w == 2 * q.widthNow) && (findOp s (.spanResize p)).isNone
    let s := setScfg p (fun c => { c with rs := { c.rs with
      req := none, agreed := some (w, r), auto := c.rs.auto || auto } }) s
    pushCtrl p 2 w r s
  | none => s

/-- A CTRL flit whose SEQ and tag pass, and whose OP the command names, acts on the resize (R177). -/
def ctrlFlit (p op : Nat) (rx : List (List Nat)) (go : ResizeBody → State → State) (s : State) : State :=
  receive p rx 2 (fun f s =>
    match rxSequence p f s with
    | (s, some body) => if (ctrlOf body).op = op then go (ctrlOf body) s else s
    | (s, none) => s) s

/-- RESIZE_REQ (R178, R179). -/
def execResizeReq (port : Nat) (rx : List (List Nat)) (s : State) : Host.Outcome State Fault Refusal :=
  act s fun s =>
    ctrlFlit port 1 rx (fun body s =>
      match getPort s port with
      | some q =>
        if q.scfg.rs.req.isSome && q.scfg.rs.agreed.isNone && leads s q.span then s else answerResize port body s
      | none => s) s

/-- RESIZE_ACK (R178): the exchange is complete at the requester. -/
def execResizeAck (port : Nat) (rx : List (List Nat)) (s : State) : Host.Outcome State Fault Refusal :=
  act s fun s =>
    ctrlFlit port 2 rx (fun body s =>
      setScfg port (fun c =>
        if c.rs.req.isSome && c.rs.agreed.isNone then
          { c with rs := { c.rs with agreed := some (body.width, body.rate) } }
        else c) s) s

/-- RESIZE_SWITCH (R178): the exchange is complete and the Landing is empty. -/
def execResizeSwitch (port : Nat) (s : State) : Host.Outcome State Fault Refusal :=
  act s fun s =>
    match getPort s port with
    | some q =>
      match q.scfg.rs.agreed with
      | some (w, r) =>
        if q.typ == .span && q.st == .up && q.span.landing.isEmpty && q.scfg.rs.due.isNone then switchResize port w r s else s
      | none => s
    | none => s

/-- IDLE_HALF_WIDTH (R182): the idle period has passed without a DATA or CTRL flit. -/
def execIdleHalfWidth (port : Nat) (s : State) : Host.Outcome State Fault Refusal :=
  act s fun s =>
    match getPort s port with
    | some q =>
      let h := homeWidth q / 2
      if q.typ == .span && q.st == .up && q.scfg.idle != 0 && !q.span.compat && q.scfg.rs.req.isNone
          && q.scfg.rs.agreed.isNone && decide (4 ≤ h) && decide (h < q.widthNow) then
        requestResize port h (q.rate - 7) true (clockTo (q.span.idleAt + 2000 * q.scfg.idle) s)
      else s
    | none => s

/-- The widths a span may be given: 4, 8, 16, not above the configured width. -/
def widthsOf (q : Port) : List Nat := [4, 8, 16].filter fun w => decide (w ≤ q.width)

/-- The nearest permitted width, the lower of two as near (DESIGN CHOICE, log 32). -/
def nearWidth (q : Port) (v : Nat) : Nat :=
  (leastBy (fun w => if w ≤ v then v - w else w - v) (widthsOf q)).getD 4

/-- An autonomous resize of the span runs (R180). -/
def autoRuns (q : Port) : Bool := q.scfg.rs.auto && (q.scfg.rs.req.isSome || q.scfg.rs.agreed.isSome)

def bodySpanResize : Body := fun c _ s => do
  let p ← typedPortF s .span c 0 0
  let q ← thePort s p
  let w ← cfgF c 1 2 1 q.width fun v => if (widthsOf q).contains v then v else nearWidth q v
  let r ← elseF c 2 3 1 0 (· ≤ 2) 0
  let auto := autoRuns q
  rejectIf (q.st != .up && !(auto && q.st == .training && q.span.retained)) stInvalidState
  rejectIf (portBusy s p || (!auto && q.scfg.rs.agreed.isSome)) stBusy
  let s := if auto then setScfg p (fun c => { c with rs := { c.rs with waiting := some (w, r) } }) s
    else requestResize p w r false s
  pure (s, .later (.spanResize p) [w, r])

def specSpanResize : OpSpec :=
  { code := 0x0207, body := bodySpanResize, layout := { flds := [(0, 2), (2, 1), (3, 1)], fin := 4 } }

/-- SPAN_RESIZE (R82, R177 to R182). -/
def execSpanResize (c : Cmd) (s : State) : Host.Outcome State Fault Refusal := command specSpanResize c s

def bodySpanTimers : Body := fun c _ s => do
  let p ← typedPortF s .span c 0 0
  let a ← rangeF c 1 2 1 16 1 64
  let t ← rangeF c 2 4 2 100 10 1000
  let r ← rangeF c 3 8 4 2000 (max 500 (4 * t)) 100000
  rejectIf (portBusy s p) stBusy
  okWith (setSpan p (fun x => { x with ackCoal := a, ackTmr := t, replayTmr := r }) s) []

def specSpanTimers : OpSpec :=
  { code := 0x0208, body := bodySpanTimers, layout := { flds := [(0, 2), (2, 1), (4, 2), (8, 4)], fin := 12 } }

/-- SPAN_TIMERS (R156, R159). -/
def execSpanTimers (c : Cmd) (s : State) : Host.Outcome State Fault Refusal := command specSpanTimers c s

def bodySpanPolicy : Body := fun c _ s => do
  let p ← typedPortF s .span c 0 0
  let q ← thePort s p
  let a ← rangeF c 1 2 1 q.scfg.amber 0 1
  let t ← rangeF c 2 3 1 q.scfg.threshold 1 100
  let i ← rangeF c 3 4 4 q.scfg.idle 0 1000000
  rejectIf (portBusy s p) stBusy
  okWith (setScfg p (fun x => { x with amber := a, threshold := t, idle := i }) s) []

def specSpanPolicy : OpSpec :=
  { code := 0x0209, body := bodySpanPolicy, layout := { flds := [(0, 2), (2, 1), (3, 1), (4, 4)], fin := 8 } }

/-- SPAN_POLICY (R176). -/
def execSpanPolicy (c : Cmd) (s : State) : Host.Outcome State Fault Refusal := command specSpanPolicy c s

end Sys2Proof.Machine
end

