-- ==== Sys2Proof/Machine/Lanes.lean ====
section
/-! DEFINITION. Events of lanes and quads, LANE_TEST and EYE_SCAN (03_lanes R99, R101, R118 to R126; 04_span_link R162,
R171). -/

namespace Sys2Proof.Machine

open Sys2Proof

/-- The port in use that holds a lane, and the lane's place in it (R29, R30). -/
def lanePort (s : State) (l : Nat) : Option (Nat × Port) := s.ports.find? fun e => decide (e.1 ≤ l) && decide (l < e.1 + e.2.width)

/-- An alignment word as received: whether it is inverted, the lane numbers of UI 4 and 5 and of UI 6 and 7 (R116, R119); none when
the levels are no such word. -/
def readWord (l : List Nat) : Option (Bool × Nat × Nat) :=
  let inv := l.headD 0 == 3
  let v := if inv then l.map fun x => 3 - x else l
  let n := 4 * v.getD 4 0 + v.getD 5 0
  let m := 4 * v.getD 6 0 + v.getD 7 0
  if v.length == 64 && v.take 4 == [0, 3, 0, 3] && v.drop 8 == (alignWord 0).drop 8 && v.all (· < 4) then some (inv, n, m) else none

/-- What the words on the lanes of a span say: the lanes that are inverted, and whether their order is reversed; false when a lane
number is repeated wrongly or the order is another (R119). -/
def wordOrder (ws : List (Bool × Nat × Nat)) : Option (List Bool × Bool) :=
  let nums := ws.map (·.2.1)
  if ws.any fun w => w.2.1 != w.2.2 then none
  else if nums == List.range ws.length then some (ws.map (·.1), false)
  else if nums == (List.range ws.length).reverse then some (ws.map (·.1), true)
  else none

/-- The lanes of a span are aligned, with the corrections training made and the CTLE it chose: their receivers start at the word
(R103, R105, R113, R118, R119). -/
def setAligned (p : Nat) (inv : List Bool) (rev : Bool) (ctle : List Nat) (s : State) : State :=
  match getPort s p with
  | some q =>
    let w := q.widthNow
    let s := (List.range w).foldl (fun s k => setLane (p + k) (fun l => { l with
      cdr := true, aligned := true, inverted := inv.getD k false, reversed := rev, precode := true, rate := q.rate % 256,
      misses := 0, ctle := min 24 (ctle.getD k 0), rxScram := scramSeed (if rev then w - 1 - k else k), rxLevel := 0 }) s) s
    quadsBack p (setSpan p (fun x => { x with rxSlots := 0 }) s)
  | none => s

/-- The rate code in force while a span trains: 32 GBd before PARAM agrees (R162). -/
def trainRate (q : Port) : Nat := if q.rate = 255 then 9 else q.rate

/-- The lanes of a span have aligned: those in use take the rate in force, the others are idle. -/
def found (p : Nat) (inv : List Bool) (rev : Bool) (ctle : List Nat) (s : State) : State :=
  match getPort s p with
  | some q => setLanes p (fun l => { l with rate := if l.aligned then trainRate q else 15 }) (setAligned p inv rev ctle s)
  | none => s

/-- ALIGNMENT_FOUND (R118, R119, R162, R171): the word has come on each lane of the end's own receiver. ALIGN ends when the
partner's PHASE is 2 or more; an end tells its own alignment by PHASE 2 (DEDUCED, log 33). A skew above 1,024 UI, or lane numbers
in another order than ascending or descending, fails training. -/
def execAlignmentFound (port : Nat) (words : List (List Nat)) (skew : Nat) (ctle : List Nat) (s : State) :
    Host.Outcome State Fault Refusal :=
  act s fun s =>
    match getPort s port with
    | some q =>
      let ws := words.filterMap readWord
      if q.typ != .span || q.span.resting || words.length != q.widthNow || ws.length != q.widthNow then s
      else
        match (if skew ≤ 1024 then wordOrder ws else none) with
        | some (inv, rev) =>
          if q.st == .hold then sendTrain port (found port inv rev ctle (retainedTraining port s))
          else if q.st != .training then s
          else if q.span.phase == .align then sendTrain port (found port inv rev ctle s)
          else if q.span.phase == .rate then
            sendTrain port (setSpan port (fun x => { x with rated := true, phase := .eq }) (found port inv rev ctle s))
          else s
        | none =>
          if q.st == .training && (q.span.phase == .align || q.span.phase == .rate) then failAttempt port s else s
    | none => s

/-- CDR_LOCK_LOSS (R120): a lane's clock recovery loses lock; a span loses lock with it. -/
def execCdrLockLoss (lane : Nat) (s : State) : Host.Outcome State Fault Refusal :=
  act s fun s =>
    let s := setLane lane (fun l => { l with cdr := false }) s
    match lanePort s lane with
    | some (p, q) => if lane < p + q.widthNow then loseLock p 4 s else s
    | none => s

/-- dc between expected positions of the alignment word in UP: 4,096 slots and the word's 64 UI (R117). -/
def wordEvery (q : Port) : Nat := ceilDiv (4096 * 17 * 2 ^ (q.rate - 7)) (max 1 q.widthNow) + 2 ^ (q.rate - 7)

/-- ALIGN_WORD_MISS (R120): the word is absent or displaced at a lane's expected position; the third miss at consecutive
positions loses lock. A miss later than the next position begins a new run. -/
def execAlignWordMiss (lane : Nat) (s : State) : Host.Outcome State Fault Refusal :=
  act s fun s =>
    match lanePort s lane with
    | some (p, q) =>
      if q.typ != .span || q.st != .up || p + q.widthNow ≤ lane then s
      else
        let x := getLane s lane
        let next := x.missAt + wordEvery q
        let run := decide (0 < x.misses) && decide (s.dc ≤ next)
        let s := if run then clockTo next s else s
        let n := if run then x.misses + 1 else 1
        let s := bumpLane lane 0x14 1 (setLane lane (fun l => { l with misses := n, missAt := s.dc }) s)
        if 3 ≤ n then loseLock p 4 s else s
    | none => s

/-- ELASTIC_SLIP (R101). -/
def execElasticSlip (lane : Nat) (s : State) : Host.Outcome State Fault Refusal :=
  act s fun s =>
    match lanePort s lane with
    | some (p, _) => fireDegr p 1 (bumpLane lane 0x10 1 s)
    | none => s

/-- QUAD_PLL_LOCK_LOSS (R39, R99): every port with a lane in the quad loses its link in this cycle. -/
def execQuadPllLockLoss (quad : Nat) (s : State) : Host.Outcome State Fault Refusal :=
  act s fun s =>
    if 128 ≤ quad then s
    else
      let s := setBoot (fun b => { b with quadLost := if b.quadLost.contains quad then b.quadLost else b.quadLost ++ [quad] }) s
      (s.ports.filter fun e => ((portLanes e.1 e.2).map quadOf).contains quad).foldl (fun s e =>
        if e.2.typ == .span then loseLock e.1 3 s else loseLink e.1 3 s) s

/-! ## LANE_TEST (R121 to R123) -/

/-- A checker runs on a lane: a test with a PRBS sequence that checks it. -/
def checking (s : State) (l : Nat) : Bool :=
  match (getLane s l).test with
  | some t => decide (1 ≤ t.mode) && decide (t.mode ≤ 3) && decide (2 ≤ t.dir)
  | none => false

/-- The bits a sequence keeps: 7, 13 or 31 (R121). -/
def prbsLen (mode : Nat) : Nat := match mode with | 1 => 7 | 2 => 13 | _ => 31

/-- `n` bits of a sequence from a register, and the register after them (R121; the bit sent is the one that enters, log 7). -/
def prbsBits (mode : Nat) : Nat → Nat → List Nat × Nat
  | 0, st => ([], st)
  | n + 1, st => let st := prbsShift mode st; let r := prbsBits mode n st; (st % 2 :: r.1, r.2)

/-- The bits that symbols of a tested lane carry: in pairs at PAM4 rates, through the precoder where it is on (R104, R105, R121). -/
def testBits (t : LaneTest) (y : Nat) (symbols : List Nat) : List Nat :=
  if nrzRate t.rate then symbols.map (· % 2)
  else (if t.precode then unprecode y symbols else symbols).flatMap fun g => [(ungray g).1, (ungray g).2]

/-- A received bit in a lane's checker: the seed, lock after 256 bits without error, then each error counts, and the 64th in
1,024 bits loses lock and seeds again. The numbers are errors and losses counted (R122). -/
def checkBit (mode : Nat) (e : Lane × Nat × Nat) (b : Nat) : Lane × Nat × Nat :=
  let (l, errs, losses) := e
  if l.chkSeed < prbsLen mode then
    ({ l with chk := (2 * l.chk + b) % 2 ^ prbsLen mode, chkSeed := l.chkSeed + 1, chkGood := 0, chkErrs := [] }, errs, losses)
  else
    let next := prbsShift mode l.chk
    let bad := next % 2 != b
    if !l.prbsLock then
      if bad then ({ l with chkSeed := 0, chkGood := 0 }, errs, losses)
      else ({ l with chk := next, chkGood := l.chkGood + 1, chkBits := 0, prbsLock := decide (256 ≤ l.chkGood + 1) }, errs, losses)
    else
      let at_ := l.chkBits + 1
      let seen := if bad then l.chkErrs.filter (fun i => decide (at_ < i + 1024)) ++ [at_] else l.chkErrs
      if 64 ≤ seen.length then
        ({ l with prbsLock := false, chkSeed := 0, chkGood := 0, chkBits := 0, chkErrs := [] }, errs + 1, losses + 1)
      else ({ l with chk := next, chkBits := at_, chkErrs := seen }, errs + b2n bad, losses)

/-- Received symbols of a tested lane go through its checker; LN_PRBS_ERR and LN_PRBS_LOSS count (R122). -/
def runChecker (lane : Nat) (symbols : List Nat) (s : State) : State :=
  let l := getLane s lane
  match l.test with
  | some t =>
    if !checking s lane then s
    else
      let (l, errs, losses) := (testBits t l.rxLevel symbols).foldl (checkBit t.mode) (l, 0, 0)
      let s := setLane lane (fun x => { l with cnt := x.cnt, rxLevel := symbols.getLastD l.rxLevel }) s
      let s := if errs = 0 then s else bumpLane lane 0x18 errs s
      if losses = 0 then s else bumpLane lane 0x1C losses s
  | none => s

/-- PRBS_CHECKER_LOCK (R122). -/
def execPrbsCheckerLock (lane : Nat) (symbols : List Nat) (s : State) : Host.Outcome State Fault Refusal :=
  act s (runChecker lane symbols)

/-- PRBS_LOCK_LOSS (R122). -/
def execPrbsLockLoss (lane : Nat) (symbols : List Nat) (s : State) : Host.Outcome State Fault Refusal :=
  act s (runChecker lane symbols)

/-- The symbols a tested lane's generator sends over 64 UI, and the generator after them (R104, R105, R121, PATTERN). -/
def generated (t : LaneTest) (no : Nat) (l : Lane) : List Nat × Nat :=
  if t.mode = 4 then (patternLevels t.pattern no 64, l.gen)
  else if nrzRate t.rate then prbsBits t.mode 64 l.gen
  else
    let r := prbsBits t.mode 128 l.gen
    let g := (pairUp r.1).map gray
    (if t.precode then precode l.txLevel g else g, r.2)

/-- 64 UI of each generator of a port (R121; one run of them for each idle cycle, DESIGN CHOICE, log 79). -/
def runGenerators (p : Nat) (q : Port) (s : State) : State :=
  (portLanes p q).foldl (fun s l =>
    match (getLane s l).test with
    | some t =>
      if t.dir = 2 then s
      else
        let e := generated t (l - p) (getLane s l)
        setLane l (fun x => { x with gen := e.2, txLevel := e.1.getLastD x.txLevel }) (emit (.pattern l e.1) s)
    | none => s) s

/-- The result of MODE 0: lock state, error count and lock-loss count of each selected lane, 4 bytes each (log 16). -/
def testResult (s : State) (p mask w : Nat) : Bytes :=
  ((List.range w).filter (bit mask)).flatMap fun k =>
    let l := getLane s (p + k)
    le 4 (b2n l.prbsLock) ++ le 4 (tgetD l.cnt 0x18 0) ++ le 4 (tgetD l.cnt 0x1C 0)

/-- A configuration field without default whose out-of-range values become one value. -/
def elseNoneF (c : Params) (i off w : Nat) (ok : Nat → Bool) (app : Nat) : Chk Nat :=
  match raw c off w with
  | some v => clamped c i v (if ok v then v else app)
  | none => rejectAt stInvalidParam i

/-- A lane's generator and checker start; the place at which a sequence starts is free (R98, R121, R122). -/
def startTest (t : LaneTest) (span : Bool) (lane : Nat) (s : State) : State :=
  drawn (setLane lane (fun l => { l with
    test := some t, prbsLock := false, rate := t.rate, precode := t.precode, txLevel := 0, rxLevel := 0,
    gen := freeVal s % (2 ^ prbsLen t.mode - 1) + 1, chk := 0, chkSeed := 0, chkBits := 0, chkGood := 0, chkErrs := [],
    cm1 := if span then (preset t.preset).1 else (stdPreset t.preset).1,
    cp1 := if span then (preset t.preset).2 else (stdPreset t.preset).2 }) s)

/-- LANE_TEST acts on the lanes it selects and on no other (R98). A MODE of 1 to 4 on a lane under test starts that lane's test
anew, and MODE 0 on a lane without one answers with its counts and leaves it idle: on both the manual is silent (DESIGN CHOICE, log
80). -/
def bodyLaneTest : Body := fun c _ s => do
  let p ← portF s c 0 0
  let q ← thePort s p
  let span := q.typ == .span
  let mask ← idF c 1 2 2 (some (2 ^ q.width - 1)) fun v => decide (v < 2 ^ q.width)
  let mode ← elseNoneF c 2 4 1 (· ≤ 4) 0
  let dir ← elseF c 3 5 1 3 (fun v => v == 1 || v == 2 || v == 3) 3
  let pat ← elseF c 4 6 1 0 (fun v => decide (v ≤ 4) || (v == 5 && span)) 0
  let pre ← elseF c 5 7 1 1 (· ≤ 1) 1
  let top := if span then 7 else 6
  let rate ← elseF c 6 8 1 top (fun v => if span then v == 7 || v == 8 || v == 9 else decide (v ≤ 6)) top
  let dflt := if span then 3 else 4
  let pst ← elseF c 7 9 1 dflt (fun v => if span then decide (v ≤ 7) else decide (v ≤ 10)) dflt
  rejectIf (q.st != .disabled) stInvalidState
  rejectIf (portBusy s p) stBusy
  let lanes := ((List.range q.width).filter (bit mask)).map (p + ·)
  if mode = 0 then
    okWith (lanes.foldl (fun s l => setLane l (fun x => { x with test := none, prbsLock := false, rate := 15 }) s) s)
      (testResult s p mask q.width)
  else
    let t : LaneTest := { mode := mode, dir := dir, pattern := pat, precode := span || pre == 1, rate := rate, preset := pst }
    okWith (lanes.foldl (fun s l => startTest t span l s) s) []

def specLaneTest : OpSpec :=
  { code := 0x020D, scope := .port, body := bodyLaneTest,
    layout := { flds := [(0, 2), (2, 2), (4, 1), (5, 1), (6, 1), (7, 1), (8, 1), (9, 1)], fin := 10 } }

/-- LANE_TEST (R122, R123). -/
def execLaneTest (c : Cmd) (s : State) : Host.Outcome State Fault Refusal := command specLaneTest c s

/-! ## DFE adaptation (R114, R115) -/

/-- dc in 4,096 UI at a rate code of LANE_TEST, rounded up: GBd for spans, GT/s with PAM4 at codes 5 and 6 for the others. -/
def adaptEvery (rate : Nat) : Nat :=
  match rate with
  | 0 => 3277 | 1 => 1639 | 2 => 1024 | 3 => 512 | 4 => 256 | 5 => 256 | 6 => 128 | 7 => 64 | 8 => 128 | _ => 256

/-- The DFE of a lane in mission mode adapts every 4,096 UI, unless an eye scan runs on it; its 12 taps are free values. -/
def adaptLane (s : State) (l : Nat) : State :=
  let x := getLane s l
  if x.scan.isSome || decide (s.dc < x.dfeAt + adaptEvery x.rate) then s
  else { setLane l (fun y => { y with dfe := s.freeN, dfeAt := s.dc }) s with freeN := s.freeN + 12 }

/-- The lanes in use of a port that is UP. -/
def adaptPort (p : Nat) (q : Port) (s : State) : State :=
  if q.st == .up then ((portLanes p q).take q.widthNow).foldl adaptLane s else s

/-! ## EYE_SCAN (R124 to R126) -/

/-- EYE_SCAN's parameters and its start. LANE is checked against the configured width; the manual does not say whether `width` is
that or the width in force (DESIGN CHOICE, log 81). -/
def bodyEyeScan : Body := fun c _ s => do
  let p ← portF s c 0 0
  let q ← thePort s p
  let l ← idF c 1 2 2 none (· < q.width)
  let d ← rangeF c 2 4 2 10 1 1000
  let e ← elseF c 3 6 1 0 (· ≤ 3) 0
  let t ← rangeF c 4 7 1 6 3 12
  rejectIf (q.st != .up) stInvalidState
  rejectIf (getLane s (p + l)).scan.isSome stBusy
  let x : Scan := { at_ := if q.std.l1 then none else some s.dc, dwell := d, eye := e, thr := t }
  pure (startL1Exit p (setLane (p + l) (fun y => { y with scan := some x }) s), .later (.eyeScan p l) [])

def specEyeScan : OpSpec :=
  { code := 0x020E, scope := .port, body := bodyEyeScan,
    layout := { flds := [(0, 2), (2, 2), (4, 2), (6, 1), (7, 1)], fin := 8 } }

/-- EYE_SCAN (R124, R125, R221): on an H port in L1 it starts the exit, and DWELL counts from its end. -/
def execEyeScan (c : Cmd) (s : State) : Host.Outcome State Fault Refusal := command specEyeScan c s

/-- EYE_SCAN_END (R125, R126): DWELL has passed; the reply carries the margins measured. -/
def execEyeScanEnd (port lane : Nat) (upper middle lower : Eye) (s : State) : Host.Outcome State Fault Refusal :=
  act s fun s =>
    match (getLane s (port + lane)).scan with
    | some x =>
      let nrz := nrzRate (((getPort s port).map (·.rate)).getD 0)
      match x.at_ with
      | some t =>
        if (findOp s (.eyeScan port lane)).isSome then
          let s := clockTo (t + 2000000 * x.dwell) s
          endOp (.eyeScan port lane) 0 (eyeData true nrz x upper middle lower) 
            (noteTlp port (setLane (port + lane) (fun y => { y with scan := none }) s))
        else s
      | none => s
    | none => s

end Sys2Proof.Machine
end

