-- ==== Sys2Proof/Machine/StdPort.lean ====
section
/-! DEFINITION. H ports and D ports: received TLPs and their check, virtual hierarchies and bindings, IDE streams, link
power, host configuration (05_standard_ports R191 to R226; 11_security R425, R426, R445 to R448; 14_startup R526). -/

namespace Sys2Proof.Machine

open Sys2Proof

/-! ## Received TLPs -/

/-- The actor of a memory request at an H port (R445). -/
def actorOf (s : State) (p : Nat) : Issuer → Nat
  | .bay b => b
  | .pf0 => if s.boot.mgr == some p then 0xFFF else 0xFFD
  | .host => 0xFFE

/-- The tag of a request of PF0 or a bay: 10 bits in non-flit mode, 14 bits in flit mode, and free (R191, R193, R400). -/
def tagFits (q : Port) (m : Msg) : Bool :=
  !m.np || (tagRoom q && decide (m.tag < (if q.flit then 2 ^ 14 else 2 ^ 10)) && !q.std.quar.contains m.tag
    && !q.std.np.any fun r => r.fn.isSome && r.msg.tag == m.tag)

/-- Own functions issue requests while Bus Master Enable is set and, for a bay, while it is ACTIVE and its TDI is not in
ERROR, and with a free tag (R193, R216, R222, R398, R400). -/
def mayIssue (s : State) (p : Nat) (q : Port) (t : Tlp) : Bool :=
  match t.issuer with
  | .host => true
  | .pf0 => q.std.bme && tagFits q t.msg
  | .bay b =>
    match tget s.bays b with
    | some y => y.hport == p && y.st == .active && y.bme && y.tdi != .error && vfVisible s b && tagFits q t.msg
    | none => false

/-- The function that issues a request of an H port. -/
def issuerFn (p : Nat) : Issuer → Option Fn
  | .host => none
  | .pf0 => some (.pf0 p)
  | .bay b => some (.bay b)

/-- Where a host's CXL.mem request goes: to the target of the HDM decoder that holds its address, else to no device (R195). -/
def hdmDest (q : Port) (a : Nat) : Dest :=
  match q.std.hdm.find? fun e => decide (e.2.base ≤ a) && decide (a < e.2.base + e.2.size) with
  | some e => e.2.dest
  | none => .nowhere

/-- A TLP or CXL.mem message with its destination settled (R195). -/
def aimed (q : Port) (t : Tlp) : Tlp :=
  match t.msg.addr with
  | some a => if q.typ == .h && t.issuer == .host && t.msg.kind == 1 && t.msg.cls != .rsp then { t with dest := hdmDest q a } else t
  | none => t

/-- The binding a request or completion of a port passes (R199). -/
def viaOf (q : Port) (p : Nat) : Dest → Option (Nat × Nat)
  | .bridge n => some (p, n)
  | .upstream ld => (tget q.std.binds ld).map fun b => (b.hport, b.bridge)
  | _ => none

/-- A TLP or CXL.mem message as a span message: its header is made here, TTL 64, SPID the port's PID (R144, R207, R239). What a
host or a card sends keeps its requester ID, tag and ordering attributes; what PF0 or a bay issues carries its own ID, and its
attributes are 0 (R193, R225, R226). -/
def framed (s : State) (p : Nat) (q : Port) (t : Tlp) : Msg :=
  let fn := issuerFn p t.issuer
  { t.msg with
    reqId := (match fn with | some f => fnId s f | none => t.msg.reqId),
    ro := t.msg.ro && fn.isNone, ido := t.msg.ido && fn.isNone,
    ttl := 64, spid := q.pid.getD 0, rport := some p, via := viaOf q p t.dest, mc := false,
    dpid := (match t.dest with | .pid n => n | _ => t.msg.dpid),
    owner := (match t.issuer with | .bay b => some b | _ => none) }

/-- A memory request is checked at an H port; configuration requests, messages and completions carry no address (R445). -/
def checkedAt (q : Port) (m : Msg) : Bool := q.typ == .h && m.addr.isSome && m.cls != .rsp && m.cls != .mgt && m.len != 0

/-- One part of a checked request: forwarded with an access in flight when it passes; the device's own outcome when it
fails. `after` counts the passing parts that follow, `before` those that precede (R448, R453). -/
def takePart (p mpu : Nat) (fn : Option Fn) (m : Msg) (d : Dest) (before after : Nat) (lo len : Nat) (ok : Bool) (s : State) :
    State :=
  let write := !m.read
  if ok then
    let part := { m with addr := some lo, len := len,
                         dlen := if write then m.dlen - m.len + len else m.dlen }
    let a : Access := { mpu := mpu, epoch := (getMpu s mpu).epoch, write := write, mid := none, port := p, tag := m.tag }
    let s := setGn (fun g => { g with acc := g.acc ++ [a] }) s
    setPort p (fun q => { q with inQ := q.inQ ++ [{ msg := part, dest := d, acc := write, fn := fn }] }) s
  else if write then
    let s := dropWrite mpu s
    if m.np then sendCompletion p { completionOf { m with len := 0 } with read := true } s else s
  else
    let c : Msg := { completionOf { m with len := len } with
                     poison := true, ur := false, dlen := 12 + len, read := true, addr := some lo }
    if before = 0 then sendCompletion p c s
    else setStd p (fun x => { x with heldCpl := x.heldCpl ++ [(c, after)] }) s

/-- The parts of a checked request in address order. -/
def takeParts (p mpu : Nat) (fn : Option Fn) (m : Msg) (d : Dest) : Nat → List (Nat × Nat × Bool) → State → State
  | _, [], s => s
  | before, (lo, len, ok) :: r, s =>
    let after := (r.filter fun x => x.2.2).length
    takeParts p mpu fn m d (before + b2n ok) r (takePart p mpu fn m d before after lo len ok s)

/-- A request or message enters the ingress of an H port or D port, checked where R445 asks (R239, R445 to R448). -/
def takeRequest (p : Nat) (q : Port) (t : Tlp) (s : State) : State :=
  let m := framed s p q t
  let fn := issuerFn p t.issuer
  let s := if m.np && fn.isSome then setStd p (fun d => { d with np := d.np ++ [{ msg := m, fn := fn }] }) s else s
  if checkedAt q m then
    let mpu := hMpu s p
    let (parts, s) := mpuCheck mpu (actorOf s p t.issuer) (!m.read) (m.addr.getD 0) m.len s
    takeParts p mpu fn m t.dest 0 parts s
  else setPort p (fun q => { q with inQ := q.inQ ++ [{ msg := m, dest := t.dest, fn := fn }] }) s

/-- A binding named by its H port and bridge: the D port and the logical device (R199). -/
def findBinding (s : State) (h n : Nat) : Option (Nat × Nat × Binding) :=
  s.ports.findSome? fun e => (e.2.std.binds.find? fun b => b.2.hport == h && b.2.bridge == n).map fun b => (e.1, b.1, b.2)

/-- A CXL.cache message stays between an H port and a D port bound to its VH, for a device that holds a cache ID of
the VH (R195, R196, R200). -/
def cacheAllowed (s : State) (p : Nat) (q : Port) (d : Dest) : Bool :=
  match viaOf q p d with
  | some (h, n) =>
    (match findBinding s h n with
     | some (_, _, b) => b.active && b.cacheId.isSome && !b.unbound
     | none => false)
  | none => false

/-- Requests that pass a binding and wait for their completion: those outstanding at a port, and those still in the buffer
(R204). -/
def viaReqs (s : State) (v : Nat × Nat) : List (Nat × NpReq) :=
  s.ports.flatMap fun e => (e.2.std.np.filter fun r => r.fn.isNone && r.msg.via == some v).map fun r => (e.1, r)

def viaMids (s : State) (v : Nat × Nat) : List Nat := (s.cells.filter fun e => e.2.msg.np && e.2.msg.via == some v && !e.2.leaving).map (·.1)

/-- A binding is gone: its VH sees it go, and VH_UNBIND replies with the count it completed (R204). -/
def endUnbind (p ld n : Nat) (s : State) : State :=
  let s := mirror p s (setStd p (fun d => { d with binds := tdel d.binds ld }) s)
  endOp (.unbind p ld) (if n = 0 then 0 else stSquashed) (le 4 n) s

/-- VH_UNBIND ends once nothing it waits for is outstanding (R204). -/
def settleUnbind (p : Nat) (s : State) : State :=
  match getPort s p with
  | some q =>
    (q.std.binds.filter fun e => e.2.unbound).foldl (fun s e =>
      let v := (e.2.hport, e.2.bridge)
      if (viaReqs s v).isEmpty && (viaMids s v).isEmpty then endUnbind p e.1 0 s else s) s
  | none => s

/-- READ_REQs of the bays of an H port that waited for a tag are served (R193). -/
def wakeReads (p : Nat) (s : State) : State :=
  (s.qps.filter fun e => bayPort s e.2.bay == some p && !e.2.reads.isEmpty).foldl (fun s e => servePending e.2.engine e.1 512 s) s

/-- The port a completion under a binding goes to (R199, R204). -/
def completionPort (s : State) (p : Nat) (m : Msg) : Dest → Option Nat
  | .bridge n => bridgePort s p n m
  | .upstream ld => upstreamPort s p ld m
  | _ => none

/-- A completion from the link ends the request outstanding at its port; one for no request is discarded (R222, R400). One that
passes a binding keeps the way it had when it came, though the binding may end with it (R204). -/
def takeCompletion (p : Nat) (q : Port) (t : Tlp) (s : State) : State :=
  match q.std.np.find? fun r => r.msg.tag == t.msg.tag with
  | some r =>
    let s := setStd p (fun d => { d with np := d.np.erase r }) s
    let m := framed s p q t
    let s := if r.fn.isSome then wakeReads p s
      else setPort p (fun q => { q with inQ := q.inQ ++ [{ msg := m, dest := t.dest, goes := completionPort s p m t.dest }] }) s
    (match r.msg.via.bind fun v => findBinding s v.1 v.2 with
     | some (d, _, _) => settleUnbind d s
     | none => s)
  | none =>
    if q.std.quar.contains t.msg.tag then wakeReads p (setStd p (fun d => { d with quar := d.quar.filter (· != t.msg.tag) }) s)
    else emit (.drop p t.msg) s

/-- A port leaves L1: eye scans that waited begin, and their DWELL counts from here (R218, R221). -/
def leaveL1 (p : Nat) (s : State) : State :=
  match getPort s p with
  | some q =>
    if q.std.l1 then
      setLanes p (fun l => { l with scan := l.scan.map fun x => if x.at_.isNone then { x with at_ := some s.dc } else x })
        (setStd p (fun d => { d with l1 := false, l1sub := 0, l1Exit := false, busyAt := s.dc }) s)
    else s
  | none => s

/-- A poisoned TLP is logged at class CORRECTED by the pipe of its port; the CAUSE of that firing the manual does not state, and
it is a free value (R227; log 49). -/
def logPoison (p : Nat) (m : Msg) (s : State) : State :=
  if m.poison then firePipe p (freeVal s % 256) (drawn s) else s

/-- TLP_RECEIVE (R144, R191 to R196, R207, R226, R227, R239, R445 to R448): a TLP or CXL.mem message arrives at an H port or
D port in UP. A TLP ends L1 (R217). -/
def execTlpReceive (port : Nat) (tlp : Tlp) (s : State) : Host.Outcome State Fault Refusal :=
  act s fun s =>
    match getPort s port with
    | some q =>
      if q.typ == .span || q.st != .up || !mayIssue s port q tlp then s
      else
        let s := noteTlp port (leaveL1 port s)
        let tlp := aimed q tlp
        let actor := match tlp.issuer with | .bay b => b | _ => noActor
        if 2 ≤ tlp.err && tlp.err ≤ 6 then fire (srcProto port) tlp.err port actor s
        else if tlp.ptm then (if q.typ == .d then bumpPort port oMsgDrop 1 s else s)
        else if tlp.cache && !cacheAllowed s port q tlp.dest then fireDegr port 10 (bumpPort port oCacheDrop 1 s)
        else if tlp.msg.cls == .rsp then takeCompletion port q tlp (logPoison port tlp.msg s)
        else takeRequest port q tlp (logPoison port tlp.msg s)
    | none => s

/-! ## Bindings (R197 to R205) -/

/-- The bridges of a VH in use. -/
def bridgesOf (s : State) (h : Nat) : List Nat :=
  s.ports.flatMap fun e => (e.2.std.binds.filter fun b => b.2.hport == h).map fun b => b.2.bridge

def bodyVhBind : Body := fun c _ s => do
  let d ← typedPortF s .d c 0 0
  let h ← typedPortF s .h c 1 2
  let ld ← idF c 2 4 2 (some 0xFFFF) fun v => decide (v ≤ 15) || v == 0xFFFF
  let q ← thePort s d
  rejectIfAt (match q.std.card with | some mld => !kindOk mld ld | none => false) stInvalidParam 2
  rejectIf (q.st == .amber) stInvalidState
  rejectIf (q.std.binds.any fun e => e.2.unbound && (e.1 == ld || e.1 == 0xFFFF || ld == 0xFFFF)) stBusy
  rejectIf (q.std.binds.any fun e => e.1 == ld || e.1 == 0xFFFF || ld == 0xFFFF) stInvalidState
  let id := lowestFree (cacheIds s h none) 16
  let off := q.std.cache && id.isNone
  rejectIfAt (off && c.noClamp) stOutOfRange 2
  match (List.range 32).find? fun n => n != 0 && !(bridgesOf s h).contains n with
  | none => reject stNoResource
  | some n =>
    if off then modify (fun l => l ++ [{ field := 2, requested := ld, applied := ld }])
    let b : Binding := { hport := h, bridge := n, cacheOff := off, cacheId := if q.std.cache then id else none }
    let t := setStd d (fun x => { x with binds := tset x.binds ld b }) s
    let v := bridgeView q (some { hport := h, bridge := n })
    let t := if v != (false, false) && (match getPort s h with | some x => x.std.hotplug | none => false) then
        emit (.hotplug h n v.1 v.2) t
      else t
    okWith t [n]

def specVhBind : OpSpec :=
  { code := 0x020B, body := bodyVhBind, layout := { flds := [(0, 2), (2, 2), (4, 2)], fin := 6 } }

/-- VH_BIND (R195, R199 to R202). -/
def execVhBind (c : Cmd) (s : State) : Host.Outcome State Fault Refusal := command specVhBind c s

def bodyVhUnbind : Body := fun c _ s => do
  let d ← typedPortF s .d c 0 0
  let ld ← idF c 1 2 2 (some 0xFFFF) fun v => decide (v ≤ 15) || v == 0xFFFF
  let q ← thePort s d
  match tget q.std.binds ld with
  | none => reject stInvalidState
  | some b =>
    rejectIf b.unbound stBusy
    let s := setStd d (fun x => { x with binds := tset x.binds ld { b with unbound := true, drainAt := s.dc + 2000000 } }) s
    let v := (b.hport, b.bridge)
    if (viaReqs s v).isEmpty && (viaMids s v).isEmpty then
      okWith (mirror d s (setStd d (fun x => { x with binds := tdel x.binds ld }) s)) (le 4 0)
    else pure (s, .later (.unbind d ld) (le 4 0))

def specVhUnbind : OpSpec :=
  { code := 0x020C, body := bodyVhUnbind, layout := { flds := [(0, 2), (2, 2)], fin := 4 } }

/-- VH_UNBIND (R204, R205). -/
def execVhUnbind (c : Cmd) (s : State) : Host.Outcome State Fault Refusal := command specVhUnbind c s

/-- A request still in the buffer is taken out and completed by its bridge (R204). -/
def completeMid (p : Nat) (s : State) (mid : Nat) : State :=
  match tget s.cells mid with
  | some x => sendCompletion p (completionOf x.msg) (removeStored s mid)
  | none => s

/-- UNBIND_DRAIN_EXPIRY (R204): the 1 ms of VH_UNBIND has passed; what remains is completed by the virtual bridge. -/
def execUnbindDrainExpiry (port ld : Nat) (s : State) : Host.Outcome State Fault Refusal :=
  act s fun s =>
    match (getPort s port).bind fun q => tget q.std.binds ld with
    | some b =>
      if !b.unbound then s
      else
        let v := (b.hport, b.bridge)
        let reqs := viaReqs s v
        let mids := viaMids s v
        let n := reqs.length + mids.length
        let s := if n = 0 then s else clockTo b.drainAt s
        let s := reqs.foldl (fun s r =>
          sendCompletion port (completionOf r.2.msg) (setStd r.1 (fun d => { d with np := d.np.erase r.2 }) s)) s
        endUnbind port ld n (mids.foldl (completeMid port) s)
    | none => s

/-! ## IDE (R96, R209 to R213, R425, R426) -/

/-- The key sets of a stream context that is secure under a kind and Stream ID. -/
def ideKeys (d : Std) (k kind id : Nat) : Tab (List Nat) :=
  match tget d.ide k with
  | some i => if i.secure && i.kind = kind && i.id = id then i.keys else []
  | none => []

/-- A key set of a stream is in force; the other set stays, and the keys it replaces leave (R209, R427). -/
def ideInstall (p k kind id set : Nat) (keys : List Nat) (s : State) : State :=
  setStd p (fun d => { d with
    ide := tset d.ide k { kind := kind, id := id, secure := true, keys := tset (ideKeys d k kind id) set keys } }) s

/-- The Link session of a port is established (R211, R415). -/
def linkSession (s : State) (p : Nat) : Bool := s.sec.sessions.any fun x => x.role == .link p && x.done

/-- IDE_KEY_PROG (R209, R211, R426): in the Link session of its H port the host programs a key set of a stream, with one link
stream at most. -/
def execIdeKeyProg (port stream kind id set : Nat) (keys : List Nat) (s : State) : Host.Outcome State Fault Refusal :=
  act s fun s =>
    match getPort s port with
    | some q =>
      let other := q.std.ide.any fun e => e.1 != stream && e.2.kind == 0 && e.2.secure
      if q.typ == .h && q.st == .up && s.boot.bedrock && linkSession s port && decide (stream < 16) && decide (kind ≤ 1)
          && decide (id < 256) && decide (set ≤ 1) && keys.length == 6 && keys.all (fun k => decide (k < 2 ^ 256))
          && !(kind == 0 && other) then ideInstall port stream kind id set keys s
      else s
    | none => s

/-- The TDIs that use a selective stream of a port enter ERROR (R213). -/
def tdiStreamError (p id : Nat) (s : State) : State :=
  { s with bays := tmap s.bays fun _ y =>
      if y.hport = p && y.stream == some id && (y.tdi = .locked || y.tdi = .run) then { y with tdi := .error } else y }

/-- A stream of a port enters the standard's insecure state, its keys gone. -/
def ideInsecure (p k : Nat) (s : State) : State :=
  setStd p (fun d => { d with ide := tmod d.ide k fun i => { i with secure := false, keys := [] } }) s

/-- IDE_INTEGRITY_FAIL (R213). -/
def execIdeIntegrityFail (port stream : Nat) (s : State) : Host.Outcome State Fault Refusal :=
  act s fun s =>
    match getPort s port with
    | some q =>
      (match tget q.std.ide stream with
       | some i =>
         if !i.secure || q.st != .up then s
         else if i.kind = 0 then fire (srcProto port) 1 port noActor (ideInsecure port stream s)
         else fireDegr port 12 (tdiStreamError port i.id (ideInsecure port stream s))
       | none => s)
    | none => s

/-- Bedrock's Link session to the card of a D port: the one that is open, else a new one with the lowest free ID and secrets that
are free values (R211, R415; the ID is the model's, log 85). -/
def cardSession (p : Nat) (s : State) : State :=
  if linkSession s p then s
  else
    let x : Session := {
      id := (lowestFree (0 :: s.sec.sessions.map (·.id)) (s.sec.sessions.length + 2)).getD 1, role := .link p, origin := none,
      beatAt := s.dc, done := true, reqSecret := freeVal s % 2 ^ 384, rspSecret := freeVal (drawn s) % 2 ^ 384 }
    drbgUse (setSec (fun y => { y with sessions := y.sessions.filter (fun z => z.role != .link p) ++ [x] }) (drawn (drawn s)))

/-- Six keys of Bedrock's DRBG for a key set (R211, R426). -/
def sixKeys (s : State) : List Nat := (List.range 6).map fun i => Config.freeNat (s.freeN + i) % 2 ^ 256

/-- The set a D port's new keys go to: the one not last programmed (R209). -/
def otherSet (d : Std) (k id : Nat) : Nat :=
  match ideKeys d k 0 id with
  | [(0, _)] => 1
  | _ => 0

def bodyIdeStreamSet : Body := fun c x s => do
  let p ← idF c 0 0 2 none fun v => isType s .h v || isType s .d v
  let q ← thePort s p
  let k ← idF c 1 2 1 none fun v => if q.typ == .d then v == 0 else decide (v < 16)
  let op ← elseF c 2 3 1 0 (· ≤ 1) 0
  let kind ← elseF c 3 4 1 0 (· ≤ 1) 0
  let id ← anyF c 5 1 0
  rejectIf (op != 1 && (q.typ == .h || kind == 1 || q.st != .up || !x.env.algOk)) stInvalidState
  rejectIf (portBusy s p) stBusy
  if op = 1 then okWith (ideInsecure p k s) []
  else
    rejectIf (!x.env.chainOk) stAuthFail
    let s := cardSession p s
    okWith (ideInstall p k 0 id (otherSet q.std k id) (sixKeys s) (drbgUse { s with freeN := s.freeN + 6 })) []

def specIdeStreamSet : OpSpec :=
  { code := 0x0706, priv := 1, body := bodyIdeStreamSet,
    layout := { flds := [(0, 2), (2, 1), (3, 1), (4, 1), (5, 1)], fin := 6 } }

/-- IDE_STREAM_SET (R96, R211, R425). -/
def execIdeStreamSet (c : Cmd) (s : State) : Host.Outcome State Fault Refusal := command specIdeStreamSet c s

/-! ## Link power (R217 to R221) -/

def bodyHpPower : Body := fun c _ s => do
  let p ← typedPortF s .h c 0 0
  let q ← thePort s p
  let l ← rangeF c 1 2 1 (b2n q.std.l0pEn) 0 1
  let i ← rangeF c 2 4 2 q.std.l1Idle 1 65535
  rejectIf (portBusy s p) stBusy
  let at_ := if l == 1 && !q.std.l0pEn then s.dc else q.std.l0pAt
  okWith (setStd p (fun d => { d with l0pEn := l == 1, l1Idle := i, l0pAt := at_ }) s) []

def specHpPower : OpSpec :=
  { code := 0x020A, scope := .port, body := bodyHpPower, layout := { flds := [(0, 2), (2, 1), (4, 2)], fin := 6 } }

/-- HP_POWER (R217, R219). -/
def execHpPower (c : Cmd) (s : State) : Host.Outcome State Fault Refusal := command specHpPower c s

/-- The conditions of R217 beside the time; no TLP is being sent or received. -/
def l1Quiet (s : State) (p : Nat) (q : Port) : Bool :=
  q.std.aspm && !(q.std.np.any fun r => r.fn.isSome) && (portMids s p).isEmpty && q.sched.sending.isNone
    && (portLanes p q).all fun l => (getLane s l).scan.isNone

/-- The substate of L1 that the host has enabled, the deeper one first (R218). -/
def l1Substate (q : Port) : Nat := if q.std.l12 then 2 else if q.std.l11 then 1 else 0

/-- L1_IDLE_EXPIRY (R217, R218): the L1 idle time has passed since the last TLP, and the H port goes to L1, or to the substate its
host has enabled. -/
def execL1IdleExpiry (port : Nat) (s : State) : Host.Outcome State Fault Refusal :=
  act s fun s =>
    match getPort s port with
    | some q =>
      if q.typ == .h && q.st == .up && !q.std.l1 && l1Quiet s port q then
        setStd port (fun d => { d with l1 := true, l1sub := l1Substate q, l1Exit := false })
          (clockTo (q.std.busyAt + 2000 * q.std.l1Idle) s)
      else s
    | none => s

/-- L1_EXIT_COMPLETE (R218, R221): the port leaves L1; eye scans that waited begin. -/
def execL1ExitComplete (port : Nat) (s : State) : Host.Outcome State Fault Refusal :=
  act s fun s =>
    match getPort s port with
    | some q =>
      if q.typ == .span || q.st != .up then s else leaveL1 port s
    | none => s

/-- A width of L0p takes effect; the times of R219 count from here. -/
def setL0p (p w full : Nat) (s : State) : State :=
  setPort p (fun q => { q with widthNow := w, std := { q.std with l0pRed := decide (w < full), l0pAt := s.dc } }) s

/-- Cells queued toward a port. -/
def queuedCells (s : State) (p : Nat) : Nat :=
  ((portMids s p).map fun k => match tget s.cells k with | some x => x.cells | none => 0).sum

/-- L0P_HALVE (R219): the traffic stayed below 25 % of half width for 100 us, since L0p was enabled or the width last changed. -/
def execL0pHalve (port : Nat) (s : State) : Host.Outcome State Fault Refusal :=
  act s fun s =>
    match getPort s port with
    | some q =>
      if q.typ == .h && q.st == .up && q.flit && !q.std.l1 && q.std.l0pHost && q.std.l0pEn && decide (2 ≤ q.widthNow) then
        setL0p port (q.widthNow / 2) q.std.linkW (clockTo (q.std.l0pAt + 200000) s)
      else s
    | none => s

/-- L0P_FULL_WIDTH (R219): a queue above 64 cells, or else traffic above 75 % of the width for 10 us, which began at that width. -/
def execL0pFullWidth (port : Nat) (s : State) : Host.Outcome State Fault Refusal :=
  act s fun s =>
    match getPort s port with
    | some q => if q.typ == .h && q.st == .up && q.std.l0pRed then
        setL0p port q.std.linkW q.std.linkW (if 64 < queuedCells s port then s else clockTo (q.std.l0pAt + 20000) s)
      else s
    | none => s

/-- PARTNER_POWER_REQUEST (R220): a D port accepts its card's L1 or L0p request, L0p in flit mode only (R191). -/
def execPartnerPowerRequest (port : Nat) (l1 : Bool) (width : Nat) (s : State) : Host.Outcome State Fault Refusal :=
  act s fun s =>
    match getPort s port with
    | some q =>
      if q.typ != .d || q.st != .up then s
      else if l1 then setStd port (fun d => { d with l1 := true, l1sub := 0, l1Exit := false }) s
      else if q.flit && decide (1 ≤ width) && decide (width ≤ q.std.linkW) then setL0p port width q.std.linkW s
      else s
    | none => s

/-! ## Host configuration (R526, R387, R217 to R219, R194, R203, R222) -/

/-- An MSI-X vector of a function is masked or not; a pending message leaves once it may (the standard's masking, R409). -/
def maskMsix (fn : Fn) (v : Nat) (on : Bool) (s : State) : State :=
  let f := fun (l : List Nat) => if on then l.filter (· != v) else if l.contains v then l else l ++ [v]
  let s := match fn with
    | .pf0 p => setStd p (fun d => { d with msixOpen := f d.msixOpen }) s
    | .bay b => setBay b (fun y => { y with msixOpen := f y.msixOpen }) s
  if on then s else flushMsix fn s

/-- The nearest power of two from 128 to 4,096 at or below a number of bytes (R191). -/
def payloadSize (n : Nat) : Nat :=
  if 4096 ≤ n then 4096 else if 2048 ≤ n then 2048 else if 1024 ≤ n then 1024 else if 512 ≤ n then 512
  else if 256 ≤ n then 256 else 128

/-- A command of the standard's receiver margining to a lane: its required commands set the error count limit, return to normal
settings, and step the sampler in time or in voltage (R127; the payload codes are the standard's, PRESUMED, log 20). -/
def marginLane (type payload : Nat) (l : Lane) : Lane :=
  if type = 2 then
    if 192 ≤ payload then { l with mgLimit := payload - 192 } else if payload = 0x0F then { l with mgStep := none } else l
  else if type = 3 then { l with mgStep := some (false, payload) }
  else if type = 4 then { l with mgStep := some (true, payload) }
  else l

/-- A port whose lanes the host of an H port margins: the H port, or a D port bound to it (R127). -/
def marginable (s : State) (h p : Nat) : Bool :=
  portSt s p == some .up && (p == h || (match getPort s p with | some q => q.std.binds.any fun b => b.2.hport == h | none => false))

/-- What a configuration write to PF0 sets. -/
def configPf0 (p : Nat) (op : CfgOp) (s : State) : State :=
  match op with
  | .read => s
  | .vfEnable n =>
    let n := min n 256
    (match getPort s p with
     | some q => if n < q.std.numVfs then lowerVfs p n s else setStd p (fun d => { d with numVfs := n }) s
     | none => s)
  | .aspmL1 on => setStd p (fun d => { d with aspm := on, busyAt := if on && !d.aspm then s.dc else d.busyAt }) s
  | .l0p on => setStd p (fun d => { d with l0pHost := on, l0pAt := if on && !d.l0pHost then s.dc else d.l0pAt }) s
  | .maxPayload n => setStd p (fun d => { d with mps := payloadSize n }) s
  | .maxRead n => setStd p (fun d => { d with mrrs := payloadSize n }) s
  | .hdm i base size dest =>
    if 32 ≤ i then s
    else setStd p (fun d => { d with
      hdm := if size = 0 then tdel d.hdm i else tset d.hdm i { base := base, size := size, dest := dest } }) s
  | .l1Substates a b => setStd p (fun d => { d with l11 := a, l12 := b }) s
  | .mctpUnit n => setStd p (fun d => { d with mctpUnit := max 64 (min 512 n) }) s
  | .margin port lane type payload =>
    (match getPort s port with
     | some q =>
       if marginable s p port && decide (lane < q.widthNow) then
         emit (.margin (port + lane) type payload) (setLane (port + lane) (marginLane type payload) s)
       else s
     | none => s)
  | .ptm on => setStd p (fun d => { d with ptm := on }) s
  | .hotplug on => setStd p (fun d => { d with hotplug := on }) s
  | .msixMask v on =>
    maskMsix (.pf0 p) v on s

/-- What a configuration write to a bay's function sets. -/
def configBay (b : Nat) (op : CfgOp) (s : State) : State :=
  match op with
  | .msixMask v on =>
    maskMsix (.bay b) v on s
  | _ => s

/-- A reset of a bay is in progress. -/
def bayResets (s : State) (b : Nat) : Bool := match tget s.bays b with | some y => y.rst.isSome | none => false

/-- CONFIGURATION_REQUEST (R526, R404): answered with Request Retry Status until PF0 is ready, and while the bay's reset runs;
carried out after. -/
def execConfigurationRequest (fn : Fn) (op : CfgOp) (s : State) : Host.Outcome State Fault Refusal :=
  act s fun s =>
    let port := match fn with | .pf0 p => some p | .bay b => bayPort s b
    let resetting := match fn with | .pf0 _ => false | .bay b => bayResets s b
    match port.bind fun p => (getPort s p).map fun q => (p, q) with
    | some (p, q) =>
      if q.typ != .h || q.st != .up then s
      else if !q.std.ready || resetting then emit (.config fn true) s
      else
        let s := emit (.config fn false) s
        (match fn with
         | .pf0 _ => configPf0 p op s
         | .bay b => if vfVisible s b then configBay b op s else s)
    | none => s

end Sys2Proof.Machine
end

