-- ==== Sys2Proof/Machine/Newel.lean ====
section
/-! DEFINITION. Newel: channels, feeds, the Stairwell, faults, temperature and their commands (13_newel_power R479 to
R512; 14_startup R529, R530). -/

namespace Sys2Proof.Machine

open Sys2Proof

/-- An event of the CLK_P control, which runs once PLL_ROOT has locked, in the CLK_P cycle that takes it up (R517, R522). -/
def nwAct (s : State) (f : State → State) : Host.Outcome State Fault Refusal :=
  .next (if !s.boot.por && s.boot.pll then f (clockTo (clkP s.dc) s) else s)

/-- An event of a channel. -/
def chanAct (ch : Nat) (s : State) (f : State → State) : Host.Outcome State Fault Refusal :=
  nwAct s fun s => if ch < 32 then f s else s

/-- NW_CH_STATUS. -/
def chanStatus (c : Chan) : Nat :=
  (match c.st with
   | .off => 0 | .wait => 1 | .queued => 2 | .ramp => 3 | .on => 4 | .lockout => 5 | .short => 6)
    + 8 * b2n c.pg + 16 * b2n (boardIn c) + 32 * (c.feed % 2) + 64 * b2n c.requested + 128 * (c.retries % 32)
    + 2 ^ 12 * b2n c.fetShort + 2 ^ 13 * b2n c.trip + 2 ^ 14 * b2n c.oc + 2 ^ 15 * b2n c.ot + 2 ^ 16 * b2n c.startTo
    + 2 ^ 17 * b2n c.removed + 2 ^ 18 * b2n c.sensor + 2 ^ 24 * min 255 (c.tj / 2 ^ 32).toNat

/-! ## Feeds (R487 to R490) -/

/-- NW_FEED_STATUS. -/
def feedStatus (s : State) (f : Nat) : Nat :=
  let x := getFeed s f
  x.volt % 2 ^ 11 + 2 ^ 11 * b2n x.good + 2 ^ 12 * b2n x.droopy + 2 ^ 13 * b2n x.ov + 2 ^ 16 * (chargedTo s f % 512)
    + 2 ^ 25 * ((queuedOn s f).length % 64)

/-- A channel that is ON moves to the feed it should use, by break before make (R488, R489). -/
def reselect (ch : Nat) (s : State) : State :=
  let c := getChan s ch
  match feedFor s c with
  | some f =>
    if c.st == .on && c.moving.isNone && !s.nw.under && (c.feed != f || !c.closed) then
      fireNewel ch 8 (setChan ch (fun c => { c with closed := false, moving := some f, moveAt := s.dc, blank := true }) s)
    else s
  | none => s

/-- A feed in use has become bad: a ramp on the preferred feed ends, but not in Basalt, where a channel holds its state (R48); a channel that is ON moves, and a switch to a feed
above 13.8 V opens (R488, R490). -/
def feedLost (f : Nat) (ov : Bool) (s : State) (ch : Nat) : State :=
  let c := getChan s ch
  if c.feed != f then s
  else if c.st == .ramp && c.feedPri = f && !s.boot.basalt then
    setChan ch (fun c => { c with st := .queued, front := true, closed := false }) (gateOff ch s)
  else if c.st == .on && (feedFor s c).isSome then reselect ch s
  else if ov && gateOn c then setChan ch (fun c => { c with closed := false }) s
  else s

/-- FEED_BAD (R487): below 10.2 V or above 13.8 V for 20 us. -/
def execFeedBad (feed volt : Nat) (s : State) : Host.Outcome State Fault Refusal :=
  nwAct s fun s =>
    if 2 ≤ feed || (1020 ≤ volt && volt ≤ 1380) then s
    else
      let s := setFeed feed (fun x => { x with good := false, volt := volt, ov := decide (1380 < volt) }) s
      (List.range 32).foldl (feedLost feed (decide (1380 < volt))) s

/-- FEED_GOOD (R487): between 10.5 V and 13.5 V for 100 ms. -/
def execFeedGood (feed volt : Nat) (s : State) : Host.Outcome State Fault Refusal :=
  nwAct s fun s =>
    if 2 ≤ feed || volt < 1050 || 1350 < volt then s
    else
      let s := setFeed feed (fun x => { x with good := true, volt := volt, ov := false }) s
      (List.range 32).foldl (fun s ch => reselect ch s) s

/-- DEAD_TIME_EXPIRY (R488): the new feed switch closes. -/
def execDeadTimeExpiry (ch : Nat) (s : State) : Host.Outcome State Fault Refusal :=
  chanAct ch s fun s =>
    let c := getChan s ch
    match c.moving with
    | some f =>
      let s := clockTo (clkP (c.moveAt + 2000 * c.dead)) s
      setChan ch (fun c => { c with feed := (feedFor s c).getD f, closed := true, moving := none }) s
    | none => s

/-- PG deasserts without command: the event, NW_PERST_N, and the link of the associated D port (R236, R498, R530). -/
def losePg (ch : Nat) (s : State) : State :=
  let c := getChan s ch
  if c.st == .on && c.pg then
    let s := fireNewel ch 9 (setChan ch (fun c => { c with pg := false, perst := false }) s)
    let a := c.assoc.toNat
    if bit a 31 && live s && isType s .d (a % 512) then loseLink (a % 512) 2 s else s
  else s

/-- PG_BLANKING_END (R489): DEAD_TIME + 50 us after the old switch opened. -/
def execPgBlankingEnd (ch outputMv : Nat) (s : State) : Host.Outcome State Fault Refusal :=
  chanAct ch s fun s =>
    let c := getChan s ch
    if c.blank then
      let s := clockTo (clkP (c.moveAt + 2000 * (c.dead + 50))) s
      let s := setChan ch (fun c => { c with blank := false }) s
      if outputMv < 10200 then losePg ch s else s
    else s

/-- FEED_DROOP (R494): below DROOP for 20 us. -/
def execFeedDroop (feed volt : Nat) (s : State) : Host.Outcome State Fault Refusal :=
  nwAct s fun s =>
    let x := getFeed s feed
    if 2 ≤ feed || x.droop ≤ volt then s
    else
      let t := setFeed feed (fun x => { x with droopy := true, volt := volt }) s
      if x.droopy then t else fire (srcCentral (48 + feed)) 1 feed noActor t

/-- FEED_DROOP_END (R494): above DROOP + 0.2 V for 1 ms. -/
def execFeedDroopEnd (feed volt : Nat) (s : State) : Host.Outcome State Fault Refusal :=
  nwAct s fun s =>
    let x := getFeed s feed
    if 2 ≤ feed || volt ≤ x.droop + 20 then s else setFeed feed (fun x => { x with droopy := false, volt := volt }) s

/-! ## Faults (R499 to R503, R512) -/

/-- The cause bit of a fault (R500). -/
def causeBit (cause : Nat) (c : Chan) : Chan :=
  match cause with
  | 1 => { c with trip := true }
  | 2 => { c with oc := true }
  | 3 => { c with startTo := true }
  | 4 => { c with ot := true }
  | _ => c

/-- The number of a fault's cause bit in NW_CH_STATUS, none for a fault without one. -/
def causeNo (cause : Nat) : Option Nat :=
  match cause with
  | 1 => some 13
  | 2 => some 14
  | 3 => some 16
  | 4 => some 15
  | _ => none

/-- A fault of a channel (R500); in Basalt it locks out at once (R48, R503). A channel that is OFF, LOCKOUT or SHORT keeps
that state (DEDUCED, log 34). -/
def chanFault (ch cause : Nat) (s : State) : State :=
  let s := startRetry ch (gateOff ch s)
  let s := setChan ch (fun c => causeBit cause { c with retries := min 16 (c.retries + 1) }) s
  let s := match causeNo cause with | some k => noteSet (.nw ch k) s | none => s
  let s := fireNewel ch cause s
  let c := getChan s ch
  if c.st == .off || c.st == .lockout || c.st == .short then s
  else if s.boot.basalt || c.retryCnt < c.retries then fireNewel ch 6 (setChan ch (fun c => { c with st := .lockout }) s)
  else setChan ch (fun c => { c with st := .wait }) s

/-- The power die acts: out of reset, from the lock of PLL_ROOT on, and in Basalt although PLL_ROOT is lost (R25, R48). -/
def powerDie (s : State) : Bool := !s.boot.por && (s.boot.pll || s.boot.basalt)

/-- FAST_TRIP (R25, R48, R499): twice ILIMIT in any state; the fault is taken in the next CLK_P cycle. -/
def execFastTrip (ch : Nat) (s : State) : Host.Outcome State Fault Refusal :=
  .next (if powerDie s && decide (ch < 32) then inTurn 2 ch (chanFault ch 1) (clockTo ((s.dc / 32 + 1) * 32) s) else s)

/-- OC_TIMEOUT (R499): regulation for 5 ms. -/
def execOcTimeout (ch : Nat) (s : State) : Host.Outcome State Fault Refusal :=
  chanAct ch s (inTurn 2 ch fun s => if gateOn (getChan s ch) then chanFault ch 2 s else s)

/-- The CLK_P edge at which a ramp has lasted too long: 3 x 12 V / slew + 5 ms after admission (R496). -/
def rampEnd (c : Chan) : Nat := clkP (c.admitAt + 576000000 / 2 ^ slewCode c + 10000000)

/-- START_TIMEOUT (R496): no PG in that time. -/
def execStartTimeout (ch : Nat) (s : State) : Host.Outcome State Fault Refusal :=
  chanAct ch s fun s =>
    let c := getChan s ch
    inTurn 2 ch (fun s =>
        let c := getChan s ch
        if c.st == .ramp && decide (rampEnd c ≤ s.dc) then chanFault ch 3 s else s)
      (if c.st == .ramp then clockTo (rampEnd c) s else s)

/-- OVER_TEMPERATURE (R507): the temperature is at OT_TRIP with the gate on. -/
def execOverTemperature (ch : Nat) (s : State) : Host.Outcome State Fault Refusal :=
  chanAct ch s (inTurn 2 ch fun s =>
    let c := getChan s ch
    if gateOn c && decide (degC (otTrip c) ≤ c.tj) then chanFault ch 4 s else s)

/-- RETRY_TIMER_EXPIRY (R485). -/
def execRetryTimerExpiry (ch : Nat) (s : State) : Host.Outcome State Fault Refusal :=
  chanAct ch s fun s =>
    match (getChan s ch).timer with
    | some t => took ch .expiry (expireRetry ch) (clockTo (clkP t) s)
    | none => s

/-- Every gate and feed switch is held off; channels in RAMP or ON fault with CAUSE 11 (R512). -/
def holdAllOff (s : State) : State :=
  let s := { s with nw := { s.nw with under := true } }
  let s := (List.range 32).foldl (fun s ch => inTurn 2 ch (fun s => if gateOn (getChan s ch) then chanFault ch 11 s else s) s) s
  { s with nw := { s.nw with chs := tmap s.nw.chs fun _ c => { c with closed := false, moving := none } } }

/-- VNEWEL_UNDERVOLTAGE (R48, R512): the power die's own protection. -/
def execVnewelUndervoltage (s : State) : Host.Outcome State Fault Refusal :=
  .next (if powerDie s then holdAllOff (clockTo (clkP s.dc) s) else s)

/-- VNEWEL_RESTORED (R512): above 10.5 V for 100 ms. -/
def execVnewelRestored (s : State) : Host.Outcome State Fault Refusal :=
  nwAct s fun s => { s with nw := { s.nw with under := false } }

/-- FET_SHORT is latched: both feed switches open, and an associated D port takes it as a link down (R504). -/
def shortChan (ch : Nat) (s : State) : State :=
  let s := setChan ch (fun c => { c with st := .short, fetShort := true, closed := false, front := false }) s
  let s := fireNewel ch 5 s
  let a := (getChan s ch).assoc.toNat
  if bit a 31 && live s && isType s .d (a % 512) then loseLink (a % 512) 2 s else s

/-- FET_SHORT (R504): the output stays above 1.0 V for 200 us with the gate off, from 100 ms after it was commanded off. -/
def execFetShort (ch : Nat) (s : State) : Host.Outcome State Fault Refusal :=
  chanAct ch s fun s =>
    let c := getChan s ch
    if gateOn c || c.st == .short then s else inTurn 1 ch (shortChan ch) (clockTo (clkP (c.offAt + 200400000)) s)

/-! ## Starts (R484, R491 to R497) -/

/-- WAIT_TO_QUEUED (R484). -/
def execWaitToQueued (ch : Nat) (s : State) : Host.Outcome State Fault Refusal :=
  chanAct ch s fun s =>
    let c := getChan s ch
    if mayQueue s c then
      took ch .eligible (queueChan ch) (match c.expAt with | some t => clockTo (clkP (t + 200000000)) s | none => s)
    else s

/-- The candidate of a feed: lowest PRIORITY, the front of R490 before the others, lowest number (R491). -/
def stairCandidate (s : State) (f : Nat) : Option (Nat × Chan) :=
  leastBy (fun e => 128 * e.2.prio + 64 * b2n (!e.2.front) + e.1) (queuedOn s f)

/-- STAIRWELL_ADMISSION (R491, R494, R495): at most one channel of a feed in a CLK_P cycle. -/
def execStairwellAdmission (feed : Nat) (s : State) : Host.Outcome State Fault Refusal :=
  nwAct s fun s =>
    let x := getFeed s feed
    if 2 ≤ feed || !x.good || x.droopy || s.nw.under || s.boot.basalt then s
    else
      match stairCandidate s feed with
      | some (ch, c) =>
        let n := chargedTo s feed
        if n + inrush c ≤ x.budget || n = 0 then
          let s := if x.lastAdm == some s.dc then clockTo (s.dc + 32) s else s
          let s := setFeed feed (fun x => { x with lastAdm := some s.dc }) s
          took ch (.admitted feed) (rampChan ch feed) s
        else s
      | none => s

/-- PG_ASSERT (R492, R497): the channel is ON; one that is not on its preferred feed moves there (R488). -/
def execPgAssert (ch : Nat) (s : State) : Host.Outcome State Fault Refusal :=
  chanAct ch s fun s =>
    let c := getChan s ch
    if gateOn c && !c.pg then reselect ch (setChan ch (fun c => { c with st := .on, pg := true, pgAt := s.dc }) s) else s

/-- PG_LOSS (R498): the output or the gate-source voltage has left its window for 20 us. -/
def execPgLoss (ch : Nat) (s : State) : Host.Outcome State Fault Refusal := chanAct ch s (losePg ch)

/-- PG_HOLD_10S (R501). -/
def execPgHold10s (ch : Nat) (s : State) : Host.Outcome State Fault Refusal :=
  chanAct ch s fun s =>
    let c := getChan s ch
    if c.pg then setChan ch (fun c => { c with retries := 0 }) (clockTo (clkP (c.pgAt + 20000000000)) s) else s

/-- NW_PERST_N_RISE (R530): 100 ms after PG asserts. -/
def execNwPerstNRise (ch : Nat) (s : State) : Host.Outcome State Fault Refusal :=
  chanAct ch s fun s =>
    let c := getChan s ch
    if c.st == .on && c.pg then setChan ch (fun c => { c with perst := true }) (clockTo (clkP (c.pgAt + 200000000)) s) else s

/-! ## Boards (R502) -/

/-- BOARD_INSERTION (R501, R502). -/
def execBoardInsertion (ch : Nat) (s : State) : Host.Outcome State Fault Refusal :=
  chanAct ch s fun s =>
    let c := getChan s ch
    if presEn c && !c.present then fireNewel ch 10 (took ch .inserted (seatBoard ch) s) else s

/-- What a removal does to the channel (R502); in Basalt the channel holds its on or off state (R48). -/
def unseatBoard (ch : Nat) (s : State) : State :=
  let c := getChan s ch
  let s := setChan ch (fun c => { c with present := false, removed := true }) s
  if s.boot.basalt then s
  else if gateOn c then setChan ch (fun c => { c with st := .wait }) (startRetry ch (gateOff ch s))
  else if c.st == .queued then setChan ch (fun c => { c with st := .wait, front := false }) s
  else s

/-- BOARD_REMOVAL (R502). -/
def execBoardRemoval (ch : Nat) (s : State) : Host.Outcome State Fault Refusal :=
  chanAct ch s fun s =>
    let c := getChan s ch
    if presEn c && c.present then fireNewel ch 7 (noteSet (.nw ch 17) (inTurn 3 ch (unseatBoard ch) s)) else s

/-! ## Temperature (R505, R506) -/

/-- A diode's reading: absent, open or shorted as OT_TRIP, or degrees. -/
def diodeTemp (c : Chan) : Diode → Option Nat
  | .absent => none
  | .bad => some (otTrip c)
  | .temp t => some t

/-- DIODE_MEASURE (R505): TEMP takes the hottest of the fitted diodes. -/
def execDiodeMeasure (ch : Nat) (d0 d1 d2 : Diode) (s : State) : Host.Outcome State Fault Refusal :=
  chanAct ch s fun s =>
    let bad := d0 == .bad || d1 == .bad || d2 == .bad
    let s := if bad && (getChan s ch).tempMode == 0 then noteSet (.nw ch 18) s else s
    setChan ch (fun c =>
      if c.tempMode != 0 then c
      else
        let ts := [d0, d1, d2].filterMap (diodeTemp c)
        { c with
          sensor := c.sensor || bad,
          tj := match ts with | [] => c.tj | t :: r => degC (r.foldl max t) }) s

/-- One microsecond of the model of R506. -/
def modelStep (c : Chan) (vdsMv iMa : Nat) : Int :=
  c.tj + (degC (tRef c) + (vdsMv * iMa * rthOf c * 2 ^ 32 / 10000000 : Nat) - c.tj) / (1000 * tauOf c : Nat)

/-- THERMAL_MODEL_UPDATE (R506). -/
def execThermalModelUpdate (ch vdsMv iMa : Nat) (s : State) : Host.Outcome State Fault Refusal :=
  chanAct ch s fun s =>
    setChan ch (fun c => if c.tempMode = 1 && c.st != .off then { c with tj := modelStep c vdsMv iMa } else c) s

/-! ## Registers (R482, R508) -/

/-- Settings of a channel may be written (R482). -/
def chanOpen (c : Chan) : Bool := c.st == .off || c.st == .lockout || c.st == .short

/-- NW_CH_BOARD (register 0) or NW_CH_THERM (register 1) is written (R481, R482). -/
def writeBoard (ch reg value : Nat) (s : State) : State :=
  setChan ch (fun c =>
    if !chanOpen c then c
    else if reg = 0 then { c with board := BitVec.ofNat 32 (value % 2 ^ 27) }
    else { c with therm := BitVec.ofNat 32 value }) s

/-- NW_CH_BOARD_WRITE (R481, R482). -/
def execNwChBoardWrite (ch reg value : Nat) (s : State) : Host.Outcome State Fault Refusal :=
  chanAct ch s fun s => if mgrReach s && decide (reg < 2) then writeBoard ch reg value s else s

/-- NW_CH_ASSOC is written; a port already associated with another channel is refused (R508). -/
def writeAssoc (ch value : Nat) (s : State) : State :=
  let v := value % 512 + 2 ^ 31 * b2n (bit value 31)
  let taken := bit value 31 && isType s .d (value % 512) && (List.range 32).any fun k =>
    k != ch && bit (getChan s k).assoc.toNat 31 && (getChan s k).assoc.toNat % 512 == value % 512
  setChan ch (fun c => if chanOpen c && !taken then { c with assoc := BitVec.ofNat 32 v } else c) s

/-- NW_CH_ASSOC_WRITE (R482, R508). -/
def execNwChAssocWrite (ch value : Nat) (s : State) : Host.Outcome State Fault Refusal :=
  chanAct ch s fun s => if mgrReach s then writeAssoc ch value s else s

/-- A write of NW_CH_STATUS of a channel clears its W1C bits 13 to 18 that are written 1 (R12, R13). -/
def clearChan (ch v : Nat) (s : State) : State :=
  let w := fun n old => w1c s (.nw ch n) old (bit v n)
  setChan ch (fun c => { c with
    trip := w 13 c.trip, oc := w 14 c.oc, ot := w 15 c.ot, startTo := w 16 c.startTo, removed := w 17 c.removed,
    sensor := w 18 c.sensor }) s

/-! ## Commands -/

/-- A channel number. -/
def chanF (c : Params) : Chk Nat := idF c 0 0 1 none (· < 32)

def layoutChan : Layout := { flds := [(0, 1)], fin := 1 }

/-- A NEWEL_OFF of the channel waits for its port (R74, R237). -/
def chanBusy (s : State) (ch : Nat) : Bool := s.ops.any fun o => match o.kind with | .newelOff k _ => k == ch | _ => false

def bodyNewelConfig : Body := fun c _ s => do
  let ch ← chanF c
  let il ← rangeF c 1 2 2 100 10 800
  let d ← rangeF c 2 4 1 20 5 200
  let t ← rangeF c 3 8 2 1000 100 60000
  let n ← rangeF c 4 12 1 3 0 15
  let f ← elseF c 5 13 1 0 (· ≤ 1) 0
  let m ← elseF c 6 14 1 0 (· ≤ 1) 0
  let pr ← rangeF c 7 15 1 0 0 7
  let x := getChan s ch
  rejectIf (gateOn x && (il != x.ilimit || m != x.tempMode)) stInvalidState
  rejectIf (chanBusy s ch) stBusy
  let s := setChan ch (fun c => { c with
    ilimit := il, dead := d, retryTmr := t, retryCnt := n, feedPri := f, tempMode := m, prio := pr }) s
  okWith (reselect ch s) []

def specNewelConfig : OpSpec :=
  { code := 0x0901, body := bodyNewelConfig,
    layout := { flds := [(0, 1), (2, 2), (4, 1), (8, 2), (12, 1), (13, 1), (14, 1), (15, 1)], fin := 16 } }

/-- NEWEL_CONFIG (R88, R488). -/
def execNewelConfig (c : Cmd) (s : State) : Host.Outcome State Fault Refusal := command specNewelConfig c s

/-- The current-limit threshold lies between 2 mV and 100 mV (R481). -/
def senseOk (c : Chan) : Bool := decide (20000 ≤ c.ilimit * rsense c) && decide (c.ilimit * rsense c ≤ 1000000)

def bodyNewelOn : Body := fun c _ s => do
  let ch ← chanF c
  let x := getChan s ch
  rejectIf (x.st == .lockout || x.st == .short || !senseOk x) stInvalidState
  rejectIf (chanBusy s ch) stBusy
  okWith (took ch .on (requestChan ch) s) []

def specNewelOn : OpSpec := { code := 0x0902, body := bodyNewelOn, layout := layoutChan }

/-- NEWEL_ON (R481, R509). -/
def execNewelOn (c : Cmd) (s : State) : Host.Outcome State Fault Refusal := command specNewelOn c s

def bodyNewelOff : Body := fun c _ s => do
  let ch ← chanF c
  rejectIf (chanBusy s ch) stBusy
  let a := (getChan s ch).assoc.toNat
  let p := a % 512
  let served := bit a 31 && isType s .d p && (portSt s p == some .training || portSt s p == some .up)
  if served then
    pure ((meetDown p s).1, .later (.newelOff ch p) [])
  else okWith (took ch .off (chanOff ch) s) []

def specNewelOff : OpSpec := { code := 0x0903, body := bodyNewelOff, layout := layoutChan }

/-- NEWEL_OFF (R237, R509). -/
def execNewelOff (c : Cmd) (s : State) : Host.Outcome State Fault Refusal := command specNewelOff c s

/-- The 8 bytes of a channel: its status, and the voltage and current that the analog inputs give now (R510). -/
def chanRecord (s : State) (n ch : Nat) : Bytes :=
  le 4 (chanStatus (getChan s ch)) ++ le 2 (Config.analog (s.freeN + 2 * n)) ++ le 2 (Config.analog (s.freeN + 2 * n + 1))

def bodyNewelStatus : Body := fun c _ s => do
  let f ← idF c 0 0 1 none (· < 32)
  let n ← rangeNoneF c 1 1 1 1 (32 - f)
  okWith { s with freeN := s.freeN + 2 * n } ((List.range n).flatMap fun k => chanRecord s k (f + k))

def specNewelStatus : OpSpec := { code := 0x0904, body := bodyNewelStatus, layout := { flds := [(0, 1), (1, 1)], fin := 2 } }

/-- NEWEL_STATUS (R510). -/
def execNewelStatus (c : Cmd) (s : State) : Host.Outcome State Fault Refusal := command specNewelStatus c s

def bodyStairwellSet : Body := fun c _ s => do
  let f ← idF c 0 0 1 none (· < 2)
  let b ← rangeF c 1 2 2 40 1 400
  let d ← rangeF c 2 4 2 1100 1000 1200
  okWith (setFeed f (fun x => { x with budget := b, droop := d }) s) []

def specStairwellSet : OpSpec :=
  { code := 0x0905, body := bodyStairwellSet, layout := { flds := [(0, 1), (2, 2), (4, 2)], fin := 6 } }

/-- STAIRWELL_SET (R493, R494). -/
def execStairwellSet (c : Cmd) (s : State) : Host.Outcome State Fault Refusal := command specStairwellSet c s

def bodyNewelClear : Body := fun c _ s => do
  let ch ← chanF c
  let x := getChan s ch
  rejectIf (x.st == .short) stInvalidState
  rejectIf (chanBusy s ch) stBusy
  okWith (took ch .clear (clearChanLock ch) s) []

def specNewelClear : OpSpec := { code := 0x0906, body := bodyNewelClear, layout := layoutChan }

/-- NEWEL_CLEAR (R501, R503, R509). -/
def execNewelClear (c : Cmd) (s : State) : Host.Outcome State Fault Refusal := command specNewelClear c s

end Sys2Proof.Machine
end

