-- ==== Sys2Proof/Machine/Security.lean ====
section
/-! DEFINITION. Bedrock: sessions, SPDM requests, locks, zeroization, self-tests, firmware and bundle staging, debug access
(11_security R414 to R442; 02_command_protocol R77, R78, R90 to R92). -/

namespace Sys2Proof.Machine

open Sys2Proof

/-! ## Status (R437, R439) -/

/-- The certified configuration is in force (R439, R441). -/
def certified (s : State) : Bool := s.sec.lock.getLsbD 0

/-- BD_STATUS.APPROVED (R437). -/
def approved (s : State) : Bool := certified s && s.sec.testsOk

/-- Sessions that are established and hold a role. -/
def roleCount (s : State) (f : Role → Bool) : Nat := (s.sec.sessions.filter fun x => x.done && f x.role).length

def isOfficer : Role → Bool | .officer => true | _ => false
def isUser : Role → Bool | .user _ => true | _ => false

/-- BD_STATUS (R437). -/
def bdStatus (s : State) : Nat :=
  b2n (approved s) + 2 * b2n s.sec.testsOk + 4 * b2n (mezzRuns s) + 8 * (if mezzRuns s then s.boot.slot % 2 else 0)
    + 16 * roleCount s isOfficer + 256 * roleCount s isUser

/-- An Officer anchor slot holds a key (R418). -/
def anchorIn (s : State) (k : Nat) : Bool := (s.nv.anchors[k]?.getD (none, false)).1.isSome

/-- An Officer anchor slot authenticates a requester: it holds a key that is not revoked (R418). -/
def anchorOk (s : State) (k : Nat) : Bool := anchorIn s k && !(s.nv.anchors[k]?.getD (none, false)).2

/-! ## SPDM (R415 to R418, R423 to R426) -/

/-- An SPDM request reaches Bedrock over MCTP: Bedrock is ready and the path is up; no request comes by a ring. -/
def spdmOpen (s : State) (o : Origin) : Bool :=
  match o with
  | .ring _ => false
  | _ => pathOpen s o && s.boot.bedrock && !s.boot.basalt

/-- Bedrock can sign and exchange keys: it holds the identity key and its DRBG state (R426). -/
def canExchange (s : State) : Bool := s.sec.identity && s.sec.drbg

/-- The path and role of a KEY_EXCHANGE's requester, where R415 and R418 know one. -/
def partyRole (s : State) : Party → Option (Role × Option Origin)
  | .officer o _ =>
    if spdmOpen s o && (match o with | .i3c => true | .vdm p => s.boot.mgr == some p | _ => false) then
      some (.officer, some o) else none
  | .bay b => if spdmOpen s (.bay b) && vfVisible s b then some (.user b, some (.bay b)) else none
  | .link p => if s.boot.bedrock && live s && !isType s .span p && portSt s p == some .up then some (.link p, none) else none
  | .enrol => if spdmOpen s .i3c then some (.enrol, some .i3c) else none

/-- The limits of R417: 4 Officer sessions, one User session per bay, one Link session per port. -/
def sessionRoom (s : State) (r : Role) : Bool :=
  let n := (s.sec.sessions.filter fun x => x.role == r).length
  match r with
  | .officer => decide (n < 4)
  | .user _ => n == 0
  | .link _ => n == 0
  | .enrol => true

/-- KEY_EXCHANGE (R415, R417): answers 0 accepted, 1 SessionLimitExceeded, 2 another error (the numbers are the model's,
log 36). A period outside 1 s to 600 s is taken as the 10 s Bedrock proposes. -/
def execKeyExchange (party : Party) (id period : Nat) (s : State) : Host.Outcome State Fault Refusal :=
  .next (match partyRole s party with
    | some (r, o) =>
      if !sessionRoom s r then emit (.spdm id 1) s
      else if !canExchange s || id = 0 || decide (2 ^ 32 ≤ id) || (findSession s id).isSome then emit (.spdm id 2) s
      else
        let x : Session := { id := id, role := r, origin := o, period := if 1 ≤ period && period ≤ 600 then period else 10,
                             anchor := (match party with | .officer _ k => k | _ => 0), beatAt := s.dc,
                             reqSecret := freeVal s % 2 ^ 384, rspSecret := freeVal (drawn s) % 2 ^ 384 }
        emit (.spdm id 0) (drbgUse (setSec (fun y => { y with sessions := y.sessions ++ [x] }) (drawn (drawn s))))
    | none => s)

/-- A change of one session. -/
def modSession (id : Nat) (f : Session → Session) (s : State) : State :=
  setSec (fun x => { x with sessions := x.sessions.map fun y => if y.id = id then f y else y }) s

/-- The sessions of an ID end. -/
def dropSession (id : Nat) (s : State) : State := endSessions (fun x => x.id == id) s

/-- FINISH (R415, R418): the session is established, or ends when the handshake or the mutual authentication fails. -/
def execSpdmFinish (id : Nat) (ok : Bool) (s : State) : Host.Outcome State Fault Refusal :=
  .next (match findSession s id with
    | some x =>
      if x.done || !s.boot.bedrock || s.boot.basalt then s
      else if ok && (x.role != .officer || anchorOk s x.anchor) then
        emit (.spdm id 0) (modSession id (fun y => { y with done := true, beatAt := s.dc }) s)
      else emit (.spdm id 2) (dropSession id s)
    | none => s)

/-- A request in an established session, on its own path and endpoint (R416). -/
def inSession (o : Origin) (id : Nat) (f : Session → State → State) (s : State) : Host.Outcome State Fault Refusal :=
  .next (if !spdmOpen s o then s
    else match sessionOn s o id with
      | some x => f x s
      | none => emit (.spdm id 2) s)

/-- END_SESSION (R416). -/
def execEndSession (o : Origin) (id : Nat) (s : State) : Host.Outcome State Fault Refusal :=
  inSession o id (fun _ s => emit (.spdm id 0) (dropSession id s)) s

/-- HEARTBEAT (R417): the session's period starts again. -/
def execHeartbeat (o : Origin) (id : Nat) (s : State) : Host.Outcome State Fault Refusal :=
  inSession o id (fun _ s => emit (.spdm id 0) (modSession id (fun y => { y with beatAt := s.dc }) s)) s

/-- HEARTBEAT_EXPIRY (R416): a period has passed without a heartbeat. -/
def execHeartbeatExpiry (id : Nat) (s : State) : Host.Outcome State Fault Refusal :=
  .next (match findSession s id with
    | some x => dropSession id (clockTo (x.beatAt + x.period * 2000000000) s)
    | none => s)

/-- KEY_UPDATE (R426): the session's secrets are replaced by those that follow, and its counts start again (log 65). -/
def updateKeys (y : Session) : Session :=
  { y with keyNo := y.keyNo + 1, reqSecret := nextSecret y.reqSecret, rspSecret := nextSecret y.rspSecret, cmds := 0, rsps := 0 }

/-- KEY_UPDATE (R426). -/
def execKeyUpdate (o : Origin) (id : Nat) (s : State) : Host.Outcome State Fault Refusal :=
  inSession o id (fun _ s => emit (.spdm id 0) (modSession id updateKeys s)) s

/-- SHA-384 of bytes as a number, first byte highest. -/
def shaOf (bs : Bytes) : Nat := Crypto.ofBE (Crypto.sha384 bs)

/-- The Officer anchor slots with their revoke bits, as bytes. -/
def anchorBytes (s : State) : Bytes := s.nv.anchors.flatMap fun a => le 48 (a.1.getD 0) ++ [b2n a.2]

/-- The measurements of R423 in index order; measurement 3 is its hash, slot, VERSION and SVN, 4 is BD_LOCK and the SVN
floor, 5 is the bundle's hash and BSEQ. -/
def measurements (s : State) : List Nat :=
  [Config.romHash, if s.nv.patch then Config.patchHash else 0]
    ++ (match s.boot.image with | some i => [i.digest, s.boot.slot, i.version, i.svn] | none => [0, 0, 0, 0])
    ++ [s.sec.lock.toNat, s.nv.svnFloor, s.nv.bundleHash, s.nv.bseq, shaOf (anchorBytes s), s.boot.restarts]

/-- GET_MEASUREMENTS (R423): signed with the identity key, which Bedrock must hold. -/
def execGetMeasurements (o : Origin) (s : State) : Host.Outcome State Fault Refusal :=
  .next (if !spdmOpen s o then s else if s.sec.identity then emit (.measurements (measurements s)) s else emit (.spdm 0 2) s)

/-- OFFICER_ENROL may do this (R418): slot 0 while every slot is empty, over I3C without mutual authentication; an empty
slot, or the revoke bit of a slot that holds a key, in an Officer session; nothing once ANCHOR is closed (R439). -/
def enrolOk (s : State) (x : Session) (slot : Nat) (revoke : Bool) : Bool :=
  !s.sec.lock.getLsbD 2 && decide (slot < 4)
    && (match x.role with
        | .enrol => slot == 0 && !revoke && (List.range 4).all fun k => !anchorIn s k
        | .officer => if revoke then anchorIn s slot else !anchorIn s slot
        | _ => false)

/-- OFFICER_ENROL (R418). -/
def execOfficerEnrol (o : Origin) (session slot : Nat) (revoke : Bool) (hash : Nat) (s : State) :
    Host.Outcome State Fault Refusal :=
  inSession o session (fun x s =>
    if enrolOk s x slot revoke then
      let old := s.nv.anchors[slot]?.getD (none, false)
      let new := if revoke then (old.1, true) else (some (hash % 2 ^ 384), old.2)
      emit (.spdm session 0) (setNv (fun v => { v with anchors := v.anchors.set slot new }) s)
    else emit (.spdm session 2) s) s

/-- DRBG_RESEED (R426): after 2^20 requests. -/
def execDrbgReseed (s : State) : Host.Outcome State Fault Refusal :=
  .next (if s.sec.drbg then setSec (fun x => { x with drbgReqs := 0 }) s else s)

/-! ## Session commands -/

/-- The session closes once its reply, still encrypted under it, has left. -/
def bodySessionEnd : Body := fun _ x s => okWith (modSession x.session (fun y => { y with ending := true }) s) []

def specSessionEnd : OpSpec := { code := 0x0701, priv := 2, body := bodySessionEnd }

/-- SESSION_END (R89, R416). -/
def execSessionEnd (c : Cmd) (s : State) : Host.Outcome State Fault Refusal := command specSessionEnd c s

def bodyApprovedGet : Body := fun _ x s =>
  let last := match findSession s x.session with | some y => y.lastApproved | none => true
  okWith s [b2n (approved s) + 2 * b2n last]

def specApprovedGet : OpSpec := { code := 0x070B, priv := 2, body := bodyApprovedGet }

/-- APPROVED_GET (R437). -/
def execApprovedGet (c : Cmd) (s : State) : Host.Outcome State Fault Refusal := command specApprovedGet c s

/-! ## Self-tests (R434 to R436) -/

/-- A self-test has failed: the FATAL source fires (R435). -/
def failTest (cause : Nat) (s : State) : State :=
  fire (srcCentral 2) cause 0 noActor (setSec (fun x => { x with testsOk := false }) s)

/-- SELFTEST runs for at most 5 ms, a free time; whether its tests pass is the environment's. -/
def bodySelftest : Body := fun _ x s =>
  pure (drawn (setSec (fun y => { y with testing := some (s.dc + 1 + freeVal s % 10000000, x.env.testsOk) }) s), .later .selftest [])

/-- A SELFTEST whose time has come replies (R436); a test that failed leads to Basalt (R435). -/
def endSelftest (s : State) : State :=
  match s.sec.testing with
  | some (t, ok) =>
    if s.dc < t then s
    else
      let s := setSec (fun x => { x with testing := none }) s
      let s := if ok then s else failTest 1 s
      endOp .selftest 0 (le 4 (bdStatus s)) s
  | none => s

def specSelftest : OpSpec := { code := 0x070A, priv := 1, body := bodySelftest }

/-- SELFTEST (R436). -/
def execSelftest (c : Cmd) (s : State) : Host.Outcome State Fault Refusal := command specSelftest c s

/-- SELF_TEST_FAILURE (R435): the codes of R458 are 1 to 4. -/
def execSelfTestFailure (cause : Nat) (s : State) : Host.Outcome State Fault Refusal :=
  act s fun s => if 1 ≤ cause && cause ≤ 4 then failTest cause s else s

/-! ## Locks (R439 to R441) -/

/-- Bits of BD_LOCK close, in OTP too where they are one-time-programmable; closing CERTIFIED closes DEBUG and ANCHOR. -/
def closeLocks (m : BitVec 6) (s : State) : State :=
  let m := if m.getLsbD 0 then m ||| 7#6 else m
  setNv (fun v => { v with certified := v.certified || m.getLsbD 0, anchorLk := v.anchorLk || m.getLsbD 2 })
    (setSec (fun x => { x with lock := x.lock ||| m }) s)

/-- Entries of an MPU are locked (R440). -/
def lockEntries (m mask : Nat) (s : State) : State :=
  setMpu m (fun u => { u with locks := (List.range 64).filter fun e => u.locks.contains e || bit mask e }) s

def bodyLockSet : Body := fun c _ s => do
  let kind ← idF c 0 0 1 none (· ≤ 1)
  let m ← idF c 1 2 1 (some 0) fun v => kind == 0 || decide (v < 132)
  let mask ← anyF c 4 4 0
  let es ← anyF c 8 8 0
  let bits := BitVec.ofNat 6 mask
  let _ ← idF c 4 16 4 (some 0) fun v => !(kind == 0 && (bits.getLsbD 0 || bits.getLsbD 2)) || v == 0x43455254
  if kind = 0 then do
    rejectIf (bits.getLsbD 0 && !certified s && !(s.sec.testsOk && (List.range 4).any (anchorIn s))) stInvalidState
    okWith (closeLocks bits s) []
  else do
    busyIf s fun k => match k with | .garnet x => x == m || x == 0xFFFF | _ => false
    okWith (lockEntries m es s) []

def specLockSet : OpSpec :=
  { code := 0x0708, priv := 1, body := bodyLockSet,
    layout := { flds := [(0, 1), (2, 1), (4, 4), (8, 8), (16, 4)], fin := 20 } }

/-- LOCK_SET (R440, R441). -/
def execLockSet (c : Cmd) (s : State) : Host.Outcome State Fault Refusal := command specLockSet c s

/-! ## Zeroization (R438) -/

/-- A port enters DOWN as PORT_DOWN takes it, if it is not there or DISABLED (R38, R438); what runs on it replies ABORTED
(R75). -/
def zeroPort (s : State) (p : Nat) : State :=
  let s := abortOp (.portDown p) s
  if portSt s p == some .disabled || portSt s p == some .down then s else (meetDown p s).1

/-- A port with a link stream (R438). -/
def hasLinkStream (q : Port) : Bool := q.typ != .span && q.std.ide.any fun e => e.2.kind == 0 && e.2.secure

/-- SCOPE 0: spans and ports with a link stream DOWN, streams insecure, TDIs in ERROR, secrets gone, sessions ended; that of
the issuer once its reply has left. -/
def zeroAll (issuer : Nat) (s : State) : State :=
  let down := (s.ports.filter fun e => e.2.typ == .span || hasLinkStream e.2).map (·.1)
  let s := down.foldl zeroPort s
  let s := { s with
    ports := tmap s.ports fun _ q => { q with std := { q.std with ide := tmap q.std.ide fun _ i => { i with secure := false, keys := [] } } },
    bays := tmap s.bays fun _ y => { y with tdi := .error } }
  setSec (fun x => { x with
    identity := false, drbg := false,
    sessions := (x.sessions.filter fun y => y.id == issuer).map fun y => { y with ending := true } }) s

/-- SCOPE 2: the IDE streams of a port, with the TDIs of its selective streams. -/
def zeroIde (p : Nat) (s : State) : State :=
  match getPort s p with
  | some q =>
    let s := q.std.ide.foldl (fun s e =>
      let s := if e.2.kind = 1 && e.2.secure then tdiStreamError p e.2.id s else s
      ideInsecure p e.1 s) s
    if hasLinkStream q then zeroPort s p else s
  | none => s

/-- The erasure ends within its step; the reply still goes out under the issuing session (R438). A span that AMBER takes in
the same cycle replies ABORTED at the end of that flush (R570). -/
def bodyZeroize : Body := fun c x s => do
  let k ← idF c 0 0 1 none (· ≤ 2)
  let p ← idF c 1 2 2 (some 0) fun v =>
    if k = 0 then true else if k = 1 then isType s .span v else isType s .h v || isType s .d v
  let _ ← idF c 2 4 4 none (· == 0x5A45524F)
  if k = 1 && portSt s p != some .disabled && portSt s p != some .down && (meetDown p (abortOp (.portDown p) s)).2 then
    pure (zeroPort s p, .later (.zeroDown p) [])
  else okWith (if k = 0 then zeroAll x.session s else if k = 1 then zeroPort s p else zeroIde p s) []

def specZeroize : OpSpec :=
  { code := 0x0709, priv := 1, body := bodyZeroize, layout := { flds := [(0, 1), (2, 2), (4, 4)], fin := 8 } }

/-- ZEROIZE (R75, R187, R438). -/
def execZeroize (c : Cmd) (s : State) : Host.Outcome State Fault Refusal := command specZeroize c s

/-! ## Debug access (R442) -/

/-- DEBUG_TOKEN: a token signed by a key that matches an installed anchor opens the management cores. -/
def execDebugToken (anchor : Nat) (sigOk : Bool) (s : State) : Host.Outcome State Fault Refusal :=
  act s fun s => if sigOk && anchorOk s anchor && s.boot.bedrock then setSec (fun x => { x with token := true }) s else s

/-- DEBUG_HALT: the port halts or resumes the management cores while DEBUG is open or a token was accepted. -/
def execDebugHalt (halt : Bool) (s : State) : Host.Outcome State Fault Refusal :=
  act s fun s => if !s.sec.lock.getLsbD 1 || s.sec.token then setSec (fun x => { x with halted := halt }) s else s

/-! ## FDID_SET, BUNDLE_KEY_SET -/

def bodyFdidSet : Body := fun c _ s => do
  let f ← idF c 0 0 1 none (· < 256)
  rejectIf (s.ports.any fun e => e.2.typ == .span && (e.2.st == .training || e.2.st == .up || e.2.st == .hold)) stInvalidState
  okWith (setBoot (fun b => { b with fdid := f }) s) []

def specFdidSet : OpSpec := { code := 0x0102, body := bodyFdidSet, layout := { flds := [(0, 1)], fin := 4 } }

/-- FDID_SET (R90). -/
def execFdidSet (c : Cmd) (s : State) : Host.Outcome State Fault Refusal := command specFdidSet c s

/-- A big-endian number. -/
def beVal (bs : Bytes) : Nat := unle bs.reverse

def bodyBundleKeySet : Body := fun c _ s => do
  let k ← idF c 0 0 1 none (· ≤ 3)
  let x := beVal (slice c.bytes 4 48)
  let y := beVal (slice c.bytes 52 48)
  let _ ← idF c 1 4 48 none fun _ => decide (c.bytes.length ≤ 52) || onP384 x y
  let _ ← idF c 2 52 48 none fun _ => onP384 x y
  rejectIf (s.sec.lock.getLsbD 3) stLocked
  okWith (setNv (fun v => { v with bundleKeys := tset v.bundleKeys k (x, y) }) s) []

def specBundleKeySet : OpSpec :=
  { code := 0x0103, priv := 1, body := bodyBundleKeySet, layout := { flds := [(0, 1), (4, 48), (52, 48)], fin := 100 } }

/-- BUNDLE_KEY_SET (R439). -/
def execBundleKeySet (c : Cmd) (s : State) : Host.Outcome State Fault Refusal := command specBundleKeySet c s

/-! ## BUNDLE_LOAD (R77, R91) -/

/-- Bytes copied to an offset of the staging store; a byte between that was never written reads 0. -/
def stageWrite (old : Bytes) (off : Nat) (bs : Bytes) : Bytes :=
  if bs.isEmpty then old
  else (old ++ List.replicate (off - old.length) 0).take off ++ bs ++ old.drop (off + bs.length)

/-- The command packets of a bundle: `n` of them, each starting 8-byte aligned, filling the space exactly (R77). -/
def splitPackets : Nat → Bytes → Option (List Bytes)
  | 0, bs => if bs.isEmpty then some [] else none
  | n + 1, bs =>
    let len := 16 + unle (slice bs 4 2)
    let pad := ceilDiv len 8 * 8
    if bs.length < pad then none
    else (splitPackets n (bs.drop pad)).map fun r => bs.take len :: r

/-- The 96 bytes of a signature: r then s, each 48 bytes little-endian by R8 (DEDUCED, log 67). -/
def sigOf (bs : Bytes) : Nat × Nat := (unle (slice bs 0 48), unle (slice bs 48 48))

/-- The staged bytes but the last 96, signed under the key of a slot (R77). -/
def bundleSigned (s : State) (bs : Bytes) : Bool :=
  match tget s.nv.bundleKeys (unle (slice bs 18 2)) with
  | some k =>
    let g := sigOf (bs.drop (bs.length - 96))
    Crypto.ecdsaOk k.1 k.2 (bs.take (bs.length - 96)) g.1 g.2
  | none => false

/-- What verification finds (R77, R91): a status, or the sequence number and the packets. -/
def verifyBundle (s : State) (bs : Bytes) : Nat ⊕ (Nat × List Bytes) :=
  let n := bs.length
  let seq := unle (slice bs 12 4)
  let fdid := unle (slice bs 16 2)
  if n < 256 || n % 8 != 0 || unle (slice bs 8 4) != n then .inl stInvalidParam
  else if !bundleSigned s bs then .inl stAuthFail
  else if seq ≤ s.nv.bseq then .inl stStale
  else if unle (slice bs 0 4) != 0x424E564C || unle (slice bs 4 2) != 1 || !(fdid == 0xFFFF || fdid == s.boot.fdid) then
    .inl stInvalidParam
  else
    match splitPackets (unle (slice bs 20 4)) (slice bs 64 (n - 160)) with
    | some l => if l.isEmpty then .inl stInvalidParam else .inr (seq, l)
    | none => .inl stInvalidParam

/-- The bytes a command reads from host memory; those the environment does not give read 0. -/
def hostBytes (x : Cmd) (n : Nat) : Bytes := (x.env.hostData ++ List.replicate (n - x.env.hostData.length) 0).take n

def bodyBundleLoad : Body := fun c x s => do
  let src ← elseF c 0 0 1 0 (· ≤ 1) 0
  let last ← elseF c 1 1 1 1 (· ≤ 1) 1
  let off ← idF c 2 4 4 (some 0) (· ≤ 1048576)
  let _ ← idF c 3 8 8 (some 0) fun v => src == 1 || v % 8 == 0
  match raw c 16 4 with
  | none => rejectAt stInvalidParam 4
  | some n =>
    rejectIfAt (decide (1048576 < off + n)) stTooLarge 4
    rejectIf (src == 0 && s.boot.mgr.isNone) stInvalidState
    let data := if src = 1 then slice c.bytes 24 n else hostBytes x n
    let bs := stageWrite (if off = 0 then [] else s.stage.bytes) off data
    if last = 0 then okWith { s with stage := { bytes := bs } } []
    else
      match verifyBundle s bs with
      | .inl st => pure ({ s with stage := { bytes := bs } }, .done st [])
      | .inr v => okWith { s with stage := { bytes := bs, verified := some v } } []

def specBundleLoad : OpSpec :=
  { code := 0x0104, priv := 1, body := bodyBundleLoad,
    layout := { flds := [(0, 1), (1, 1), (4, 4), (8, 8), (16, 4)], fin := 24,
                list := some { off := 24, size := 1, cOff := 16, cW := 4, cond := some (0, 1) } } }

/-- BUNDLE_LOAD (R77, R91). -/
def execBundleLoad (c : Cmd) (s : State) : Host.Outcome State Fault Refusal := command specBundleLoad c s

/-! ## Mezzanine images (R420 to R422, R92) -/

/-- Why an image is not accepted: the CAUSE of IMAGE_REJECT, 0 when it is accepted (R420, R458). -/
def imageFault (s : State) (i : Image) : Nat :=
  if !i.readOk then 4
  else if !i.magicOk || decide (6291456 < i.ilen) then 1
  else if (s.nv.keySlots[i.keyslot]?.getD (0, true)).2 || !i.sigOk then 2
  else if i.svn < s.nv.svnFloor then 3 else 0

/-- The image of a flash slot is accepted by R420. -/
def slotAccepted (s : State) (k : Nat) : Option Image :=
  match tget s.nv.images k with
  | some i => if imageFault s i = 0 then some i else none
  | none => none

/-- A public key whose hash a signing slot holds verifies the signature over the first ILEN - 96 bytes (R420). -/
def imageSigned (s : State) (bs : Bytes) : Bool :=
  let n := unle (slice bs 12 4)
  let g := sigOf (slice bs (n - 96) 96)
  decide (160 ≤ n) && decide (n ≤ bs.length)
    && (match s.nv.keySlots[bs[16]?.getD 0]? with
        | some k =>
          let msg := bs.take (n - 96)
          (Crypto.ecdsaKeys msg g.1 g.2).any fun q =>
            shaOf (Crypto.toBE 48 q.1 ++ Crypto.toBE 48 q.2) == k.1 && Crypto.ecdsaOk q.1 q.2 msg g.1 g.2
        | none => false)

/-- The image that bytes hold (R420): its header, its digest, and whether its signature verifies. -/
def imageOf (s : State) (bs : Bytes) : Image :=
  { magicOk := unle (slice bs 0 4) == 0x4D5A5A31, ilen := unle (slice bs 12 4), keyslot := bs[16]?.getD 0 % 256,
    sigOk := imageSigned s bs, version := unle (slice bs 4 4), svn := unle (slice bs 8 4),
    digest := shaOf (bs.take (unle (slice bs 12 4))) }

/-- The slot FW_UPDATE writes (R92). -/
def updateSlot (s : State) : Nat :=
  if s.boot.image.isSome then 1 - s.boot.slot % 2 else 1 - (s.nv.select.getD 0) % 2

/-- A slot whose read-back differs holds bytes that no signature covers. -/
def bodyFwUpdate : Body := fun c x s => do
  let _ ← idF c 0 0 8 none (· % 8 == 0)
  match raw c 8 4 with
  | none => rejectAt stInvalidParam 1
  | some n =>
    rejectIfAt (decide (6291456 < n)) stTooLarge 1
    rejectIf s.boot.mgr.isNone stInvalidState
    rejectIf (s.sec.lock.getLsbD 4) stLocked
    let i := imageOf s (hostBytes x n)
    rejectIfAt (i.ilen != n) stInvalidParam 1
    let f := imageFault s i
    rejectIf (f == 3) stStale
    rejectIf (f != 0) stAuthFail
    let k := updateSlot s
    if x.env.readBackOk then
      okWith (setNv (fun v => { v with images := tset v.images k i }) s) ([k, 0, 0, 0] ++ le 4 i.version)
    else pure (setNv (fun v => { v with images := tset v.images k { i with sigOk := false } }) s, .done stAborted [])

def specFwUpdate : OpSpec :=
  { code := 0x0106, priv := 1, body := bodyFwUpdate, layout := { flds := [(0, 8), (8, 4)], fin := 16 } }

/-- FW_UPDATE (R92, R422). -/
def execFwUpdate (c : Cmd) (s : State) : Host.Outcome State Fault Refusal := command specFwUpdate c s

/-- The SVN floor rises to the SVN of an accepted image and never falls (R421). -/
def raiseFloor (k : Nat) (s : State) : State :=
  match slotAccepted s k with
  | some i => setNv (fun v => { v with svnFloor := max v.svnFloor i.svn }) s
  | none => s

def bodyFwSelect : Body := fun c _ s => do
  let k ← idF c 0 0 1 none (· ≤ 1)
  let r ← elseF c 1 1 1 0 (· ≤ 1) 0
  rejectIf (s.sec.lock.getLsbD 4) stLocked
  rejectIf (r == 1 && (slotAccepted s k).isNone) stInvalidState
  let s := setNv (fun v => { v with select := some k }) s
  okWith (if r = 1 then raiseFloor k s else s) []

def specFwSelect : OpSpec :=
  { code := 0x0107, priv := 1, body := bodyFwSelect, layout := { flds := [(0, 1), (1, 1)], fin := 2 } }

/-- FW_SELECT (R421). -/
def execFwSelect (c : Cmd) (s : State) : Host.Outcome State Fault Refusal := command specFwSelect c s

end Sys2Proof.Machine
end

