-- ==== Sys2Proof/Machine/Atrium.lean ====
section
/-! DEFINITION. Atrium: collection, history, event ring, interrupts, collected reactions, Basalt, and the detectors that no
other family holds (12_atrium R456 to R476; 01_architecture R28, R47, R567; 16_package R560, R562). -/

namespace Sys2Proof.Machine

open Sys2Proof

/-! ## Basalt (R474 to R476, R567) -/

/-- Basalt takes effect in every hall at once: links idle, keys erased, sessions ended, the cores halted; ports and
channels keep their state; operations end, answered on I3C alone. -/
def enterBasalt (src : Nat) (s : State) : State :=
  if s.boot.basalt then s
  else
    let s := setAtr (fun a => { a with basaltRec := some src, wired := [] }) s
    let s := setBoot (fun b => { b with basalt := true, mezz := .stopped, image := none }) s
    let s := abortOps (fun _ => true) (endRuns s)
    let s := { s with
      ports := tmap s.ports fun _ q => { q with
        st := (cameFrom s q).getD q.st, scfg := { q.scfg with keys := {} },
        std := { q.std with ide := tmap q.std.ide fun _ i => { i with secure := false, keys := [] } } },
      lanes := tmap s.lanes fun _ l => { l with cdr := false, aligned := false, rate := 15 } }
    setSec (fun x => { x with identity := false, drbg := false, sessions := [] }) s

/-- The wired BASALT reaction that takes effect first; of those of one cycle, the lowest source (R461, R476). -/
def basaltNext (s : State) : Option Wired :=
  let l := s.atr.wired.filter fun w => w.react == 4
  match leastBy (·.due) l with
  | some w => leastBy (·.source) (l.filter fun x => x.due == w.due)
  | none => none

/-- BASALT_ENTRY (R461, R474): 10 dc after the firing. -/
def execBasaltEntry (s : State) : Host.Outcome State Fault Refusal :=
  act s fun s =>
    match basaltNext s with
    | some w => enterBasalt w.source (clockTo w.due s)
    | none => s

/-- ROOT_PLL_LOCK_LOSS (R28, R468, R476): the Basalt path is driven directly, no clock collects the firing, and AT_BASALT
names it unless Basalt was there before. -/
def execRootPllLockLoss (s : State) : Host.Outcome State Fault Refusal :=
  .next (if s.boot.por || !s.boot.pll then s
    else setBoot (fun b => { b with pll := false }) (setAtr (fun a => { a with stopped := true }) (enterBasalt (srcCentral 0) s)))

/-! ## Records (R459, R469) -/

/-- The 16 bytes of a history entry. -/
def entryBytes (e : Event) : Bytes :=
  le 8 e.ts ++ le 2 e.source ++ [e.cls, b2n e.merged + 2 * b2n e.tInv + 4 * e.react] ++ le 4 e.detail.toNat

/-- The order of the history's keys: timestamp, then source (R469). -/
def keyLt (a b : Event) : Bool := decide (a.ts < b.ts) || (a.ts == b.ts && decide (a.source < b.source))

/-- An event in its place in ascending key order. -/
def insertEvent (e : Event) : List Event → List Event
  | [] => [e]
  | x :: r => if keyLt e x then e :: x :: r else x :: insertEvent e r

/-- An event enters the history of 32: the lowest key leaves a full one, and the overflow is counted (R469). -/
def intoHistory (e : Event) (a : Atrium) : Atrium :=
  let l := insertEvent e a.hist
  if l.length ≤ 32 then { a with hist := l } else { a with hist := l.tail, ovHist := satAdd 16 a.ovHist 1 }

/-! ## Event ring and interrupt (R470, R471) -/

/-- The event ring takes a slot: the index it is written at, where PF0 of the managing H port can write host memory. A full
ring counts the loss (R471); a clear Bus Master Enable drops the write (R222). -/
def ringSlot (s : State) : State × Option Nat :=
  match s.atr.ring, s.boot.mgr with
  | some (_, slots, _), some p =>
    match getPort s p with
    | some q =>
      if s.boot.basalt || q.st != .up then (s, none)
      else if !q.std.bme then (bumpPort p 0x018 1 s, none)
      else if slots ≤ (s.atr.prod + 65536 - s.atr.cons) % 65536 then
        (noteSet .atRingDrop (setAtr (fun a => { a with ovRing := satAdd 16 a.ovRing 1, ringDrop := true }) s), none)
      else (setAtr (fun a => { a with prod := (a.prod + 1) % 65536 }) s, some (s.atr.prod % slots))
    | none => (s, none)
  | _, _ => (s, none)

/-- A slot of the event ring is written in the host memory of PF0 of the managing H port (R471). -/
def ringWrite (k : Nat) (bs : Bytes) (s : State) : State :=
  match s.atr.ring, s.boot.mgr with
  | some (a, _, _), some p => emit (.hostWrite p (a + 32 * k) bs) s
  | _, _ => s

/-- A ring slot of TYPE 0 (R471): its reserved bytes are 0 (R17). -/
def eventBytes (e : Event) (seq : Nat) : Bytes := entryBytes e ++ le 4 seq ++ le 12 0

/-- A drained event is written to the ring when its class reaches MIN_CLASS. SEQ counts every drained event, this one
included (DEDUCED, log 37). -/
def ringEvent (e : Event) (s : State) : State :=
  let s := setAtr (fun a => { a with seq := (a.seq + 1) % 2 ^ 32 }) s
  match s.atr.ring with
  | some (_, _, minCls) =>
    if e.cls < minCls then s
    else
      match ringSlot s with
      | (t, some k) => ringWrite k (eventBytes e t.atr.seq) t
      | (t, none) => t
  | none => s

/-- AT_INT_STATUS.EVENT is set; when it rises and MSI_EN is 1, PF0 of the managing H port sends the vector (R470). -/
def raiseEvent (s : State) : State :=
  let s := noteSet .atEvent s
  if s.atr.event then s
  else
    let s := setAtr (fun a => { a with event := true }) (noteAlert s)
    match s.boot.mgr with
    | some p => if s.atr.msiEn then msix (.pf0 p) s.atr.vector s else s
    | none => s

/-! ## Drain (R460, R461, R464) -/

/-- Sources whose OBJECT is a port (R457, R458). -/
def objIsPort (src : Nat) : Bool :=
  match centralNum src with
  | some c => c == 8 || c == 9 || c == 10
  | none => decide (src % 256 < 196) || src % 256 == 230

/-- A collected reaction of a CORRECTED or DEGRADED source (R460, R461). -/
def collected (e : Event) (s : State) : State :=
  if s.boot.basalt || decide (2 ≤ e.cls) then s
  else if e.react = 2 then
    (if objIsPort e.source then enterAmber (detObject e.detail) e.source (detCause e.detail) s else s)
  else if e.react = 3 then
    (if (tget s.bays (detActor e.detail)).isSome then startOwnReset (detActor e.detail) 5 s else s)
  else if e.react = 4 then enterBasalt e.source s
  else s

/-- A pending event as this CLK_A cycle drains it, and the firing of this cycle that sets the bit again (R465). -/
def drainSplit (s : State) (e : Event) : Event × Option Event :=
  match tget s.atr.again e.source with
  | some (g, m) => if g.cyc = s.dc / 8 then ({ e with merged := m }, some g) else (e, none)
  | none => (e, none)

/-- An event passes to the central Atrium. -/
def drained (lane : Nat) (p : Event) (s : State) : State :=
  let (e, next) := drainSplit s p
  let s := setAtr (fun a => intoHistory e { a with
    pend := (match next with | some g => tset a.pend e.source g | none => tdel a.pend e.source),
    again := tdel a.again e.source, lanePtr := tset a.lanePtr lane (e.source % 256), laneAt := tset a.laneAt lane (s.dc / 8) }) s
  let s := ringEvent e s
  let s := if e.react = 0 then s else raiseEvent s
  collected e s

/-- The pending sources of a lane. -/
def lanePend (s : State) (lane : Nat) : List Event := (s.atr.pend.filter fun e => e.1 / 256 == lane).map (·.2)

/-- The first of some events after a lane's pointer, with wrap (R464). -/
def afterPtr (ptr : Nat) (l : List Event) : Option Event :=
  leastBy (fun e => (e.source % 256 + 511 - ptr) % 256) l

/-- The CLK_A cycle in which a lane drains next: after its last drain and after the firing of an event it can take. -/
def drainCycle (s : State) (lane : Nat) (l : List Event) : Nat :=
  let first := match leastBy (·.cyc) l with | some e => e.cyc + 1 | none => 0
  let again := match tget s.atr.laneAt lane with | some k => k + 1 | none => 0
  max (s.dc / 8) (max first again)

/-- EVENT_DRAIN (R464): it goes on in Basalt, but not after ROOT_PLL (R474). -/
def execEventDrain (lane : Nat) (s : State) : Host.Outcome State Fault Refusal :=
  .next (if s.boot.por || !s.boot.atr || s.atr.stopped || decide (8 ≤ lane) then s
    else
      let l := lanePend s lane
      let k := drainCycle s lane l
      match afterPtr (tgetD s.atr.lanePtr lane 255) (l.filter fun e => decide (e.cyc < k)) with
      | some e => drained lane e (clockTo (8 * k) s)
      | none => s)

/-! ## Detectors -/

/-- ATRIUM_SELF (R473): 1 the two copies differ, 2 an uncorrectable error in a copy. -/
def execAtriumSelf (cause : Nat) (s : State) : Host.Outcome State Fault Refusal :=
  .next (if !s.boot.por && (cause == 1 || cause == 2) then fire (srcCentral 1) cause 0 noActor s else s)

/-- THERMAL_WARN and THERMAL_TRIP of the grade in quarter degrees (R560). -/
def warnAt (s : State) : Int := if s.nv.gradeCx then 460 else 420
def tripAt (s : State) : Int := if s.nv.gradeCx then 520 else 480

/-- THERMAL_SAMPLE (R560, R562): the trip fires as the sensor reaches its limit, the warning too, re-armed 5 degrees below. -/
def execThermalSample (die : Nat) (quarterC : Int) (s : State) : Host.Outcome State Fault Refusal :=
  .next (if s.boot.por || !s.boot.pll || decide (10 ≤ die) then s
    else
      let s := { s with temps := tset s.temps die quarterC }
      let trip := decide (tripAt s ≤ quarterC)
      let warn := decide (warnAt s ≤ quarterC)
      let s1 := if trip && !s.atr.hot.contains die then fire (srcCentral 4) 1 die noActor s else s
      let s1 := if warn && !s.atr.warm.contains die then fire (srcCentral 5) 1 die noActor s1 else s1
      setAtr (fun a => { a with
        hot := if trip then (if a.hot.contains die then a.hot else a.hot ++ [die]) else a.hot.filter (· != die),
        warm := if warn then (if a.warm.contains die then a.warm else a.warm ++ [die])
                else if quarterC ≤ warnAt s - 20 then a.warm.filter (· != die) else a.warm }) s1)

/-- UNCORRECTABLE_MEMORY_ERROR (R457, R458): a hall memory, the cell buffer, a cell's data, a central memory. -/
def execUncorrectableMemoryError (err : MemErr) (s : State) : Host.Outcome State Fault Refusal :=
  .next (if s.boot.por || !s.boot.pll then s
    else
      match err with
      | .hallMem h => if h < 8 then fire (srcHall h 231) 1 0 noActor s else s
      | .hallCorr h => if h < 8 then fire (srcHall h 229) 1 0 noActor s else s
      | .cellData p mid =>
        if inUse s p && (tget s.cells mid).isSome then
          fireDegr p 15 { s with cells := tmod s.cells mid fun x => { x with msg := { x.msg with poison := true } } }
        else s
      | .centralMem c => if 1 ≤ c && c ≤ 3 then fire (srcCentral 3) c 0 noActor s else s)

/-- HALL_LINK_ERROR (R457). -/
def execHallLinkError (hall : Nat) (s : State) : Host.Outcome State Fault Refusal :=
  .next (if !s.boot.por && s.boot.pll && decide (hall < 8) then fire (srcHall hall 232) 1 0 noActor s else s)

/-! ## Commands -/

def bodyEventReactionSet : Body := fun c _ s => do
  let src ← idF c 0 0 2 none (· < 2048)
  rejectIfAt (srcClass src == 3 || srcFixed src) stDenied 0
  let con := srcClass src == 2
  let r ← rangeF c 1 2 1 (if con then 2 else 1) (if con then 2 else 0) 4
  okWith (setAtr (fun a => { a with
    reactWas := tset a.reactWas src (s.dc / 8, reactNow s src),
    react := if r = srcReset src then tdel a.react src else tset a.react src r }) s) []

def specEventReactionSet : OpSpec :=
  { code := 0x0801, body := bodyEventReactionSet, layout := { flds := [(0, 2), (2, 1)], fin := 3 } }

/-- EVENT_REACTION_SET (R43, R87, R462). -/
def execEventReactionSet (c : Cmd) (s : State) : Host.Outcome State Fault Refusal := command specEventReactionSet c s

/-- CLEAR of the two reads of the record; in Basalt 1 is applied as 0 (R475). -/
def clearF (s : State) (c : Params) : Chk Nat := elseF c 0 0 1 0 (fun v => v == 0 || (v == 1 && !s.boot.basalt)) 0

def layoutClear : Layout := { flds := [(0, 1)], fin := 1 }

/-- FIRST_EVENT as a CLEAR leaves it: a firing in the commit cycle is captured (R468). -/
def firstCleared (s : State) : Option Event := s.atr.fired.filter fun e => e.cyc == s.dc / 8

def bodyFirstEventRead : Body := fun c _ s => do
  let k ← clearF s c
  let d := match s.atr.first with | some e => 1 :: entryBytes e | none => List.replicate 17 0
  okWith (if k = 1 then setAtr (fun a => { a with first := firstCleared s }) s else s) d

def specFirstEventRead : OpSpec := { code := 0x0802, body := bodyFirstEventRead, layout := layoutClear }

/-- FIRST_EVENT_READ (R468, R475). -/
def execFirstEventRead (c : Cmd) (s : State) : Host.Outcome State Fault Refusal := command specFirstEventRead c s

def bodyHistoryRead : Body := fun c _ s => do
  let k ← clearF s c
  let d := [s.atr.hist.length, 0] ++ le 2 s.atr.ovHist ++ le 2 s.atr.ovRing ++ s.atr.hist.flatMap entryBytes
  okWith (if k = 1 then setAtr (fun a => { a with hist := [], ovHist := 0, ovRing := 0, basaltRec := none }) s else s) d

def specHistoryRead : OpSpec := { code := 0x0803, body := bodyHistoryRead, layout := layoutClear }

/-- HISTORY_READ (R469, R475). -/
def execHistoryRead (c : Cmd) (s : State) : Host.Outcome State Fault Refusal := command specHistoryRead c s

/-- SLOTS as applied: the nearest power of two from 16 to 1,024 not above the request, or 16. -/
def slotsApp (v : Nat) : Nat := if v < 16 then 16 else min 1024 (2 ^ Nat.log2 v)

def bodyEventRingSet : Body := fun c _ s => do
  let a ← idF c 0 0 8 none (· % 4096 == 0)
  let n ← cfgF c 1 8 2 256 slotsApp
  let m ← elseF c 2 10 1 0 (· ≤ 3) 3
  okWith (setAtr (fun x => { x with ring := if a = 0 then none else some (a, n, m), prod := 0, cons := 0 }) s) []

def specEventRingSet : OpSpec :=
  { code := 0x0804, body := bodyEventRingSet, layout := { flds := [(0, 8), (8, 2), (10, 1)], fin := 11 } }

/-- EVENT_RING_SET (R471). -/
def execEventRingSet (c : Cmd) (s : State) : Host.Outcome State Fault Refusal := command specEventRingSet c s

/-! ## Registers of Atrium with rows of their own -/

/-- AT_EVR_CONS_WRITE (R471). -/
def execAtEvrConsWrite (cons : Nat) (s : State) : Host.Outcome State Fault Refusal :=
  act s fun s => if mgrReach s then setAtr (fun a => { a with cons := cons % 65536 }) s else s

/-- A write of AT_INT_STATUS (R13, R470, R471): ones clear EVENT and RING_DROP. -/
def clearIntStatus (v : Nat) (s : State) : State :=
  setAtr (fun a => { a with event := w1c s .atEvent a.event (bit v 0), ringDrop := w1c s .atRingDrop a.ringDrop (bit v 1) }) (noteAlert s)

/-- AT_INT_STATUS_WRITE (R470, R471). -/
def execAtIntStatusWrite (value : Nat) (s : State) : Host.Outcome State Fault Refusal :=
  act s fun s => if mgrReach s then clearIntStatus value s else s

end Sys2Proof.Machine
end

