-- ==== Sys2Proof/Machine/Boot.lean ====
section
/-! DEFINITION. Power-up, the boot timeline, Mezzanine's stops and restarts, and the resets (14_startup R513 to R537). -/

namespace Sys2Proof.Machine

open Sys2Proof

/-! ## Cold reset (R516, R517, R533, R534) -/

/-- BD_LOCK at a cold reset: CERTIFIED and ANCHOR from OTP, DEBUG equal to CERTIFIED, the rest open (R439). -/
def lockReset (v : Nv) : BitVec 6 := BitVec.ofNat 6 (3 * b2n v.certified + 4 * b2n v.anchorLk)

/-- The record kept in VDD_AON (R476). -/
def aonRecord (a : Atrium) : Atrium :=
  { first := a.first, hist := a.hist, ovHist := a.ovHist, ovRing := a.ovRing, basaltRec := a.basaltRec }

/-- The state while POR_N acts low: OTP, flash, bundle keys and the VDD_AON record stay; pins keep their levels; everything
else is at its reset value, and whatever ran is gone. -/
def coldState (s : State) : State :=
  { ({} : State) with
    nv := s.nv, atr := aonRecord s.atr, sec := { lock := lockReset s.nv }, temps := s.temps,
    boot := { por := true, pin := s.boot.pin, rails := s.boot.rails, straps := s.boot.straps, perst := s.boot.perst,
              causeNext := s.boot.causeNext },
    freeN := s.freeN, nextMid := s.nextMid, pending := s.pending,
    out := ((s.nw.chs.filter fun e => gateOn e.2).map fun e => Output.newelGate e.1 false).reverse ++ s.out }

/-- A cause of a cold reset acts: one begins, or the one in progress gathers it (R533, R536, R537). -/
def coldCause (c : BitVec 7) (s : State) : State :=
  if s.boot.por then setBoot (fun b => { b with causeNext := b.causeNext ||| c }) s
  else
    coldState (setBoot (fun b => { b with causeNext := c ||| (if b.basalt then 0x20 else 0) }) s)

/-- Nothing holds the device in reset any longer: time 0 of the boot timeline (R514, R515, R537). -/
def release (s : State) : State :=
  if s.boot.por && !s.boot.pin && s.boot.rails.isEmpty then
    { setBoot (fun b => { b with
        por := false, cause := b.causeNext, causeNext := 0, pmapBad := decide (5 < b.straps.pmap) }) s with dc := 0, ft := {} }
  else s

/-- POR_N_LOW (R517, R533). -/
def execPorNLow (s : State) : Host.Outcome State Fault Refusal :=
  .next (if s.boot.pin then s else coldCause 2 (setBoot (fun b => { b with pin := true }) s))

/-- POR_N_RISE (R514, R516, R518): the straps are sampled; VDD_AON that came from below its range leaves no record. -/
def execPorNRise (straps : Straps) (aonLost : Bool) (s : State) : Host.Outcome State Fault Refusal :=
  .next (if !s.boot.pin then s
    else
      let st : Straps := { straps with pmap := straps.pmap % 16, mgrHall := straps.mgrHall % 8 }
      let s := setBoot (fun b => { b with
        pin := false, straps := st, causeNext := if aonLost then b.causeNext ||| 0x41 else b.causeNext }) s
      release (if aonLost then setAtr (fun _ => {}) s else s))

/-- RAIL_OUT_OF_RANGE (R515): VDD_CORE 0, VDD_SRDS 1, VDDA_PLL 2, VDD_IO 3. -/
def execRailOutOfRange (rail : Nat) (s : State) : Host.Outcome State Fault Refusal :=
  .next (if decide (4 ≤ rail) || s.boot.rails.contains rail then s
    else coldCause 4 (setBoot (fun b => { b with rails := b.rails ++ [rail] }) s))

/-- RAIL_RESTORED (R515): back in range for 1 ms. The straps the board holds are those sampled before (DEDUCED, log 38). -/
def execRailRestored (rail : Nat) (s : State) : Host.Outcome State Fault Refusal :=
  .next (if s.boot.rails.contains rail then release (setBoot (fun b => { b with rails := b.rails.filter (· != rail) }) s) else s)

/-! ## Boot timeline (R518 to R526) -/

/-- The layout each hall receives (R519): type, width, first local index, count. -/
def pmapLayout (pmap : Nat) : List (PortType × Nat × Nat × Nat) :=
  match pmap with
  | 1 => [(.h, 16, 0, 1), (.span, 16, 16, 3)]
  | 2 => [(.h, 16, 0, 1), (.span, 16, 16, 1), (.d, 4, 32, 8)]
  | 3 => [(.span, 16, 0, 4)]
  | 4 => [(.h, 16, 0, 2), (.d, 16, 32, 2)]
  | 5 => [(.h, 8, 0, 2), (.span, 16, 16, 1), (.d, 2, 32, 16)]
  | _ => []

/-- The entries of the strap map in ascending PORT order. -/
def strapMap (pmap : Nat) : List MapEnt :=
  (List.range 8).flatMap fun h => (pmapLayout pmap).flatMap fun e =>
    (List.range e.2.2.2).map fun k => (64 * h + e.2.2.1 + e.2.1 * k, e.2.1, e.1)

/-- A port of the strap map: DISABLED, an H port held in DOWN until it trains (R521, R525; DEDUCED, log 27). -/
def bootPort (e : MapEnt) (ns : Nat) : Port :=
  let q := newPort e.2.2 e.2.1 ns
  if e.2.2 == .h then { q with st := .down, std := { q.std with perstDown := true } } else q

/-- The lowest-numbered H port of a hall (R520). -/
def firstH (s : State) (hall : Nat) : Option Nat := (hPorts s).find? fun p => hallOf p == hall

/-- PLL_ROOT_LOCK (R519 to R522, R529): the map, the managing H port, and the channels that NW_AUTO requests. -/
def execPllRootLock (s : State) : Host.Outcome State Fault Refusal :=
  .next (if s.boot.por || s.boot.pll || s.boot.basalt then s
    else
      let es := strapMap s.boot.straps.pmap
      let s := { s with ports := es.map fun e => (e.1, bootPort e (nsNow s)) }
      let s := setBoot (fun b => { b with pll := true, mgr := firstH s b.straps.mgrHall }) s
      let s := refreshValid s
      if s.boot.straps.nwAuto then (List.range 32).foldl (fun s ch => requestChan ch s) (clockTo (clkP (s.dc + 1)) s) else s)

/-- ATRIUM_INIT_DONE (R522). -/
def execAtriumInitDone (s : State) : Host.Outcome State Fault Refusal :=
  .next (if s.boot.por || !s.boot.pll || s.boot.basalt then s else setBoot (fun b => { b with atr := true }) s)

/-- An H port that waits in DOWN trains when its PERST_N is high (R525). -/
def trainHost (s : State) (p : Nat) : State :=
  match getPort s p with
  | some q => if q.st == .down && q.std.perstDown && perstHigh s p then freshTraining p s else s
  | none => s

/-- Bedrock starts to load an image (R421). -/
def startLoad (s : State) : State := setBoot (fun b => { b with mezz := .loading, rejected := [], image := none }) s

/-- BEDROCK_READY (R434, R435, R522, R523, R525): a failed self-test, or a patch that OTP anchors and that is missing or
fails verification, leads to Basalt. -/
def execBedrockReady (patchOk testsOk : Bool) (s : State) : Host.Outcome State Fault Refusal :=
  act s fun s =>
    if s.boot.bedrock then s
    else if !testsOk then failTest 1 s
    else if s.nv.patch && !patchOk then failTest 4 s
    else
      let s := setSec (fun x => { x with testsOk := true, identity := true, drbg := true, drbgReqs := 0 }) s
      let s := startLoad (setBoot (fun b => { b with bedrock := true }) s)
      (hPorts s).foldl trainHost s

/-- Every PF0 is ready (R526). -/
def readyAll (s : State) : State :=
  (hPorts s).foldl (fun s p => setStd p (fun d => { d with ready := true }) s) s

/-- The slot Bedrock loads next: the one last chosen by FW_SELECT or slot 0, then the other (R421). -/
def loadSlot (s : State) : Option Nat :=
  let first := (s.nv.select.getD 0) % 2
  if !s.boot.rejected.contains first then some first
  else if !s.boot.rejected.contains (1 - first) then some (1 - first) else none

/-- MEZZANINE_IMAGE_VERIFIED (R420, R421, R423, R526): what Bedrock reads from the slot it loads, none when the flash cannot
be read. -/
def execMezzanineImageVerified (slot : Nat) (flash : Option Bytes) (s : State) : Host.Outcome State Fault Refusal :=
  act s fun s =>
    if !s.boot.bedrock || s.boot.mezz != .loading || loadSlot s != some slot then s
    else
      let image := match flash with | some bs => imageOf s bs | none => { readOk := false }
      let s := setNv (fun v => { v with images := tset v.images slot image }) s
      let f := imageFault s image
      if f = 0 then setBoot (fun b => { b with mezz := .started, slot := slot, image := some image }) s
      else
        let s := fire (srcCentral 7) f slot noActor (setBoot (fun b => { b with rejected := b.rejected ++ [slot] }) s)
        if (loadSlot s).isNone then readyAll (setBoot (fun b => { b with mezz := .stopped, warm := false }) s) else s

/-- MEZZANINE_RUNNING (R522, R526). -/
def execMezzanineRunning (s : State) : Host.Outcome State Fault Refusal :=
  act s fun s =>
    if s.boot.mezz != .started then s else readyAll (setBoot (fun b => { b with mezz := .running, warm := false }) s)

/-! ## Mezzanine's stops and restarts (R44, R76, R531, R532) -/

/-- Opcodes that Bedrock answers (R41, R80). -/
def privOpcode (code : Nat) : Bool := (decide (0x0103 ≤ code) && decide (code ≤ 0x0108)) || code / 256 == 7

/-- Commands passed to Mezzanine that have no reply are answered ABORTED (R76). -/
def abortMezzOps (s : State) : State :=
  s.ops.foldl (fun s o => if privOpcode o.reply.opcode then s else abortOp o.kind s) s

/-- Mezzanine's restart is counted, and Bedrock loads an image (R423, R532, R537). -/
def restartMezz (s : State) : State := startLoad (setBoot (fun b => { b with restarts := satAdd 8 b.restarts 1 }) s)

/-- Mezzanine stops: the event, the answers, and a restart unless this is the fifth stop within 60 s. -/
def stopMezz (cause object : Nat) (s : State) : State :=
  let s := fire (srcCentral 6) cause object noActor s
  let s := abortMezzOps (setBoot (fun b => { b with
    mezz := .stopped, image := none, stops := s.dc :: b.stops.filter fun t => decide (s.dc < t + 120000000000) }) s)
  if 5 ≤ s.boot.stops.length then setBoot (fun b => { b with limit := true }) s else restartMezz s

/-- Mezzanine executes; a warm reset absorbs a stop that comes before it runs again (R536). -/
def mezzExecutes (s : State) : Bool := s.boot.mezz == .running || (s.boot.mezz == .started && !s.boot.warm)

/-- WATCHDOG_EXPIRY (R531). -/
def execWatchdogExpiry (s : State) : Host.Outcome State Fault Refusal := act s fun s => if mezzExecutes s then stopMezz 1 0 s else s

/-- MEZZ_EXCEPTION (R531). -/
def execMezzException (core : Nat) (s : State) : Host.Outcome State Fault Refusal :=
  act s fun s => if mezzExecutes s && decide (core < 4) then stopMezz 2 core s else s

/-! ## DEVICE_RESET (R535, R536) -/

/-- The wider of two resets: cold, warm, restart. -/
def widerReset (a b : Nat) : Bool := a == 2 || (a == 0 && b != 2)

def bodyDeviceReset : Body := fun c _ s => do
  let k ← idF c 0 0 1 none (· ≤ 2)
  let _ ← idF c 1 4 4 none (· == 0x52534554)
  let new := (k, s.dc + 200000)
  let pend := match s.boot.resetPend with
    | some old => if widerReset k old.1 then new else old
    | none => new
  okWith (setBoot (fun b => { b with resetPend := some pend }) s) []

def specDeviceReset : OpSpec :=
  { code := 0x0108, priv := 1, body := bodyDeviceReset, layout := { flds := [(0, 1), (4, 4)], fin := 8 } }

/-- DEVICE_RESET (R535): the reply at the commit, the reset 100 us later. -/
def execDeviceReset (c : Cmd) (s : State) : Host.Outcome State Fault Refusal := command specDeviceReset c s

/-- A port after a warm reset: its PID stays; its settings and state are those of a cold reset (R534). -/
def warmPort (ns : Nat) (p : Nat) (q : Port) : Port := { bootPort (p, q.width, q.typ) ns with pid := q.pid }

/-- Operations end as a warm reset takes every path of PF0 down; those of Mezzanine's commands reply ABORTED on I3C. What
GARNET_COMMIT waited for is gone, and Bedrock ends it (R76, R453, R534). -/
def warmOps (s : State) : State :=
  s.ops.foldl (fun s o => match o.kind with | .garnet _ => s | _ => abortOp o.kind s) s

/-- A warm reset (R534): every port DOWN and then as after a cold reset; what R534 does not keep is at its reset value. -/
def warmReset (s : State) : State :=
  let moved := (s.ports.filter fun e => !(e.2.st == .disabled || e.2.st == .down)).map (·.1)
  let s := moved.foldl (fun s p => firePipe p 3 s) s
  let s := { s with ports := tmap s.ports fun _ q => { q with st := if q.st == .disabled then .disabled else .down } }
  let s := warmOps (endRuns (setSec (fun x => { x with sessions := [] }) s))
  let s := (tkeys s.bays).foldl (fun s b => startReset b 0 4 s) s
  let s := { s with
    ports := tmap s.ports (warmPort (nsNow s)), lanes := [], cells := [], routes := [], groups := [], coreQ := [],
    undrained := [], mcast := [], tree := [], places := [], qcls := [], tele := [],
    halls := tmap s.halls fun _ h => { mrGen := h.mrGen },
    bays := tmap s.bays fun _ y => { y with bme := false, msixPend := [], msixOpen := [], msixTab := [] } }
  let s := setGn (fun g => { g with
    acc := [], mpus := tmap g.mpus fun _ u => { u with rep := none, cnt := 0, drop := 0 } }) s
  let s := setFt (fun f => { f with
    stepped := false, theta := 0, delay := 0, thetas := [], ptm := 0, ptmAt := 0, latch := [] }) s
  let s := setAtr (fun a => { a with ring := none, prod := 0, cons := 0, event := false, ringDrop := false }) s
  let s := restartMezz (setBoot (fun b => { b with warm := true, limit := false, cause := b.cause ||| 0x10 }) s)
  (hPorts s).foldl trainHost s

/-- DEVICE_RESET KIND 1: Mezzanine restarts, even when R532 left it stopped; a warm reset in progress absorbs it. -/
def mezzRestart (s : State) : State :=
  if s.boot.warm then s
  else restartMezz (setBoot (fun b => { b with limit := false }) (abortMezzOps (setBoot (fun b => { b with mezz := .stopped }) s)))

/-- DEVICE_RESET_BEGIN (R535): 100 us have passed. KIND 2 acts as POR_N low for 1 ms, with rails and straps untouched; in
Basalt only it acts (R475). -/
def execDeviceResetBegin (s : State) : Host.Outcome State Fault Refusal :=
  .next (match s.boot.resetPend with
    | some (k, t) =>
      let s := setBoot (fun b => { b with resetPend := none }) (clockTo t s)
      if s.boot.por then s
      else if k = 2 then release (coldCause 8 s)
      else if s.boot.basalt then s
      else if k = 0 then warmReset s else mezzRestart s
    | none => s)

end Sys2Proof.Machine
end

