-- ==== Sys2Proof/Machine/Flags.lean ====
section
/-! DEFINITION. The status words: what each read-only or composed register reads (15_register_map field maps; 07, 10, 12,
14 for the registers of those chapters). -/

namespace Sys2Proof.Machine

open Sys2Proof

/-- The low 32 bits of a number. -/
def lo32 (n : Nat) : Nat := n % 2 ^ 32
/-- Bits 63 to 32 of a number. -/
def hi32 (n : Nat) : Nat := n / 2 ^ 32 % 2 ^ 32

/-! ## Device (R543) -/

/-- SY_ID: the vendor and 0x5120. -/
def syId : Nat := Config.vendorId.toNat + 0x51200000

/-- SY_REV: stepping B0 and the grade. -/
def syRev (s : State) : Nat := 0x10 + 256 * b2n s.nv.gradeCx

/-- SY_STRAP (14_startup). -/
def syStrap (s : State) : Nat :=
  s.boot.straps.pmap % 16 + 16 * (s.boot.straps.mgrHall % 8) + 128 * b2n s.boot.straps.nwAuto + 256 * b2n s.boot.straps.cellar
    + 512 * b2n s.boot.pmapBad + 1024 * b2n s.boot.mgr.isNone + 2048 * b2n s.nv.fused

/-- SY_RESET_CAUSE (R537). -/
def syResetCause (s : State) : Nat := s.boot.cause.toNat + 2 ^ 16 * (s.boot.restarts % 256)

/-- A word of CK_QUAD_LOCK: bit q mod 32 of word q div 32 (R543). -/
def quadLock (s : State) (word : Nat) : Nat :=
  if s.boot.pll then
    (List.range 32).foldl (fun n b => if s.boot.quadLost.contains (32 * word + b) then n else n + 2 ^ b) 0
  else 0

/-- TM_STATUS (R315, R316, R543): THETA and DELAY saturate, and read 0 on a grandmaster. -/
def tmStatus (s : State) : Nat :=
  let gm := grandmaster s
  let th : Int := if gm then 0 else max (-8191) (min 8191 s.ft.theta)
  let d : Int := if gm then 0 else max 0 (min 16383 s.ft.delay)
  b2n s.ft.valid + 2 * b2n s.ft.stepped + 4 * b2n gm + 16 * (th % 2 ^ 14).toNat + 2 ^ 18 * d.toNat

/-! ## Lanes and spans (R543) -/

/-- LN_STATUS. -/
def lnStatus (l : Lane) : Nat :=
  b2n l.cdr + 2 * b2n l.aligned + 4 * b2n l.inverted + 8 * b2n l.reversed + 16 * b2n l.precode + 32 * b2n l.prbsLock
    + 64 * b2n l.scan.isSome + 128 * (l.ctle % 32) + 2 ^ 12 * (l.rate % 16)

/-- SP_LEAK_EST of a class: whole credits, rounded down; 0 outside M1280 compatibility mode (R190). DESIGN CHOICE
    (log 89): an estimate beyond its field shows its low bits. -/
def leakEst (q : Port) (c : Cls) : Nat :=
  if q.span.compat then cget q.scfg.estD c / 2 ^ 16 % 2 ^ 16 + 2 ^ 16 * (cget q.scfg.estH c / 2 ^ 16 % 2 ^ 12) else 0

/-! ## Switch and scheduler (R286, R543) -/

/-- The fields of SC_LEAF_CFG without VALID. -/
def leafBits (k : LeafCfg) : Nat := k.port % 64 + 64 * (k.service % 8) + 2 ^ 12 * (k.sub % 4096)

/-- SC_LEAF_CFG of a leaf: a bound leaf with VALID 1; another reads the fields last written (R12), 0 for a default leaf. -/
def leafWord (s : State) (h leaf : Nat) : Nat :=
  match leafCfg s h leaf with
  | some k => leafBits k + 2 ^ 31
  | none => match tget (getHall s h).leafOff leaf with | some k => leafBits k | none => 0

/-- SC_METER_ID. -/
def meterId (m : Meter) : Nat := m.port % 64 + 64 * (m.sub % 4096) + 2 ^ 31

/-! ## Atrium (12_atrium, Registers) -/

/-- AT_SRC of a source. FIXED is 1 too for a FATAL source, whose reaction no command changes (R43, R87; DEDUCED, log 39). -/
def atSrc (s : State) (src : Nat) : Nat :=
  let e := tget s.atr.pend src
  srcClass src + 4 * reactOf s src + 32 * b2n (srcFixed src) + 64 * b2n e.isSome
    + 128 * (match e with | some e => b2n e.merged | none => 0)

/-- AT_FIRST_INFO. -/
def atFirstInfo (s : State) : Nat :=
  match s.atr.first with
  | some e => e.source % 2048 + 2 ^ 11 * (e.cls % 4) + 2 ^ 13 * b2n e.tInv + 2 ^ 31
  | none => 0

/-- The timestamp of FIRST_EVENT. -/
def atFirstTs (s : State) : Nat := match s.atr.first with | some e => e.ts | none => 0

/-- AT_INT_CFG. -/
def atIntCfg (s : State) : Nat := s.atr.vector % 2048 + 2 ^ 11 * b2n s.atr.msiEn + 2 ^ 12 * b2n s.atr.alertEn

/-- AT_BASALT (R476). -/
def atBasalt (s : State) : Nat := match s.atr.basaltRec with | some n => n % 2048 + 2 ^ 11 | none => 0

/-! ## Bays (R407, R548) -/

/-- AL_STATUS of a side. -/
def alStatus (side : Side) (y : Bay) : Nat :=
  let a := sideOf side y
  let rx := (rxFifo side y).length
  let tx := (rxFifo (other side) y).length
  rx % 32 + 32 * b2n (rx == 0) + 64 * b2n (decide (16 ≤ tx)) + 2 ^ 8 * (tx % 32) + 2 ^ 13 * b2n a.underrun
    + 2 ^ 14 * b2n a.msg + 2 ^ 15 * b2n a.ptrReset + 2 ^ 16 * b2n a.refused + 2 ^ 17 * b2n a.flushPend

/-- AL_PENDn of an H port: MSG of the manager side of the bays with local indices 32n to 32n + 31 (R548). -/
def alPend (s : State) (p n : Nat) : Nat :=
  (List.range 32).foldl (fun w b =>
    match (bayAt s p (32 * n + b)).bind (tget s.bays) with
    | some y => w + 2 ^ b * b2n y.mside.msg
    | none => w) 0

/-- CM_RING_CFG (R543). -/
def ringCfg (r : Rings) : Nat := r.log % 16 + 16 * b2n r.enable + 32 * b2n r.stopped

/-- CM_RPL_INT (R550). -/
def rplInt (r : Rings) : Nat := r.vector % 2048 + 2 ^ 11 * b2n r.ie

/-- GN_EPOCH (R543). -/
def gnEpoch (u : Mpu) : Nat := u.epoch % 16 + 16 * b2n u.pend

/-! ## MSI-X structures of a function (the standard's; R538, R546) -/

/-- A word of an MSI-X table of 2,048 entries of four words: address, address, data, and the mask bit. -/
def msixWord (tab : Tab Nat) (unmasked : List Nat) (w : Nat) : Nat :=
  if w % 4 = 3 then b2n (!unmasked.contains (w / 4)) else tgetD tab w 0

/-- A word of the pending-bit array. -/
def pbaWord (pend : List Nat) (w : Nat) : Nat :=
  (List.range 32).foldl (fun n b => if pend.contains (32 * w + b) then n + 2 ^ b else n) 0

end Sys2Proof.Machine
end

