-- ==== Sys2Proof/Machine/Registers.lean ====
section
/-! DEFINITION. The register map: blocks, addresses, access, reads and writes of registers, and the rows about registers,
rings, FIFO pointers, counters and telemetry (15_register_map R538 to R552; 00_scope R12 to R20; 02_command_protocol R51,
R89, R97; 10_bays_and_alcoves R410 to R413). Blocks are numbered 0 to 9 as COUNTERS_READ numbers them (LN_ SP_ HP_ SW_ SC_
GE_ GN_ AT_ NW_ TM_), then 10 SY_, 11 CK_, 12 CM_, 13 BD_, 14 a bay's manager page, 15 an H port's page. -/

namespace Sys2Proof.Machine

open Sys2Proof

/-! ## Instances (R542) -/

/-- The instance names an object in use. Every lane 0 to 511 exists (DEDUCED, log 39); SW_ 8 is its device part. -/
def instOk (s : State) (blk inst : Nat) : Bool :=
  match blk with
  | 0 => decide (inst < 512)
  | 1 => isType s .span inst
  | 2 => isType s .h inst || isType s .d inst
  | 3 => decide (inst < 9)
  | 4 => decide (inst < 8)
  | 5 => decide (inst < 8)
  | 6 => decide (inst < 132) && mpuInUse s inst
  | 8 => decide (inst < 32)
  | 12 => isType s .h inst
  | 14 => (tget s.bays inst).isSome
  | 15 => isType s .h inst
  | _ => inst == 0

/-! ## Reads, block by block (R543) -/

/-- The word of a table at `base`, spaced by 4, of `n` words. -/
def inWords (off base n : Nat) : Bool := decide (base ≤ off) && decide (off < base + 4 * n)

def rdLane (s : State) (l off : Nat) : Nat :=
  if off = 0 then lnStatus (getLane s l) else if inWords off 0x10 4 then tgetD (getLane s l).cnt off 0 else 0

def rdSpan (q : Port) (off : Nat) : Nat :=
  if off ≤ 0x30 || inWords off 0x40 4 then tgetD q.cnt off 0
  else if inWords off 0x50 4 then leakEst q (clsOf ((off - 0x50) / 4)) else 0

def rdStd (q : Port) (off : Nat) : Nat :=
  if off = 0 then q.std.amberCause.toNat else if inWords off 0x10 6 then tgetD q.cnt off 0 else 0

def rdSwPort (q : Port) (off : Nat) : Nat :=
  if off < 0x10 then cget q.minUse (clsOf (off / 4)) % 2 ^ 16
  else if off = 0x10 then q.poolUse % 2 ^ 16
  else if inWords off 0x20 4 then tgetD q.cnt (0x1000 + off) 0 else 0

def rdSwitch (s : State) (h off : Nat) : Nat :=
  if h = 8 then (if off < 4 * 64 then tgetD s.undrained (off / 4) 0 else 0)
  else if off = 0 then poolFree s h % 2 ^ 16
  else if off = 4 then (getHall s h).poolHwm % 2 ^ 16
  else if off = 8 then (getHall s h).mcUse % 2 ^ 16
  else if off = 0xC then fencesPending s h % 2 ^ 16
  else if inWords off 0x10 4 then tgetD (getHall s h).cnt (0x400000 + off) 0
  else if inWords off 0x1000 (16 * 64) then
    (match getPort s (64 * h + (off - 0x1000) / 0x40) with | some q => rdSwPort q (off % 0x40) | none => 0)
  else 0

def rdMeter (h : Hall) (off : Nat) : Nat :=
  match tget h.meters (off / 0x10) with
  | some m => if off % 16 = 0 then meterId m else if off % 16 = 4 then m.green else if off % 16 = 8 then m.yellow else m.red
  | none => 0

def rdSched (s : State) (h off : Nat) : Nat :=
  if off < 0x4000 then leafWord s h (off / 4)
  else if off = 0x4000 then tgetD (getHall s h).cnt oWheelLate 0
  else if inWords off 0x5000 (16 * 64) then
    (match getPort s (64 * h + (off - 0x5000) / 0x40) with
     | some q => if off % 0x40 < 0x10 then tgetD q.cnt (0x5000 + off % 0x40) 0 else 0
     | none => 0)
  else if inWords off 0x10000 (4 * 8192) then rdMeter (getHall s h) (off - 0x10000)
  else 0

def rdEngine (s : State) (h off : Nat) : Nat :=
  if off = 0 then tgetD (getHall s h).cnt oDbErr 0
  else if 0x1000 ≤ off && decide (off < 0x9000) && decide (off % 0x1000 < 0x10) then
    tgetD (getEngine s (8 * h + off / 0x1000 - 1)).cnt (off % 0x1000) 0
  else 0

def rdGarnet (s : State) (m off : Nat) : Nat :=
  let u := getMpu s m
  match off with
  | 0x00 => violInfo u.rep
  | 0x04 => violLo u.rep
  | 0x08 => violHi u.rep
  | 0x0C => violAux u.rep
  | 0x10 => u.cnt % 2 ^ 16
  | 0x14 => u.drop
  | 0x18 => gnEpoch u
  | _ => 0

def rdAtrium (s : State) (off : Nat) : Nat :=
  if off < 0x2000 then atSrc s (off / 4)
  else
    match off - 0x2000 with
    | 0x00 => atFirstInfo s
    | 0x04 => lo32 (atFirstTs s)
    | 0x08 => hi32 (atFirstTs s)
    | 0x0C => (match s.atr.first with | some e => e.detail.toNat | none => 0)
    | 0x10 => b2n s.atr.event + 2 * b2n s.atr.ringDrop
    | 0x14 => atIntCfg s
    | 0x18 => s.atr.ovHist + 2 ^ 16 * s.atr.ovRing
    | 0x1C => atBasalt s
    | 0x20 => s.atr.prod
    | 0x24 => s.atr.cons
    | _ => 0

def rdNewel (s : State) (ch off : Nat) : Nat :=
  match off with
  | 0x00 => (getChan s ch).board.toNat
  | 0x04 => (getChan s ch).therm.toNat
  | 0x08 => (getChan s ch).assoc.toNat
  | 0x0C => chanStatus (getChan s ch)
  | _ => if ch = 0 && (off == 0x800 || off == 0x804) then feedStatus s ((off - 0x800) / 4) else 0

def rdTime (s : State) (off : Nat) : Nat :=
  match off with
  | 0x00 => lo32 (fabricNs s)
  | 0x04 => hi32 (fabricNs s)
  | 0x08 => tmStatus s
  | 0x10 => lo32 s.ft.ptm
  | 0x14 => hi32 s.ft.ptm
  | 0x18 => lo32 s.ft.ptmAt
  | 0x1C => hi32 s.ft.ptmAt
  | _ => 0

def rdSystem (s : State) (off : Nat) : Nat :=
  match off with
  | 0x00 => syId
  | 0x04 => syRev s
  | 0x08 => lo32 s.nv.serial
  | 0x0C => hi32 s.nv.serial
  | 0x10 => s.boot.fdid % 256
  | 0x20 => syStrap s
  | 0x24 => syResetCause s
  | _ => 0

def rdClock (s : State) (off : Nat) : Nat :=
  if off = 0 then b2n s.boot.pll else if inWords off 0x10 4 then quadLock s ((off - 0x10) / 4) else 0

def rdRings (r : Rings) (off : Nat) : Nat :=
  match off with
  | 0x00 => lo32 r.cmdBase
  | 0x04 => hi32 r.cmdBase
  | 0x08 => lo32 r.rplBase
  | 0x0C => hi32 r.rplBase
  | 0x10 => ringCfg r
  | 0x14 => r.cmdProd
  | 0x18 => r.cmdCons
  | 0x1C => r.rplProd
  | 0x20 => r.rplCons
  | 0x24 => rplInt r
  | _ => 0

def rdBedrock (s : State) (off : Nat) : Nat := if off = 0 then bdStatus s else if off = 4 then s.sec.lock.toNat else 0

/-- A register of an Alcove side that a read does not change (R407). -/
def rdAlcove (side : Side) (y : Bay) (off : Nat) : Nat :=
  if off < 0x40 then (sideOf side y).tx[off / 4]?.getD 0
  else if off = 0xC4 then alStatus side y
  else if off = 0xC8 then 4 * b2n (sideOf side y).ie else 0

def rdPage (s : State) (b off : Nat) : Nat :=
  if off = 0x100 then byStatus s b
  else match tget s.bays b with | some y => rdAlcove .manager y off | none => 0

def rdPortPage (s : State) (p off : Nat) : Nat :=
  match getPort s p with
  | some q =>
    if off = 0 then q.std.flrDrain else if inWords off 0x20 8 then alPend s p ((off - 0x20) / 4)
    else if off = 0x40 then q.std.alVector else 0
  | none => 0

/-- What a register holds; an address without a register reads 0 (R20). -/
def readReg (s : State) (blk inst off : Nat) : Nat :=
  if !instOk s blk inst || off % 4 != 0 then 0
  else
    let ofPort := fun (f : Port → Nat) => match getPort s inst with | some q => f q | none => 0
    match blk with
    | 0 => rdLane s inst off
    | 1 => ofPort fun q => rdSpan q off
    | 2 => ofPort fun q => rdStd q off
    | 3 => rdSwitch (settleCross s) inst off
    | 4 => rdSched s inst off
    | 5 => rdEngine s inst off
    | 6 => rdGarnet s inst off
    | 7 => rdAtrium s off
    | 8 => rdNewel s inst off
    | 9 => rdTime s off
    | 10 => rdSystem s off
    | 11 => rdClock s off
    | 12 => ofPort fun q => rdRings q.std.rings off
    | 13 => rdBedrock s off
    | 14 => rdPage s inst off
    | 15 => rdPortPage s inst off
    | _ => 0

/-! ## Reads and clearing by a read (R12, R14, R544) -/

/-- The RC register of SW_ at an offset of a hall, or of the device part 8. -/
def switchKey (h off : Nat) : Option CntKey :=
  if h = 8 then (if off < 4 * 64 then some (.undrained (off / 4)) else none)
  else if off = 4 then some (.hwm h)
  else if inWords off 0x10 4 then some (.hall h (0x400000 + off))
  else if inWords off 0x1000 (16 * 64) && inWords (off % 0x40) 0x20 4 then
    some (.port (64 * h + (off - 0x1000) / 0x40) (0x1000 + off % 0x40))
  else none

/-- The RC register of SC_. -/
def schedKey (h off : Nat) : Option CntKey :=
  if off = 0x4000 then some (.hall h oWheelLate)
  else if inWords off 0x5000 (16 * 64) && decide (off % 0x40 < 0x10) then
    some (.port (64 * h + (off - 0x5000) / 0x40) (0x5000 + off % 0x40))
  else if inWords off 0x10000 (4 * 8192) && off % 16 != 0 then
    some (.meter h ((off - 0x10000) / 0x10) (off % 16 / 4 - 1))
  else none

/-- The RC register of GE_. -/
def engineKey (h off : Nat) : Option CntKey :=
  if off = 0 then some (.hall h oDbErr)
  else if 0x1000 ≤ off && decide (off < 0x9000) && decide (off % 0x1000 < 0x10) then
    some (.engine (8 * h + off / 0x1000 - 1) (off % 0x1000))
  else none

/-- The RC register at an offset of a block instance. -/
def cntKey (s : State) (blk inst off : Nat) : Option CntKey :=
  if !instOk s blk inst || off % 4 != 0 then none
  else
    match blk with
    | 0 => if inWords off 0x10 4 then some (.lane inst off) else none
    | 1 => if off ≤ 0x30 || inWords off 0x40 4 then some (.port inst off) else none
    | 2 => if inWords off 0x10 6 then some (.port inst off) else none
    | 3 => switchKey inst off
    | 4 => schedKey inst off
    | 5 => engineKey inst off
    | 6 => if off = 0x14 then some (.drop inst) else none
    | _ => none

/-- What a read returns in the present cycle (R14). -/
def readCyc (s : State) (blk inst off : Nat) : Nat :=
  match cntKey s blk inst off with
  | some k => cntRead s k
  | none => readReg s blk inst off

/-- A read of an RC register clears it. -/
def clearReg (blk inst off : Nat) (s : State) : State :=
  match cntKey s blk inst off with
  | some k => cntClear k s
  | none => s

/-! ## Addresses and access (R540, R542, R546, R547) -/

/-- The block, instance and offset of an address in PF0 BAR0. -/
def regAt (a : Nat) : Option (Nat × Nat × Nat) :=
  let one := fun (blk base stride : Nat) => some (blk, (a - base) / stride, (a - base) % stride)
  if a < 0x10000 then one 10 0 0x10000
  else if a < 0x20000 then one 11 0x10000 0x10000
  else if a < 0x40000 then one 12 0x20000 0x100
  else if a < 0x50000 then one 9 0x40000 0x10000
  else if a < 0x60000 then one 13 0x50000 0x10000
  else if a < 0x70000 then one 7 0x60000 0x10000
  else if a = 0x70800 || a = 0x70804 then some (8, 0, a - 0x70000)
  else if a < 0x80000 then one 8 0x70000 0x20
  else if a < 0xA0000 then one 6 0x80000 0x40
  else if a < 0x100000 then none
  else if a < 0x200000 then one 0 0x100000 0x800
  else if a < 0x300000 then one 1 0x200000 0x800
  else if a < 0x400000 then one 2 0x300000 0x800
  else if a < 0x480000 then one 3 0x400000 0x10000
  else if a < 0x500000 then some (3, 8, a - 0x480000)
  else if a < 0x800000 then none
  else if a < 0xC00000 then one 4 0x800000 0x80000
  else if a < 0x1000000 then none
  else if a < 0x1800000 then one 5 0x1000000 0x100000
  else if a < 0x2000000 then none
  else if a < 0x2800000 then one 14 0x2000000 0x1000
  else if a < 0x2820000 then one 15 0x2800000 0x100
  else none

/-- The PF0 BAR0 of an H port reaches a register: the whole map for the managing one, the items of R540 for another. -/
def regReach (s : State) (p blk inst off : Nat) : Bool :=
  s.boot.mgr == some p
    || match blk with
       | 10 => true
       | 9 => off == 0 || off == 4 || off == 8
       | 13 => off == 0
       | 12 => inst == p
       | 2 => inst == p
       | 15 => inst == p
       | 14 => bayPort s inst == some p
       | _ => false

/-- The operand `via` of the register rows: PF0 of an H port by PORT number, or a bay's window as 512 + bay number. An
address of PF0 at or above 0x400_0000 lies in its BAR2, at that offset (the model's numbering, log 39). -/
inductive Where_ where
  | reg (blk inst off : Nat)
  | bar2 (port off : Nat)
  | window (bay off : Nat)
  deriving DecidableEq, Repr

/-- What an access reaches: a register the function may reach at a 4-byte aligned offset, or nothing (R20, R387, R539). -/
def target (s : State) (via addr : Nat) : Option Where_ :=
  if addr % 4 != 0 then none
  else if via < 512 then
    if !pf0Reach s via then none
    else if 0x4000000 ≤ addr then (if addr < 0x4010000 then some (.bar2 via (addr - 0x4000000)) else none)
    else
      match regAt addr with
      | some (blk, inst, off) => if instOk s blk inst && regReach s via blk inst off then some (.reg blk inst off) else none
      | none => none
  else if bayReach s (via - 512) && decide (addr < 0x10000) then some (.window (via - 512) addr) else none

/-! ## Reads by address -/

/-- The HI register of a LO register that latches it (R311, R543), by `Tab` number of the latch. -/
def latchOf (blk off : Nat) : Option Nat :=
  match blk, off with
  | 9, 0x00 => some 0
  | 9, 0x10 => some 1
  | 9, 0x18 => some 2
  | 7, 0x2004 => some 3
  | _, _ => none

/-- The latch a HI register reads. -/
def latchedBy (blk off : Nat) : Option Nat := if off < 4 then none else latchOf blk (off - 4)

/-- A read of a register: the value it returns, and what the read does. A LO register latches its HI partner for the next
read; that read returns what was latched; an RC register clears. -/
def readAt (blk inst off : Nat) (s : State) : Nat × State :=
  match latchOf blk off, latchedBy blk off with
  | some k, _ =>
    (readCyc s blk inst off, setFt (fun f => { f with latch := tset f.latch k (readReg s blk inst (off + 4)) }) s)
  | none, some k =>
    (match tget s.ft.latch k with
     | some v => (v, setFt (fun f => { f with latch := tdel f.latch k }) s)
     | none => (readCyc s blk inst off, s))
  | none, none => (readCyc s blk inst off, clearReg blk inst off s)

/-- A word of the PF0 BAR2 of an H port. -/
def readBar2 (s : State) (p off : Nat) : Nat :=
  match getPort s p with
  | some q =>
    if off < 0x8000 then msixWord q.std.msixTab q.std.msixOpen (off / 4)
    else if off < 0x8100 then pbaWord q.std.msixPend ((off - 0x8000) / 4) else 0
  | none => 0

/-- A word of a bay's window (R546). -/
def readWindow (s : State) (b off : Nat) : Nat :=
  match tget s.bays b with
  | some y =>
    if 0x1000 ≤ off && decide (off < 0x1100) then rdAlcove .bay y (off - 0x1000)
    else if off = 0x2000 then byStatus s b
    else if 0x4000 ≤ off && decide (off < 0x4100) then pbaWord y.msixPend ((off - 0x4000) / 4)
    else if 0x8000 ≤ off && decide (off < 0x10000) then msixWord y.msixTab y.msixOpen ((off - 0x8000) / 4) else 0
  | none => 0

/-- RC_COUNTER_READ (R12, R14, R20, R311, R411, R539): a read of a register through a BAR. A word of AL_RX_BUF is read by the
rules of its FIFO. -/
def execRcCounterRead (via addr : Nat) (s : State) : Host.Outcome State Fault Refusal :=
  act s fun s =>
    match target s via addr with
    | some (.reg blk inst off) =>
      if blk = 14 && inWords off 0x80 16 then readRx .manager inst ((off - 0x80) / 4) s
      else
        let (v, s) := readAt blk inst off s
        emit (.readValue addr v) s
    | some (.bar2 p off) => emit (.readValue addr (readBar2 s p off)) s
    | some (.window b off) =>
      if inWords off 0x1080 16 then readRx .bay b ((off - 0x1080) / 4) s else emit (.readValue addr (readWindow s b off)) s
    | none => if (if via < 512 then pf0Reach s via else bayReach s (via - 512)) then emit (.readValue addr 0) s else s

/-- LATCHED_LO_READ (R311, R543): a LO register is read and its HI partner latched. TM_TIME_LO is in reach of every PF0, the
others of the managing one (R540). -/
def execLatchedLoRead (reg : LoReg) (s : State) : Host.Outcome State Fault Refusal :=
  act s fun s =>
    let (blk, off) := match reg with
      | .tmTime => (9, 0) | .tmPtm => (9, 0x10) | .tmPtmAt => (9, 0x18) | .atFirstTs => (7, 0x2004)
    if mgrReach s || (reg == .tmTime && (hPorts s).any (pf0Reach s)) then
      let (v, s) := readAt blk 0 off s
      emit (.readValue ((if blk = 9 then 0x40000 else 0x60000) + off) v) s
    else s

/-! ## Rings (R50 to R52, R549, R550) -/

def setRings (p : Nat) (f : Rings → Rings) (s : State) : State := setStd p (fun d => { d with rings := f d.rings }) s

/-- A write of CM_CMD_PROD: a doorbell above the ring's size is ignored and logged (R51). -/
def writeCmdProd (p prod : Nat) (s : State) : State :=
  match getPort s p with
  | some q =>
    let r := q.std.rings
    if 2 ^ ringLog r < ringOcc (prod % 65536) r.cmdCons then fire (srcCentral 9) 1 p noActor s
    else setRings p (fun r => { r with cmdProd := prod % 65536 }) s
  | none => s

/-- CMD_DOORBELL (R51). -/
def execCmdDoorbell (port prod : Nat) (s : State) : Host.Outcome State Fault Refusal :=
  act s fun s => if pf0Reach s port then writeCmdProd port prod s else s

/-- A write of CM_RPL_CONS: reply slots are free, and the next reply may interrupt (R52, R550). -/
def writeRplCons (p cons : Nat) (s : State) : State := setRings p (fun r => { r with rplCons := cons % 65536, sent := false }) s

/-- RPL_CONS_WRITE (R550). -/
def execRplConsWrite (port cons : Nat) (s : State) : Host.Outcome State Fault Refusal :=
  act s fun s => if pf0Reach s port then writeRplCons port cons s else s

/-- A write of CM_RING_CFG (R549): LOG while ENABLE is 0, STOPPED by ones, and ENABLE, whose rise starts the rings with all
indices 0 and whose fall stops them. -/
def writeRingCfg (p value : Nat) (s : State) : State :=
  match getPort s p with
  | some q =>
    let was := q.std.rings.enable
    let s := setRings p (fun r => { r with
      log := if was then r.log else value % 16, stopped := w1c s (.ring p) r.stopped (bit value 5) }) s
    if bit value 4 then
      (if was then s
       else setRings p (fun r => { r with enable := true, cmdProd := 0, cmdCons := 0, rplProd := 0, rplCons := 0, resv := 0 }) s)
    else if was then
      let old := (getPort s p).map (·.std.rings.stopped)
      setRings p (fun r => { r with stopped := old.getD false }) (stopRings p s)
    else s
  | none => s

/-- RING_ENABLE (R549): a write of CM_RING_CFG with ENABLE 1. -/
def execRingEnable (port value : Nat) (s : State) : Host.Outcome State Fault Refusal :=
  act s fun s => if pf0Reach s port then writeRingCfg port (value ||| 16) s else s

/-- RING_STOP (R549): a write of CM_RING_CFG with ENABLE 0. -/
def execRingStop (port value : Nat) (s : State) : Host.Outcome State Fault Refusal :=
  act s fun s => if pf0Reach s port then writeRingCfg port (value - 16 * b2n (bit value 4)) s else s

/-! ## FIFO pointer resets (R413) -/

/-- An Alcove FIFO is reset: its contents are discarded, both sides learn it, and a message in read ends. -/
def resetAlcove (reader : Side) (b : Nat) (s : State) : State :=
  let s := noteSet (.al b reader 15) (noteSet (.al b (other reader) 15) (setRx reader b [] s))
  let s := setSide reader b (fun a => { a with inRead := false, flushPend := false, ptrReset := true }) s
  setSide (other reader) b (fun a => { a with ptrReset := true }) s

/-- The event of an Alcove FIFO (R457, R459). -/
def alcoveEvent (cause b : Nat) (s : State) : State :=
  match bayPort s b with
  | some p => fire (srcHall (hallOf p) 230) cause p b s
  | none => s

/-- FIFO_POINTER_RESET (R410, R413): the pointer values of the table, and the event that names the FIFO. Of the index last
read from the other agent, and of the events in flight, the operands tell. -/
def execFifoPointerReset (fifo : Fifo) (s : State) : Host.Outcome State Fault Refusal :=
  act s fun s =>
    match fifo with
    | .toManager b => if (tget s.bays b).isSome then alcoveEvent 1 b (resetAlcove .manager b s) else s
    | .toBay b => if (tget s.bays b).isSome then postNotices b (alcoveEvent 2 b (resetAlcove .bay b s)) else s
    | .cmdRing p idx =>
      if isType s .h p then fire (srcCentral 8) 1 p noActor (setRings p (fun r => { r with cmdCons := idx % 65536 }) s) else s
    | .rplRing p idx =>
      if isType s .h p then fire (srcCentral 8) 2 p noActor (setRings p (fun r => { r with rplProd := idx % 65536 }) s) else s
    | .evRing idx inFlight =>
      match s.atr.ring, s.boot.mgr with
      | some _, some p =>
        fire (srcCentral 8) 3 p noActor
          (setAtr (fun a => { a with prod := idx % 65536, ovHist := satAdd 16 a.ovHist inFlight }) s)
      | _, _ => s

/-! ## Writes (R12, R16 to R18, R539) -/

/-- 32 bits of a 64-bit register replaced. -/
def withLo (old v : Nat) : Nat := old / 2 ^ 32 * 2 ^ 32 + lo32 v
def withHi (old v : Nat) : Nat := old % 2 ^ 32 + 2 ^ 32 * lo32 v

/-- A write to the CM_ registers of an H port (R549): bases while ENABLE is 0, bits [11:0] of a LO read 0. -/
def wrRings (p off v : Nat) (s : State) : State :=
  let idle := match getPort s p with | some q => !q.std.rings.enable | none => false
  let base := fun (f : Rings → Rings) => if idle then setRings p f s else s
  match off with
  | 0x00 => base fun r => { r with cmdBase := withLo r.cmdBase (v / 4096 * 4096) }
  | 0x04 => base fun r => { r with cmdBase := withHi r.cmdBase v }
  | 0x08 => base fun r => { r with rplBase := withLo r.rplBase (v / 4096 * 4096) }
  | 0x0C => base fun r => { r with rplBase := withHi r.rplBase v }
  | 0x10 => writeRingCfg p v s
  | 0x14 => writeCmdProd p v s
  | 0x20 => writeRplCons p v s
  | 0x24 => setRings p (fun r => { r with vector := v % 2048, ie := bit v 11 }) s
  | _ => s

/-- A write to AT_ registers: AT_INT_STATUS, AT_INT_CFG, AT_EVR_CONS. -/
def wrAtrium (off v : Nat) (s : State) : State :=
  match off with
  | 0x2010 => clearIntStatus v s
  | 0x2014 => setAtr (fun a => { a with vector := v % 2048, msiEn := bit v 11, alertEn := bit v 12 }) (noteAlert s)
  | 0x2024 => setAtr (fun a => { a with cons := v % 65536 }) s
  | _ => s

/-- A write to AL_ registers of a side (R407): the staging words, the doorbell, the pop, status and control. -/
def wrAlcove (side : Side) (b off v : Nat) (s : State) : State :=
  let via := fun (o : Host.Outcome State Fault Refusal) => match o with | .next t => t | _ => s
  if off < 0x40 then setSide side b (fun a => { a with tx := a.tx.set (off / 4) (lo32 v) }) s
  else
    match off with
    | 0x40 => via (execAlTxDb side b s)
    | 0xC0 => via (execAlRxPop side b s)
    | 0xC4 => clearStatus side b v s
    | 0xC8 =>
      let s := setSide side b (fun a => { a with ie := bit v 2 }) s
      let s := if bit v 0 then flushFifo side b s else s
      if bit v 1 && side == .manager then flushFifo .bay b s else s
    | _ => s

/-- A write to an H port's page: BY_FLR_DRAIN and AL_PEND_CFG (R388, R548). -/
def wrPortPage (p off v : Nat) (s : State) : State :=
  match off with
  | 0x00 => setStd p (fun d => { d with flrDrain := v % 65536 }) s
  | 0x40 => setStd p (fun d => { d with alVector := v % 2048 }) s
  | _ => s

/-- A write to a word of a function's MSI-X table. -/
def wrMsix (fn : Fn) (w v : Nat) (s : State) : State :=
  if w % 4 = 3 then maskMsix fn (w / 4) (bit v 0) s
  else
    match fn with
    | .pf0 p => setStd p (fun d => { d with msixTab := tset d.msixTab w (lo32 v) }) s
    | .bay b => setBay b (fun y => { y with msixTab := tset y.msixTab w (lo32 v) }) s

/-- A write to a bay's window (R546). The doorbells GE_SQ_DB and GE_RQ_DB have rows of their own, whose operands say what the
engine then reads; a 32-bit write to GE_SQ_PUSH is not the aligned 64-byte write of R347. -/
def wrWindow (b off v : Nat) (s : State) : State :=
  let via := fun (o : Host.Outcome State Fault Refusal) => match o with | .next t => t | _ => s
  if off = 8 then via (execGeCrDb b v s)
  else if 0x40 ≤ off && decide (off < 0x80) then via (execGeSqPush b [] false {} s)
  else if 0x1000 ≤ off && decide (off < 0x1100) then wrAlcove .bay b (off - 0x1000) v s
  else if 0x8000 ≤ off && decide (off < 0x10000) then wrMsix (.bay b) ((off - 0x8000) / 4) v s
  else s

/-- A whole-word write to a register by its access code; a register without a writable field keeps its value. -/
def writeReg (blk inst off v : Nat) (s : State) : State :=
  let via := fun (o : Host.Outcome State Fault Refusal) => match o with | .next t => t | _ => s
  match blk with
  | 4 => if off < 0x4000 then via (execScLeafCfgWrite inst (off / 4) v s) else s
  | 7 => wrAtrium off v s
  | 8 =>
    (match off with
     | 0x00 => via (execNwChBoardWrite inst 0 v s)
     | 0x04 => via (execNwChBoardWrite inst 1 v s)
     | 0x08 => via (execNwChAssocWrite inst v s)
     | 0x0C => clearChan inst v s
     | _ => s)
  | 9 => if off = 8 then setFt (fun f => { f with stepped := w1c s .stepped f.stepped (bit v 1) }) s else s
  | 12 => wrRings inst off v s
  | 14 => wrAlcove .manager inst off v s
  | 15 => wrPortPage inst off v s
  | _ => s

/-- A write of all four bytes of a word through a BAR. -/
def writeWord (via addr v : Nat) (s : State) : State :=
  match target s via addr with
  | some (.reg blk inst off) => writeReg blk inst off v s
  | some (.bar2 p off) => if off < 0x8000 then wrMsix (.pf0 p) (off / 4) v s else s
  | some (.window b off) => wrWindow b off v s
  | none => s

/-- REGISTER_WRITE (R12, R16 to R20, R539, R549): `be` tells the bytes enabled; a register some of whose four bytes are not
enabled is not written, and a 64-bit write is two of 32 bits in ascending order. -/
def execRegisterWrite (via addr value be : Nat) (s : State) : Host.Outcome State Fault Refusal :=
  act s fun s =>
    let s := if be % 16 = 15 then writeWord via addr (lo32 value) s else s
    if be / 16 % 16 = 15 then writeWord via (addr + 4) (hi32 value) s else s

/-! ## COUNTERS_READ, SENSORS_READ, DEVICE_INFO (R89) -/

/-- The bytes an instance of a block of COUNTERS_READ spans (R542). -/
def blkSize (blk inst : Nat) : Nat :=
  match blk with
  | 0 => 0x800
  | 1 => 0x800
  | 2 => 0x800
  | 3 => if inst = 8 then 0x80000 else 0x10000
  | 4 => 0x80000
  | 5 => 0x100000
  | 6 => 0x40
  | 8 => 0x20
  | _ => 0x10000

/-- A word of an instance: beyond the instance there is no register (R20). -/
def wordAt (s : State) (blk inst off : Nat) : Nat := if off < blkSize blk inst then readCyc s blk inst off else 0

/-- OFFSET of COUNTERS_READ and TELEMETRY_STREAM: a multiple of 4 inside the instance (R89). -/
def offsetF (c : Params) (i blk inst : Nat) : Chk Nat :=
  idF c i 4 4 (some 0) fun v => v % 4 == 0 && decide (v < blkSize blk inst)

/-- Words read upward from an offset of a block instance, with RC registers cleared or not. -/
def readWords (blk inst : Nat) (clear : Bool) : Nat → Nat → State → Bytes × State
  | 0, _, s => ([], s)
  | n + 1, off, s =>
    let v := wordAt s blk inst off
    let (r, s) := readWords blk inst clear n (off + 4) (if clear && decide (off < blkSize blk inst) then clearReg blk inst off s else s)
    (le 4 v ++ r, s)

def bodyCountersRead : Body := fun c _ s => do
  let blk ← idF c 0 0 1 none (· ≤ 9)
  let cl ← elseF c 1 1 1 0 (· ≤ 1) 0
  let inst ← idF c 2 2 2 none (instOk s blk)
  let off ← offsetF c 3 blk inst
  let n ← rangeF c 4 8 2 1 1 1000
  let (d, t) := readWords blk inst (cl == 1) n off s
  okWith t d

def specCountersRead : OpSpec :=
  { code := 0x0A01, scope := .counters, body := bodyCountersRead,
    layout := { flds := [(0, 1), (1, 1), (2, 2), (4, 4), (8, 2)], fin := 10 } }

/-- COUNTERS_READ (R89). -/
def execCountersRead (c : Cmd) (s : State) : Host.Outcome State Fault Refusal := command specCountersRead c s

/-- Ten die temperatures, twelve rail readings, which are analog and free, and the feeds' voltages. -/
def bodySensorsRead : Body := fun _ _ s =>
  let t := (List.range 10).flatMap fun d => le 2 (unsigned 2 (tgetD s.temps d 0))
  let r := (List.range 12).flatMap fun k => le 2 (Config.analog (s.freeN + k))
  okWith { s with freeN := s.freeN + 12 } (t ++ r ++ le 2 (getFeed s 0).volt ++ le 2 (getFeed s 1).volt)

def specSensorsRead : OpSpec := { code := 0x0A02, scope := .always, body := bodySensorsRead }

/-- SENSORS_READ (R89). -/
def execSensorsRead (c : Cmd) (s : State) : Host.Outcome State Fault Refusal := command specSensorsRead c s

/-- VERSION of the image of a flash slot, 0 when it is not accepted by R420. -/
def slotVersion (s : State) (k : Nat) : Nat := match slotAccepted s k with | some i => i.version | none => 0

/-- The 48 bytes of DEVICE_INFO. -/
def deviceInfoBytes (s : State) : Bytes :=
  let img := if mezzRuns s then s.boot.image else none
  le 4 syId ++ le 4 (syRev s) ++ le 8 s.nv.serial
    ++ [s.boot.fdid % 256, bits (bdStatus s) 2 2 + 2 * bits (bdStatus s) 3 3 + 4 * b2n s.boot.mgr.isNone + 8 * b2n (approved s)]
    ++ le 2 (s.boot.mgr.getD 0xFFFF)
    ++ le 4 (match img with | some i => i.version | none => 0) ++ le 4 (match img with | some i => i.svn | none => 0)
    ++ le 4 (slotVersion s 0) ++ le 4 (slotVersion s 1) ++ le 4 s.nv.svnFloor ++ le 4 s.sec.lock.toNat ++ le 4 s.nv.bseq

def bodyDeviceInfo : Body := fun _ _ s => okWith s (deviceInfoBytes s)

def specDeviceInfo : OpSpec := { code := 0x0101, scope := .always, body := bodyDeviceInfo }

/-- DEVICE_INFO (R89, R475). -/
def execDeviceInfo (c : Cmd) (s : State) : Host.Outcome State Fault Refusal := command specDeviceInfo c s

/-! ## Telemetry (R97) -/

def bodyTelemetryStream : Body := fun c _ s => do
  let k ← idF c 0 0 1 none (· ≤ 15)
  let blk ← idF c 1 1 1 none (· ≤ 9)
  let inst ← idF c 2 2 2 none (instOk s blk)
  let off ← offsetF c 3 blk inst
  let n ← rangeF c 4 8 1 1 1 64
  let ms ← rangeF c 5 10 2 0 0 10000
  rejectIf (ms != 0 && s.atr.ring.isNone) stInvalidState
  okWith { s with tele := if ms = 0 then tdel s.tele k
                          else tset s.tele k { block := blk, inst := inst, offset := off, count := n, period := ms, at_ := s.dc } } []

def specTelemetryStream : OpSpec :=
  { code := 0x0A03, body := bodyTelemetryStream,
    layout := { flds := [(0, 1), (1, 1), (2, 2), (4, 4), (8, 1), (10, 2)], fin := 12 } }

/-- TELEMETRY_STREAM (R97). -/
def execTelemetryStream (c : Cmd) (s : State) : Host.Outcome State Fault Refusal := command specTelemetryStream c s

/-- A ring slot of TYPE 1 (R97): its reserved bytes are 0 (R17). -/
def teleBytes (ts k blk inst off seq v : Nat) : Bytes :=
  le 8 ts ++ [blk % 256, k % 256] ++ le 2 inst ++ le 4 off ++ le 4 seq ++ [1, 0, 0, 0] ++ le 4 v ++ le 4 0

/-- One word of a stream: its SEQ advances, and the slot is written where the ring takes one. SEQ counts the word itself
(DEDUCED, log 37). -/
def teleWord (k : Nat) (s : State) (i : Nat) : State :=
  match tget s.tele k with
  | some t =>
    let off := t.offset + 4 * i
    let seq := (t.seq + 1) % 2 ^ 32
    let s := { s with tele := tset s.tele k { t with seq := seq } }
    (match ringSlot s with
     | (s', some idx) => ringWrite idx (teleBytes (fabricNs s) k t.block t.inst off seq (wordAt s t.block t.inst off)) s'
     | (s', none) => s')
  | none => s

/-- TELEMETRY_PERIOD (R97): a period of the stream has passed. Mezzanine runs the streams (DEDUCED, log 39). -/
def execTelemetryPeriod (stream : Nat) (s : State) : Host.Outcome State Fault Refusal :=
  act s fun s =>
    match tget s.tele stream with
    | some t =>
      let s := clockTo (t.at_ + 2000000 * t.period) s
      let s := { s with tele := tset s.tele stream { t with at_ := t.at_ + 2000000 * t.period } }
      if mezzRuns s then (List.range t.count).foldl (teleWord stream) s else s
    | none => s

end Sys2Proof.Machine
end

