-- ==== Sys2Proof/Machine/Packet.lean ====
section
/-! DEFINITION. Command packets as bytes: the opcode table, the packets of a bundle and its activation, packets over MCTP and
from the command ring (02_command_protocol R50 to R53, R76 to R80). -/

namespace Sys2Proof.Machine

open Sys2Proof

/-! ## The opcode table (02, Opcodes) -/

/-- Every opcode but BUNDLE_ACTIVATE, with what it does. -/
def opTable : List OpSpec :=
  [specDeviceInfo, specFdidSet, specBundleKeySet, specBundleLoad, specFwUpdate, specFwSelect, specDeviceReset]
    ++ [specPortMapSet, specPortEnable, specPortDisable, specPortDown, specPortRelease, specPortStatus, specSpanResize,
        specSpanTimers, specSpanPolicy, specHpPower, specVhBind, specVhUnbind, specLaneTest, specEyeScan]
    ++ [specPidSet, specRouteSet, specGroupSet, specGroupIndirSet, specMcastSet, specBufferSet, specMgtTreeSet,
        specLeafAssign, specSubscriberSet, specServiceSet, specLengthModeSet, specFlightLoad, specMeterSet, specTimeConfig]
    ++ [specCtxTableSet, specQpCreate, specQpModify, specQpDestroy, specQpQuery, specMrRegister, specMrDeregister,
        specQpClassSet, specBayCreate, specBayResize, specBayReset, specBayRemove, specBayQuery]
    ++ [specSessionEnd, specMpuWrite, specGarnetWindowSet, specGarnetCommit, specViolationRead, specIdeStreamSet,
        specSpanRekey, specLockSet, specZeroize, specSelftest, specApprovedGet]
    ++ [specEventReactionSet, specFirstEventRead, specHistoryRead, specEventRingSet, specNewelConfig, specNewelOn,
        specNewelOff, specNewelStatus, specStairwellSet, specNewelClear, specCountersRead, specSensorsRead,
        specTelemetryStream]

/-- The entry of an opcode in a table. -/
def specIn (l : List OpSpec) (code : Nat) : Option OpSpec := l.find? fun sp => sp.code == code

/-! ## Bundles (R78, R79) -/

/-- Opcodes a bundle may not contain (R78). -/
def bundleForbidden (code : Nat) : Bool :=
  [0x0103, 0x0104, 0x0105, 0x0106, 0x0107, 0x0108, 0x0701, 0x0709, 0x070A].contains code

/-- One command of a bundle under the issuer's session, with NO_CLAMP in force: the state after it, or its rejection. What
replies later gives no reply of its own. -/
def bundleCommand (x : Cmd) (pkt : Bytes) (s : State) : Except Rej State :=
  let code := unle (slice pkt 0 2)
  let plen := unle (slice pkt 4 2)
  let flags := unle (slice pkt 6 2)
  let c : Cmd := { origin := x.origin, tag := unle (slice pkt 2 2), plen := plen, flags := flags, session := x.session,
                   carrier := 16 + plen, params := slice pkt 16 plen, env := x.env }
  let p : Params := { bytes := fit plen (slice pkt 16 plen), noClamp := true }
  match specIn opTable code with
  | none => .error { status := if 4080 < plen then stInvalidLength else stInvalidOpcode }
  | some sp =>
    if 4080 < plen || !lengthOk sp.layout p.bytes then .error { status := stInvalidLength }
    else if bundleForbidden code then .error { status := stDenied }
    else if sp.priv = 0 && !mezzRuns s then .error { status := stNotReady }
    else
      match (sp.body p c s).run [] with
      | .error e => .error e
      | .ok ((t, a), _) =>
        if bit flags 0 then .ok s
        else
          match a with
          | .done st _ => if st < 0x10 then .ok t else .error { status := st }
          | .later k data =>
            .ok { t with ops := t.ops ++ [{ reply := { baseReply code c false with data := data }, kind := k, quiet := true }] }

/-- The commands of a bundle in order from index `i`: the state after the last, or the index, packet and rejection of the
first that fails. -/
def bundleRun (x : Cmd) : Nat → List Bytes → State → Except (Nat × Bytes × Rej) State
  | _, [], s => .ok s
  | i, pkt :: r, s =>
    match bundleCommand x pkt s with
    | .error e => .error (i, pkt, e)
    | .ok t => bundleRun x (i + 1) r t

/-- A reply header for a packet that failed: opcode, TAG, RLEN 0, STATUS, SESSION, NCLAMP 0, FIELD (02, Replies). -/
def failHeader (pkt : Bytes) (e : Rej) : Bytes :=
  fit 4 (pkt.take 4) ++ le 2 0 ++ le 2 e.status ++ fit 4 (slice pkt 8 4) ++ le 2 0 ++ le 2 e.field

/-- The result of an activation: commands applied, the index of the one that failed, its reply header (R89). -/
def activateData (applied idx : Nat) (header : Bytes) : Bytes := le 4 applied ++ le 4 idx ++ header

/-- Every command is checked in order against the state the earlier ones would produce; when all pass, they are applied one by
one as the clock runs (`bundleStep`), and the reply follows the last. STATUS of a failed check is that of the command that
failed (DESIGN CHOICE, log 40). -/
def bodyBundleActivate : Body := fun _ x s =>
  match s.stage.verified with
  | none => reject stInvalidState
  | some (seq, pkts) =>
    if seq ≤ s.nv.bseq then reject stStale
    else
      match bundleRun x 0 pkts s with
      | .error (i, pkt, e) => pure (s, .done e.status (activateData 0 i (failHeader pkt e)))
      | .ok _ =>
        pure ({ s with bundle := some { cmd := x, seq := seq, pkts := pkts } },
          .later .bundle (activateData pkts.length 0xFFFFFFFF (List.replicate 16 0)))

/-- The next command of the bundle being applied (R79): after the last the activation replies; one that now fails stops it
with BUNDLE_PARTIAL. -/
def bundleStep (s : State) : State :=
  match s.bundle with
  | none => s
  | some r =>
    match r.pkts[r.next]? with
    | none => endBundle 0 (activateData r.next 0xFFFFFFFF (List.replicate 16 0)) s
    | some pkt =>
      match bundleCommand r.cmd pkt s with
      | .error e => endBundle stBundlePartial (activateData r.next r.next (failHeader pkt e)) s
      | .ok t => { t with bundle := (t.bundle).map fun x => { x with next := r.next + 1 } }

def specBundleActivate : OpSpec := { code := 0x0105, priv := 1, body := bodyBundleActivate }

/-- BUNDLE_ACTIVATE (R78, R79). -/
def execBundleActivate (c : Cmd) (s : State) : Host.Outcome State Fault Refusal := command specBundleActivate c s

/-- A flit slot of a span with nothing else to send: a replay that is due, or the flit of its state. -/
def spanTick (s : State) (p : Nat) : State :=
  if ((getPort s p).bind (·.span.replayDue)).isSome then settleReplay p s else idleSlot p s

/-- Expired RTOs of earlier cycles act (R360). -/
def rtoTick (s : State) : State := (tkeys s.qps).foldl (fun s n => settleRto n s) s

/-- What the lanes do in an idle cycle: a flit slot of each span, adaptation, and the generators of LANE_TEST. -/
def linesTick (s : State) : State :=
  let s := (tkeys s.ports).foldl spanTick s
  s.ports.foldl (fun s e => runGenerators e.1 e.2 (adaptPort e.1 e.2 s)) s

/-- One CLK_D cycle of the clock, in which cells that have crossed a hall-to-hall link are freed, the lanes go on, an activation
applies its next command at a CLK_M cycle, and a SELFTEST may end (DESIGN CHOICE, log 2). -/
def tick (s : State) : State :=
  let s := clockTo (s.dc + 1) s
  if !live s then s
  else
    let s := linesTick (rtoTick (settleCross s))
    endSelftest (if s.dc % 4 = 0 then bundleStep s else s)

/-! ## Packets (R50 to R53, R56, R64) -/

/-- A packet's header and parameters as its path gives them. -/
def packetCmd (o : Origin) (bytes : Bytes) (carrier : Nat) (env : Env) : Cmd :=
  { origin := o, tag := unle (slice bytes 2 2), plen := unle (slice bytes 4 2), flags := unle (slice bytes 6 2),
    session := unle (slice bytes 8 4), rsv := unle (slice bytes 12 4), carrier := carrier, params := bytes.drop 16, env := env }

/-- A packet runs as the command its OPCODE names. -/
def runPacket (o : Origin) (bytes : Bytes) (carrier : Nat) (env : Env) (s : State) : State :=
  let code := unle (slice bytes 0 2)
  let c := packetCmd o bytes carrier env
  if !pathOpen s o then s
  else
    match specIn (specBundleActivate :: opTable) code with
    | some sp => runCommand sp c (intake o s)
    | none => runUnknown code c (intake o s)

/-- The MCTP transmission unit of a path (R53): 64 bytes on I3C, and on PCIe VDM what the bus owner has set for the H port. -/
def mctpUnit (s : State) : Origin → Nat
  | .vdm p => match getPort s p with | some q => q.std.mctpUnit | none => 64
  | .bay b => match (bayPort s b).bind (getPort s) with | some q => q.std.mctpUnit | none => 64
  | _ => 64

/-- The units after the first of a message: each but the last is whole, and the last holds a byte at least. -/
def unitsOk (u : Nat) : List Bytes → Bool
  | [] => true
  | [b] => decide (0 < b.length) && decide (b.length ≤ u)
  | b :: r => b.length == u && unitsOk u r

/-- The units of one message carry whole units of the packet, the message type and the vendor ID standing in the first three
bytes of the first (R53). -/
def assembled (u : Nat) : List Bytes → Option Bytes
  | [] => none
  | b :: r =>
    if (if r.isEmpty then decide (b.length ≤ u - 3) else b.length == u - 3) && unitsOk u r then some (b ++ r.flatten) else none

/-- MCTP_COMMAND_RECEIVE (R53, R56): the message is assembled from its transmission units, up to 4,096 bytes of command packet;
it comes by no ring. -/
def execMctpCommandReceive (o : Origin) (units : List Bytes) (env : Env) (s : State) : Host.Outcome State Fault Refusal :=
  .next (match o, assembled (mctpUnit s o) units with
    | .ring _, _ => s
    | _, none => s
    | _, some bytes => if bytes.length < 16 || 4096 < bytes.length then s else runPacket o bytes bytes.length env s)

/-- RING_COMMAND_FETCH (R52, R56): with a reply slot reserved, the next slot of the ring is read. -/
def execRingCommandFetch (port : Nat) (slot : Bytes) (env : Env) (s : State) : Host.Outcome State Fault Refusal :=
  .next (runPacket (.ring port) slot (16 + unle (slice slot 4 2)) env s)

end Sys2Proof.Machine
end

