-- ==== Sys2Proof/Machine/Dispatch.lean ====
section
/-! DEFINITION. The dispatch: one arm per command, each one direct call of its meaning. -/

namespace Sys2Proof.Machine

open Sys2Proof

/-- The effect of a command on everything but the queue. -/
def exec (i : Instr) (s : State) : Host.Outcome State Fault Refusal :=
  match i with
  | .deviceInfo c => Sys2Proof.Machine.execDeviceInfo c s
  | .fdidSet c => Sys2Proof.Machine.execFdidSet c s
  | .bundleKeySet c => Sys2Proof.Machine.execBundleKeySet c s
  | .bundleLoad c => Sys2Proof.Machine.execBundleLoad c s
  | .bundleActivate c => Sys2Proof.Machine.execBundleActivate c s
  | .fwUpdate c => Sys2Proof.Machine.execFwUpdate c s
  | .fwSelect c => Sys2Proof.Machine.execFwSelect c s
  | .deviceReset c => Sys2Proof.Machine.execDeviceReset c s
  | .deviceResetBegin => Sys2Proof.Machine.execDeviceResetBegin s
  | .portMapSet c => Sys2Proof.Machine.execPortMapSet c s
  | .portEnable c => Sys2Proof.Machine.execPortEnable c s
  | .portDisable c => Sys2Proof.Machine.execPortDisable c s
  | .portDown c => Sys2Proof.Machine.execPortDown c s
  | .portRelease c => Sys2Proof.Machine.execPortRelease c s
  | .portStatus c => Sys2Proof.Machine.execPortStatus c s
  | .spanResize c => Sys2Proof.Machine.execSpanResize c s
  | .spanTimers c => Sys2Proof.Machine.execSpanTimers c s
  | .spanPolicy c => Sys2Proof.Machine.execSpanPolicy c s
  | .hpPower c => Sys2Proof.Machine.execHpPower c s
  | .vhBind c => Sys2Proof.Machine.execVhBind c s
  | .vhUnbind c => Sys2Proof.Machine.execVhUnbind c s
  | .laneTest c => Sys2Proof.Machine.execLaneTest c s
  | .eyeScan c => Sys2Proof.Machine.execEyeScan c s
  | .pidSet c => Sys2Proof.Machine.execPidSet c s
  | .routeSet c => Sys2Proof.Machine.execRouteSet c s
  | .groupSet c => Sys2Proof.Machine.execGroupSet c s
  | .groupIndirSet c => Sys2Proof.Machine.execGroupIndirSet c s
  | .mcastSet c => Sys2Proof.Machine.execMcastSet c s
  | .bufferSet c => Sys2Proof.Machine.execBufferSet c s
  | .mgtTreeSet c => Sys2Proof.Machine.execMgtTreeSet c s
  | .leafAssign c => Sys2Proof.Machine.execLeafAssign c s
  | .subscriberSet c => Sys2Proof.Machine.execSubscriberSet c s
  | .serviceSet c => Sys2Proof.Machine.execServiceSet c s
  | .lengthModeSet c => Sys2Proof.Machine.execLengthModeSet c s
  | .flightLoad c => Sys2Proof.Machine.execFlightLoad c s
  | .meterSet c => Sys2Proof.Machine.execMeterSet c s
  | .timeConfig c => Sys2Proof.Machine.execTimeConfig c s
  | .ctxTableSet c => Sys2Proof.Machine.execCtxTableSet c s
  | .qpCreate c => Sys2Proof.Machine.execQpCreate c s
  | .qpModify c => Sys2Proof.Machine.execQpModify c s
  | .qpDestroy c => Sys2Proof.Machine.execQpDestroy c s
  | .qpQuery c => Sys2Proof.Machine.execQpQuery c s
  | .mrRegister c => Sys2Proof.Machine.execMrRegister c s
  | .mrDeregister c => Sys2Proof.Machine.execMrDeregister c s
  | .qpClassSet c => Sys2Proof.Machine.execQpClassSet c s
  | .bayCreate c => Sys2Proof.Machine.execBayCreate c s
  | .bayResize c => Sys2Proof.Machine.execBayResize c s
  | .bayReset c => Sys2Proof.Machine.execBayReset c s
  | .bayRemove c => Sys2Proof.Machine.execBayRemove c s
  | .bayQuery c => Sys2Proof.Machine.execBayQuery c s
  | .sessionEnd c => Sys2Proof.Machine.execSessionEnd c s
  | .mpuWrite c => Sys2Proof.Machine.execMpuWrite c s
  | .garnetWindowSet c => Sys2Proof.Machine.execGarnetWindowSet c s
  | .garnetCommit c => Sys2Proof.Machine.execGarnetCommit c s
  | .violationRead c => Sys2Proof.Machine.execViolationRead c s
  | .ideStreamSet c => Sys2Proof.Machine.execIdeStreamSet c s
  | .spanRekey c => Sys2Proof.Machine.execSpanRekey c s
  | .lockSet c => Sys2Proof.Machine.execLockSet c s
  | .zeroize c => Sys2Proof.Machine.execZeroize c s
  | .selftest c => Sys2Proof.Machine.execSelftest c s
  | .approvedGet c => Sys2Proof.Machine.execApprovedGet c s
  | .eventReactionSet c => Sys2Proof.Machine.execEventReactionSet c s
  | .firstEventRead c => Sys2Proof.Machine.execFirstEventRead c s
  | .historyRead c => Sys2Proof.Machine.execHistoryRead c s
  | .eventRingSet c => Sys2Proof.Machine.execEventRingSet c s
  | .newelConfig c => Sys2Proof.Machine.execNewelConfig c s
  | .newelOn c => Sys2Proof.Machine.execNewelOn c s
  | .newelOff c => Sys2Proof.Machine.execNewelOff c s
  | .newelStatus c => Sys2Proof.Machine.execNewelStatus c s
  | .stairwellSet c => Sys2Proof.Machine.execStairwellSet c s
  | .newelClear c => Sys2Proof.Machine.execNewelClear c s
  | .countersRead c => Sys2Proof.Machine.execCountersRead c s
  | .sensorsRead c => Sys2Proof.Machine.execSensorsRead c s
  | .telemetryStream c => Sys2Proof.Machine.execTelemetryStream c s
  | .mctpCommandReceive o units env => Sys2Proof.Machine.execMctpCommandReceive o units env s
  | .cmdDoorbell port prod => Sys2Proof.Machine.execCmdDoorbell port prod s
  | .rplConsWrite port cons => Sys2Proof.Machine.execRplConsWrite port cons s
  | .ringEnable port value => Sys2Proof.Machine.execRingEnable port value s
  | .ringStop port value => Sys2Proof.Machine.execRingStop port value s
  | .ringCommandFetch port slot env => Sys2Proof.Machine.execRingCommandFetch port slot env s
  | .atEvrConsWrite cons => Sys2Proof.Machine.execAtEvrConsWrite cons s
  | .atIntStatusWrite value => Sys2Proof.Machine.execAtIntStatusWrite value s
  | .geSqDb bay value env => Sys2Proof.Machine.execGeSqDb bay value env s
  | .geRqDb bay value env => Sys2Proof.Machine.execGeRqDb bay value env s
  | .geCrDb bay value => Sys2Proof.Machine.execGeCrDb bay value s
  | .geSqPush bay bytes aligned env => Sys2Proof.Machine.execGeSqPush bay bytes aligned env s
  | .alTxDb side bay => Sys2Proof.Machine.execAlTxDb side bay s
  | .alRxPop side bay => Sys2Proof.Machine.execAlRxPop side bay s
  | .alRxBufRead side bay word => Sys2Proof.Machine.execAlRxBufRead side bay word s
  | .flushRx side bay => Sys2Proof.Machine.execFlushRx side bay s
  | .flushTx side bay => Sys2Proof.Machine.execFlushTx side bay s
  | .fifoFlushTakeEffect side bay => Sys2Proof.Machine.execFifoFlushTakeEffect side bay s
  | .alStatusWrite side bay value => Sys2Proof.Machine.execAlStatusWrite side bay value s
  | .fifoPointerReset fifo => Sys2Proof.Machine.execFifoPointerReset fifo s
  | .scLeafCfgWrite hall leaf value => Sys2Proof.Machine.execScLeafCfgWrite hall leaf value s
  | .nwChBoardWrite ch reg value => Sys2Proof.Machine.execNwChBoardWrite ch reg value s
  | .nwChAssocWrite ch value => Sys2Proof.Machine.execNwChAssocWrite ch value s
  | .latchedLoRead reg => Sys2Proof.Machine.execLatchedLoRead reg s
  | .rcCounterRead via addr => Sys2Proof.Machine.execRcCounterRead via addr s
  | .registerWrite via addr value be => Sys2Proof.Machine.execRegisterWrite via addr value be s
  | .bmeClear fn => Sys2Proof.Machine.execBmeClear fn s
  | .bmeSet fn => Sys2Proof.Machine.execBmeSet fn s
  | .functionLevelReset bay => Sys2Proof.Machine.execFunctionLevelReset bay s
  | .vfEnableClear port numVfs => Sys2Proof.Machine.execVfEnableClear port numVfs s
  | .hotReset port => Sys2Proof.Machine.execHotReset port s
  | .perstNAssert idx => Sys2Proof.Machine.execPerstNAssert idx s
  | .perstNDeassert idx => Sys2Proof.Machine.execPerstNDeassert idx s
  | .porNLow => Sys2Proof.Machine.execPorNLow s
  | .porNRise straps aonLost => Sys2Proof.Machine.execPorNRise straps aonLost s
  | .railOutOfRange rail => Sys2Proof.Machine.execRailOutOfRange rail s
  | .railRestored rail => Sys2Proof.Machine.execRailRestored rail s
  | .pllRootLock => Sys2Proof.Machine.execPllRootLock s
  | .atriumInitDone => Sys2Proof.Machine.execAtriumInitDone s
  | .bedrockReady patchOk testsOk => Sys2Proof.Machine.execBedrockReady patchOk testsOk s
  | .mezzanineImageVerified slot flash => Sys2Proof.Machine.execMezzanineImageVerified slot flash s
  | .mezzanineRunning => Sys2Proof.Machine.execMezzanineRunning s
  | .watchdogExpiry => Sys2Proof.Machine.execWatchdogExpiry s
  | .mezzException core => Sys2Proof.Machine.execMezzException core s
  | .rootPllLockLoss => Sys2Proof.Machine.execRootPllLockLoss s
  | .quadPllLockLoss quad => Sys2Proof.Machine.execQuadPllLockLoss quad s
  | .elasticSlip lane => Sys2Proof.Machine.execElasticSlip lane s
  | .cdrLockLoss lane => Sys2Proof.Machine.execCdrLockLoss lane s
  | .alignWordMiss lane => Sys2Proof.Machine.execAlignWordMiss lane s
  | .alignmentFound port words skew ctle => Sys2Proof.Machine.execAlignmentFound port words skew ctle s
  | .flitRxData port rx => Sys2Proof.Machine.execFlitRxData port rx s
  | .flitRxIdle port rx => Sys2Proof.Machine.execFlitRxIdle port rx s
  | .flitRxTrain port rx ask => Sys2Proof.Machine.execFlitRxTrain port rx ask s
  | .flitRxKeyx port rx env => Sys2Proof.Machine.execFlitRxKeyx port rx env s
  | .flitRxInit port rx => Sys2Proof.Machine.execFlitRxInit port rx s
  | .leakIdleReset port cls => Sys2Proof.Machine.execLeakIdleReset port cls s
  | .resizeReq port rx => Sys2Proof.Machine.execResizeReq port rx s
  | .resizeAck port rx => Sys2Proof.Machine.execResizeAck port rx s
  | .resizeSwitch port => Sys2Proof.Machine.execResizeSwitch port s
  | .ackTmrExpiry port => Sys2Proof.Machine.execAckTmrExpiry port s
  | .replayTmrExpiry port => Sys2Proof.Machine.execReplayTmrExpiry port s
  | .replayStall port => Sys2Proof.Machine.execReplayStall port s
  | .eqTimeout port => Sys2Proof.Machine.execEqTimeout port s
  | .keyxTimeout port => Sys2Proof.Machine.execKeyxTimeout port s
  | .initTimeout port => Sys2Proof.Machine.execInitTimeout port s
  | .freshTrainingRetry port => Sys2Proof.Machine.execFreshTrainingRetry port s
  | .idleHalfWidth port => Sys2Proof.Machine.execIdleHalfWidth port s
  | .keyLimitReached port => Sys2Proof.Machine.execKeyLimitReached port s
  | .keyNext port index => Sys2Proof.Machine.execKeyNext port index s
  | .keyIndexExhausted port => Sys2Proof.Machine.execKeyIndexExhausted port s
  | .keyxMgtMessage port payload env => Sys2Proof.Machine.execKeyxMgtMessage port payload env s
  | .timeExchangeStart port t1 => Sys2Proof.Machine.execTimeExchangeStart port t1 s
  | .timeReq port t2 t3 => Sys2Proof.Machine.execTimeReq port t2 t3 s
  | .timeRsp port t2 t3 t4 => Sys2Proof.Machine.execTimeRsp port t2 t3 t4 s
  | .ptmExchange port hostNs t1 t2 t3 t4 => Sys2Proof.Machine.execPtmExchange port hostNs t1 t2 t3 t4 s
  | .messageIngress port fc => Sys2Proof.Machine.execMessageIngress port fc s
  | .tlpReceive port tlp => Sys2Proof.Machine.execTlpReceive port tlp s
  | .engineMessageWait source => Sys2Proof.Machine.execEngineMessageWait source s
  | .deferHeadRelease hall meter => Sys2Proof.Machine.execDeferHeadRelease hall meter s
  | .messageTransmitStart port fc => Sys2Proof.Machine.execMessageTransmitStart port fc s
  | .transmissionEnd port => Sys2Proof.Machine.execTransmissionEnd port s
  | .fenceRemoval hall leaf => Sys2Proof.Machine.execFenceRemoval hall leaf s
  | .wheelRelease hall => Sys2Proof.Machine.execWheelRelease hall s
  | .flightEntryBoundary port => Sys2Proof.Machine.execFlightEntryBoundary port s
  | .flightTakeover port => Sys2Proof.Machine.execFlightTakeover port s
  | .holdGraceExpiry port => Sys2Proof.Machine.execHoldGraceExpiry port s
  | .pauseDrained group entry => Sys2Proof.Machine.execPauseDrained group entry s
  | .rebalWaitExpiry group entry => Sys2Proof.Machine.execRebalWaitExpiry group entry s
  | .multicastCopyCross mid hall => Sys2Proof.Machine.execMulticastCopyCross mid hall s
  | .mgtBroadcast src => Sys2Proof.Machine.execMgtBroadcast src s
  | .mgtBroadcastCopyLeave hall pipe port fc => Sys2Proof.Machine.execMgtBroadcastCopyLeave hall pipe port fc s
  | .flushCompletionIssue port => Sys2Proof.Machine.execFlushCompletionIssue port s
  | .flushEnd port => Sys2Proof.Machine.execFlushEnd port s
  | .amberEntry port => Sys2Proof.Machine.execAmberEntry port s
  | .linkUp port info => Sys2Proof.Machine.execLinkUp port info s
  | .linkTrainingFail port => Sys2Proof.Machine.execLinkTrainingFail port s
  | .linkDown port => Sys2Proof.Machine.execLinkDown port s
  | .loopbackRequest port => Sys2Proof.Machine.execLoopbackRequest port s
  | .ideIntegrityFail port stream => Sys2Proof.Machine.execIdeIntegrityFail port stream s
  | .ideKeyProg port stream kind id set keys => Sys2Proof.Machine.execIdeKeyProg port stream kind id set keys s
  | .l1IdleExpiry port => Sys2Proof.Machine.execL1IdleExpiry port s
  | .l1ExitComplete port => Sys2Proof.Machine.execL1ExitComplete port s
  | .l0pHalve port => Sys2Proof.Machine.execL0pHalve port s
  | .l0pFullWidth port => Sys2Proof.Machine.execL0pFullWidth port s
  | .partnerPowerRequest port l1 width => Sys2Proof.Machine.execPartnerPowerRequest port l1 width s
  | .unbindDrainExpiry port ld => Sys2Proof.Machine.execUnbindDrainExpiry port ld s
  | .eyeScanEnd port lane upper middle lower => Sys2Proof.Machine.execEyeScanEnd port lane upper middle lower s
  | .prbsLockLoss lane symbols => Sys2Proof.Machine.execPrbsLockLoss lane symbols s
  | .packetFirstSend qpn env => Sys2Proof.Machine.execPacketFirstSend qpn env s
  | .contextFetchComplete qpn ok checkOk sq rq => Sys2Proof.Machine.execContextFetchComplete qpn ok checkOk sq rq s
  | .contextWriteBackDone qpn => Sys2Proof.Machine.execContextWriteBackDone qpn s
  | .galleryWrite pkt env => Sys2Proof.Machine.execGalleryWrite pkt env s
  | .galleryReadReq pkt env => Sys2Proof.Machine.execGalleryReadReq pkt env s
  | .galleryReadRsp pkt env => Sys2Proof.Machine.execGalleryReadRsp pkt env s
  | .gallerySend pkt env => Sys2Proof.Machine.execGallerySend pkt env s
  | .galleryDatagram pkt env => Sys2Proof.Machine.execGalleryDatagram pkt env s
  | .galleryAck pkt => Sys2Proof.Machine.execGalleryAck pkt s
  | .galleryNak pkt => Sys2Proof.Machine.execGalleryNak pkt s
  | .retryLaterResend qpn msn offset => Sys2Proof.Machine.execRetryLaterResend qpn msn offset s
  | .rtoExpiry qpn msn offset => Sys2Proof.Machine.execRtoExpiry qpn msn offset s
  | .completionWrite qpn => Sys2Proof.Machine.execCompletionWrite qpn s
  | .atsInvalidation port page => Sys2Proof.Machine.execAtsInvalidation port page s
  | .pageResponse bay page ok => Sys2Proof.Machine.execPageResponse bay page ok s
  | .mrDeregisterDone handle => Sys2Proof.Machine.execMrDeregisterDone handle s
  | .bayDrainEnd bay => Sys2Proof.Machine.execBayDrainEnd bay s
  | .drainLimitExpiry bay => Sys2Proof.Machine.execDrainLimitExpiry bay s
  | .bayResetComplete bay => Sys2Proof.Machine.execBayResetComplete bay s
  | .deviceNoticePost bay => Sys2Proof.Machine.execDeviceNoticePost bay s
  | .tagQuarantineRelease port tag => Sys2Proof.Machine.execTagQuarantineRelease port tag s
  | .stopInterface bay => Sys2Proof.Machine.execStopInterface bay s
  | .keyExchange party id period => Sys2Proof.Machine.execKeyExchange party id period s
  | .spdmFinish id ok => Sys2Proof.Machine.execSpdmFinish id ok s
  | .endSession o id => Sys2Proof.Machine.execEndSession o id s
  | .heartbeat o id => Sys2Proof.Machine.execHeartbeat o id s
  | .heartbeatExpiry id => Sys2Proof.Machine.execHeartbeatExpiry id s
  | .keyUpdate o id => Sys2Proof.Machine.execKeyUpdate o id s
  | .getMeasurements o => Sys2Proof.Machine.execGetMeasurements o s
  | .officerEnrol o session slot revoke hash => Sys2Proof.Machine.execOfficerEnrol o session slot revoke hash s
  | .drbgReseed => Sys2Proof.Machine.execDrbgReseed s
  | .selfTestFailure cause => Sys2Proof.Machine.execSelfTestFailure cause s
  | .debugToken anchor sigOk => Sys2Proof.Machine.execDebugToken anchor sigOk s
  | .oldEpochDrained mpu => Sys2Proof.Machine.execOldEpochDrained mpu s
  | .commitWaitExpiry mpu => Sys2Proof.Machine.execCommitWaitExpiry mpu s
  | .eventDrain lane => Sys2Proof.Machine.execEventDrain lane s
  | .wiredBayReset bay => Sys2Proof.Machine.execWiredBayReset bay s
  | .basaltEntry => Sys2Proof.Machine.execBasaltEntry s
  | .atriumSelf cause => Sys2Proof.Machine.execAtriumSelf cause s
  | .telemetryPeriod stream => Sys2Proof.Machine.execTelemetryPeriod stream s
  | .thermalSample die quarterC => Sys2Proof.Machine.execThermalSample die quarterC s
  | .waitToQueued ch => Sys2Proof.Machine.execWaitToQueued ch s
  | .stairwellAdmission feed => Sys2Proof.Machine.execStairwellAdmission feed s
  | .pgAssert ch => Sys2Proof.Machine.execPgAssert ch s
  | .pgLoss ch => Sys2Proof.Machine.execPgLoss ch s
  | .startTimeout ch => Sys2Proof.Machine.execStartTimeout ch s
  | .fastTrip ch => Sys2Proof.Machine.execFastTrip ch s
  | .ocTimeout ch => Sys2Proof.Machine.execOcTimeout ch s
  | .overTemperature ch => Sys2Proof.Machine.execOverTemperature ch s
  | .retryTimerExpiry ch => Sys2Proof.Machine.execRetryTimerExpiry ch s
  | .pgHold10s ch => Sys2Proof.Machine.execPgHold10s ch s
  | .boardInsertion ch => Sys2Proof.Machine.execBoardInsertion ch s
  | .boardRemoval ch => Sys2Proof.Machine.execBoardRemoval ch s
  | .fetShort ch => Sys2Proof.Machine.execFetShort ch s
  | .feedBad feed volt => Sys2Proof.Machine.execFeedBad feed volt s
  | .feedGood feed volt => Sys2Proof.Machine.execFeedGood feed volt s
  | .deadTimeExpiry ch => Sys2Proof.Machine.execDeadTimeExpiry ch s
  | .pgBlankingEnd ch outputMv => Sys2Proof.Machine.execPgBlankingEnd ch outputMv s
  | .feedDroop feed volt => Sys2Proof.Machine.execFeedDroop feed volt s
  | .feedDroopEnd feed volt => Sys2Proof.Machine.execFeedDroopEnd feed volt s
  | .vnewelUndervoltage => Sys2Proof.Machine.execVnewelUndervoltage s
  | .vnewelRestored => Sys2Proof.Machine.execVnewelRestored s
  | .diodeMeasure ch d0 d1 d2 => Sys2Proof.Machine.execDiodeMeasure ch d0 d1 d2 s
  | .thermalModelUpdate ch vdsMv iMa => Sys2Proof.Machine.execThermalModelUpdate ch vdsMv iMa s
  | .nwPerstNRise ch => Sys2Proof.Machine.execNwPerstNRise ch s
  | .receiverDetect port detected => Sys2Proof.Machine.execReceiverDetect port detected s
  | .uncorrectableMemoryError err => Sys2Proof.Machine.execUncorrectableMemoryError err s
  | .hallLinkError hall => Sys2Proof.Machine.execHallLinkError hall s
  | .lockInterfaceRequest bay stream => Sys2Proof.Machine.execLockInterfaceRequest bay stream s
  | .startInterfaceRequest bay => Sys2Proof.Machine.execStartInterfaceRequest bay s
  | .configurationRequest fn op => Sys2Proof.Machine.execConfigurationRequest fn op s
  | .hotResetExit port => Sys2Proof.Machine.execHotResetExit port s
  | .prbsCheckerLock lane symbols => Sys2Proof.Machine.execPrbsCheckerLock lane symbols s
  | .debugHalt halt => Sys2Proof.Machine.execDebugHalt halt s

end Sys2Proof.Machine
end

