-- ==== Sys2Proof/Safety.lean ====
section
/-! DEFINITION. The terms the statements are written in: a safe step, and what a command that passes the checks before its
body answers. -/

namespace Sys2Proof

open Machine

/-- The step answers a next state. -/
def Safe (s : State) : Prop := ∃ t, step s = .next t

namespace Machine

/-- The state a command's body runs on: its slot is read and its session's count advanced (R52, R59). -/
def entered (c : Cmd) (s : State) : State :=
  if c.session = 0 then intake c.origin s else countCommand c.session (intake c.origin s)

/-- The parameters of a command in plaintext (R59). -/
def plain (sp : OpSpec) (c : Cmd) (s : State) : Bytes := paramBytes (intake c.origin s) sp.code c

/-- No BUNDLE_ACTIVATE and no SELFTEST is being carried out (R79, R436). -/
def engineFree (s : State) : Bool := s.bundle.isNone && s.sec.testing.isNone

/-- The parameters of a command that its path carries and that passes R58 and steps 1 to 4 of R64, with no BUNDLE_ACTIVATE and no
SELFTEST being carried out. -/
def passes (sp : OpSpec) (c : Cmd) (s : State) : Option Params :=
  if !pathOpen s c.origin || tagBusy (intake c.origin s) sp.code c || ((intake c.origin s).boot.basalt && !basaltCode sp.code)
      || !engineFree (entered c s) then none
  else
    match preTag sp c (intake c.origin s) with
    | .error _ => none
    | .ok () =>
      match postTag sp c (plain sp c s) (entered c s) with
      | .error _ => none
      | .ok p => some p

/-- What every command that passes leaves of its session: APPROVED_GET's answer, and no session that was being closed (R437). -/
def closed (sp : OpSpec) (c : Cmd) (s : State) (t : State) : State :=
  closeEnded (noteApproved c.session (approvedUse sp.code (plain sp c s) (entered c s)) t)

/-- A command that passes, whose effect is to take its body's state to `t`: the reply with STATUS OK or OK_CLAMPED. -/
def replied (sp : OpSpec) (c : Cmd) (s : State) (clamps : List Clamp) (data : Bytes) (t : State) : State :=
  closed sp c s
    (sendReply { baseReply sp.code c (c.session != 0) with status := okStatus clamps false, clamps := clamps, data := data } t)

/-- A command that passes and is rejected in step 5 or 6: nothing is applied, and the reply names STATUS and FIELD. -/
def refusedWith (sp : OpSpec) (c : Cmd) (s : State) (st field : Nat) : State :=
  closed sp c s
    (sendReply { baseReply sp.code c (c.session != 0) with status := st, field := field } (entered c s))

/-- A command that passes and begins an operation that replies later (R74). -/
def opened (sp : OpSpec) (c : Cmd) (s : State) (k : OpKind) (clamps : List Clamp) (data : Bytes) (t : State) : State :=
  closed sp c s
    { t with ops := t.ops ++ [{ reply := { baseReply sp.code c (c.session != 0) with clamps := clamps, data := data }, kind := k }] }

/-- A running device that has this record at a port, of this type and in this state. -/
def portIs (s : State) (p : Nat) (q : Port) (t : PortType) (st : PortState) : Bool :=
  live s && getPort s p == some q && q.typ == t && q.st == st

/-- A command that passes with these parameters and asks for its effect. -/
def taken (sp : OpSpec) (c : Cmd) (s : State) (p : Params) : Bool := passes sp c s == some p && !bit c.flags 0

end Machine

end Sys2Proof
end

