-- ==== Sys2Proof/Certificates/Slice0/Obligations.lean ====
section
/-! DEFINITION. The statements for the provers. -/

open Sys2Proof Sys2Proof.Machine

/-- A step takes the command at the front of the queue and is that command's effect on the state with the queue's rest; on an
empty queue one CLK_D cycle passes, and with no port, queue pair, message leaving for another hall, bundle or SELFTEST, or in
a device that does not run, nothing else happens in it (the model's choice, DESIGN CHOICE, log 2). Where the spec leaves a
point open it rests on the model's choices in logs 1, 2. -/
def Obligations.StepRunsTheFrontCommand : Prop :=
  (∀ (s : State) (i : Instr) (r : List Instr), s.pending = i :: r → step s = exec i { s with pending := r })
  ∧ (∀ s : State, s.pending = [] →
      step s = .next (tick s)
      ∧ (live s = false ∨ (s.ports = [] ∧ s.qps = [] ∧ s.cells = [] ∧ s.bundle = none ∧ s.sec.testing = none) →
          tick s = { s with dc := s.dc + 1, ft := slewBy s.ft ((s.dc + 1) / 2) }))

/-- What State.reset holds (R513 to R517): POR_N is low, no rail is out, no clock runs, no image is loaded, nothing is
configured and no command waits. That the time count stands at 0 there is the model's choice (DESIGN CHOICE, log 5). Where
the spec leaves a point open it rests on the model's choices in logs 5, 20. -/
def Obligations.ResetHoldsTheDevice : Prop :=
  State.reset.boot.por = true ∧ State.reset.boot.pin = true ∧ State.reset.boot.rails = [] ∧ State.reset.boot.pll = false
  ∧ State.reset.boot.bedrock = false ∧ State.reset.boot.basalt = false ∧ State.reset.ports = [] ∧ State.reset.bays = []
  ∧ State.reset.qps = [] ∧ State.reset.cells = [] ∧ State.reset.sec.sessions = [] ∧ State.reset.atr.first = none
  ∧ State.reset.atr.hist = [] ∧ State.reset.dc = 0 ∧ State.reset.pending = [] ∧ live State.reset = false
  ∧ ∀ sp c, command sp c State.reset = .next State.reset

/-- While a cold reset holds the device (R515 to R517, R522), nothing that arrives brings it up: whatever command or event
stands at the front of the queue, but the rise of POR_N or the return of a rail, the device stays in reset with no port, no
bay, no queue pair, no session, no root clock, Bedrock not loaded and Basalt absent, and OTP and flash stay as they are.
Where the spec leaves a point open it rests on the model's choices in logs 2, 4. -/
def Obligations.ColdResetHolds : Prop :=
  ∀ s t : State,
    (s.boot.por = true ∧ s.boot.pll = false ∧ s.boot.bedrock = false ∧ s.boot.basalt = false ∧ s.ports = [] ∧ s.bays = []
      ∧ s.qps = [] ∧ s.sec.sessions = []) →
    (∀ st l, s.pending.head? ≠ some (.porNRise st l)) → (∀ rail, s.pending.head? ≠ some (.railRestored rail)) →
    step s = .next t →
    (t.boot.por = true ∧ t.boot.pll = false ∧ t.boot.bedrock = false ∧ t.boot.basalt = false ∧ t.ports = [] ∧ t.bays = []
      ∧ t.qps = [] ∧ t.sec.sessions = []) ∧ t.nv = s.nv ∧ s.dc ≤ t.dc

/-- Basalt is left by a cold reset alone, and changes no port's state (R475, R567): from a state in Basalt that no cold reset
holds, any step but those that begin or end a cold reset leaves the device in Basalt with every port's type, width and
state. Where the spec leaves a point open it rests on the model's choices in logs 4, 42. -/
def Obligations.BasaltHolds : Prop :=
  ∀ s t : State,
    (s.boot.basalt = true ∧ s.boot.por = false ∧ s.boot.pin = false ∧ s.boot.rails = [] ∧ s.sec.sessions = []) →
    s.pending.head? ≠ some .porNLow → (∀ rail, s.pending.head? ≠ some (.railOutOfRange rail)) →
    s.pending.head? ≠ some .deviceResetBegin →
    step s = .next t →
    (t.boot.basalt = true ∧ t.boot.por = false ∧ t.boot.pin = false ∧ t.boot.rails = [] ∧ t.sec.sessions = [])
    ∧ t.ports.map (fun e => (e.1, e.2.typ, e.2.width, e.2.st)) = s.ports.map (fun e => (e.1, e.2.typ, e.2.width, e.2.st))

/-- The checks before a command's body, in the order of R64 (R58, R59, R67, R475): the first that fails ends the command with
its STATUS and nothing applied; on MCTP over I3C a rejection leaves the reply and nothing else. Where the spec leaves a
point open it rests on the model's choices in logs 6, 19. -/
def Obligations.CommandsAreCheckedInTheOrderOfR64 : Prop :=
  (∀ (r : Reply) (e : Rej) (s : State), r.origin = .i3c →
    rejected r e s = putReply { r with status := e.status, field := e.field } none s
    ∧ (r.enc = false → rejected r e s = { s with
        out := .reply { r with status := e.status, field := e.field } none
          (replyBytes s { r with status := e.status, field := e.field }) :: s.out }))
  ∧ ∀ (sp : OpSpec) (c : Cmd) (s : State),
    (pathOpen s c.origin = false → command sp c s = .next s)
    ∧ (pathOpen s c.origin = true →
      let u := intake c.origin s
      let no : Nat → State → Host.Outcome State Fault Refusal := fun st x =>
        .next (sendReply { baseReply sp.code c false with status := st, field := 0xFFFF } x)
      let pl := plainLengthOk sp.layout (paramLen c)
      (tagBusy u sp.code c = true → command sp c s = no 0x21 u)
      ∧ (tagBusy u sp.code c = false →
        (u.boot.basalt = true → basaltCode sp.code = false → command sp c s = no 0x40 u)
        ∧ (u.boot.basalt = false →
          (carrierOk c = false ∨ pl = false → command sp c s = no 0x10 u)
          ∧ (carrierOk c = true → pl = true → c.session ≠ 0 → sessionOn u c.origin c.session = none →
              command sp c s = no 0x30 u)
          ∧ (carrierOk c = true → pl = true → c.session ≠ 0 → (sessionOn u c.origin c.session).isSome = true →
              tagOk u sp.code c = false → command sp c s = no 0x31 u)
          ∧ (carrierOk c = true → pl = true →
              c.session = 0 ∨ ((sessionOn u c.origin c.session).isSome = true ∧ tagOk u sp.code c = true) →
            let on : Nat → Host.Outcome State Fault Refusal := fun st => .next (sendReply
              { baseReply sp.code c (c.session != 0) with status := st, field := 0xFFFF }
              (noteApproved c.session true (entered c s)))
            (lengthOk sp.layout (plain sp c s) = false → command sp c s = on 0x10)
            ∧ (lengthOk sp.layout (plain sp c s) = true →
                roleOk sp.priv c.origin (if c.session = 0 then none else sessionOn (entered c s) c.origin c.session) = false →
                command sp c s = on 0x30)))))

/-- A command with CHECK_ONLY that passes the checks before its body (R66) answers and changes nothing else, whatever its body
would do: the state is that of its own reply on the state its body would have run on. Where the spec leaves a point open it
rests on the model's choices in log 3. -/
def Obligations.CheckOnlyChangesNothingButTheReply : Prop :=
  ∀ (sp : OpSpec) (c : Cmd) (s : State) (p : Params), passes sp c s = some p → bit c.flags 0 = true →
    ∃ r n, r.origin = c.origin ∧ r.opcode = sp.code ∧ r.tag = c.tag ∧ command sp c s =
      .next (closed sp c s (sendReply r { entered c s with freeN := n }))

/-- A source that fires (R461, R464, R465, R467, R468): a pending bit that is clear is set with the time, detail and reaction of
this firing; one that is set keeps its capture and is marked merged; FIRST_EVENT freezes on the lowest source of the first
CLK_A cycle; a wired reaction is due 6 dc later, and BASALT 10 dc later. The reaction is the one in force in the CLK_A cycle of the firing, a
change committed in that cycle apart. Beside this nothing changes but the notes of what fired in the cycle, and no source fires
once collection has stopped. Where the spec leaves a point open it rests on the model's choices in log 55. -/
def Obligations.FiringASourceRecordsIt : Prop :=
  ∀ (s : State) (src cause object actor : Nat),
    (s.atr.stopped = true ∨ s.boot.atr = false → fire src cause object actor s = s)
    ∧ (s.atr.stopped = false → s.boot.atr = true →
      ∃ e : Event, e.source = src ∧ e.cls = srcClass src ∧ e.react = reactNow s src ∧ e.cyc = s.dc / 8
        ∧ e.tInv = !s.ft.valid ∧ e.detail = detailOf cause object actor ∧ e.ts = fabricNs { s with dc := s.dc / 8 * 8 }
        ∧ (∀ k, k ≠ src → tget (fire src cause object actor s).atr.pend k = tget s.atr.pend k)
        ∧ (tget s.atr.pend src = none → tget (fire src cause object actor s).atr.pend src = some e)
        ∧ (∀ o, tget s.atr.pend src = some o →
            tget (fire src cause object actor s).atr.pend src = some { o with merged := true })
        ∧ (s.atr.first = none → (fire src cause object actor s).atr.first = some e)
        ∧ (∀ g, s.atr.first = some g → s.dc / 8 ≠ g.cyc ∨ g.source ≤ src →
            (fire src cause object actor s).atr.first = some g)
        ∧ (∀ g, s.atr.first = some g → s.dc / 8 = g.cyc → src < g.source →
            (fire src cause object actor s).atr.first = some e)
        ∧ (srcClass src < 2 ∨ reactNow s src < 2 → (fire src cause object actor s).atr.wired = s.atr.wired)
        ∧ (2 ≤ srcClass src → 2 ≤ reactNow s src →
            ∃ w : Wired, (fire src cause object actor s).atr.wired = s.atr.wired ++ [w] ∧ w.source = src
              ∧ w.react = reactNow s src ∧ w.due = s.dc + (if reactNow s src = 4 then 10 else 6))
        ∧ (tget s.atr.reactWas src = none → reactNow s src = reactOf s src)
        ∧ fire src cause object actor s = { s with atr := { s.atr with
            pend := (fire src cause object actor s).atr.pend, first := (fire src cause object actor s).atr.first,
            wired := (fire src cause object actor s).atr.wired, again := (fire src cause object actor s).atr.again,
            fired := (fire src cause object actor s).atr.fired } })

/-- The hash of a group's indirection (R263): a CRC-16 of polynomial 0x1021 from 0, not reflected, not inverted, over the bytes
of K from the most significant, each bit from the most significant; the index is its low 8 bits. -/
def Obligations.TheHashIsTheCrc16OfR263 : Prop :=
  (∀ bs : Bytes, crc16 bs = (bs.flatMap fun b => (List.range 8).map fun k => b / 2 ^ (7 - k) % 2).foldl
    (fun r d => (2 * r % 65536) ^^^ (if (r / 32768 + d) % 2 = 1 then 0x1021 else 0)) 0)
  ∧ crc16 [0x31, 0x32, 0x33, 0x34, 0x35, 0x36, 0x37, 0x38, 0x39] = 0x31C3
  ∧ (∀ m : Msg, hashIdx m = crc16 ((List.range 8).map fun k =>
      (2 ^ 48 * (m.spid % 4096) + 2 ^ 36 * (m.dpid % 4096) + hashF m) / 2 ^ (56 - 8 * k) % 256) % 2 ^ 8)
  ∧ (∀ bs : Bytes, crc16 bs < 65536)

/-- A range that a master's MPU checks is split into parts that follow one another from its first byte to its last, and no
region's or window's boundary lies inside a part (R447). -/
def Obligations.CheckedRangesSplitAtEveryBoundary : Prop :=
  ∀ (rg : Tab Rgn) (ws : Tab Window) (lo hi : Nat), lo < hi →
    let ps := partsFrom lo hi (cutsIn rg ws lo hi)
    (ps.map (·.2)).sum = hi - lo ∧ (ps.head?.map (·.1)) = some lo
    ∧ (∀ k a b, ps[k]? = some a → ps[k + 1]? = some b → a.1 + a.2 = b.1)
    ∧ (∀ a ∈ ps, 0 < a.2)
    ∧ (∀ a ∈ ps, ∀ e ∈ rg, e.2.valid = true → ¬(a.1 < e.2.base ∧ e.2.base < a.1 + a.2)
        ∧ ¬(a.1 < e.2.limit + 1 ∧ e.2.limit + 1 < a.1 + a.2))
    ∧ (∀ a ∈ ps, ∀ e ∈ ws, e.2.valid = true → ¬(a.1 < e.2.base ∧ e.2.base < a.1 + a.2)
        ∧ ¬(a.1 < e.2.base + 2 ^ e.2.log ∧ e.2.base + 2 ^ e.2.log < a.1 + a.2))

/-- A write of the command ring's producer index (R51): the occupancy is the difference mod 65,536 of free-running counts; a
write that would make it exceed the ring's size is ignored and fires the CORRECTED source of ring doorbells. -/
def Obligations.RingDoorbellsFollowR51 : Prop :=
  (∀ prod cons : Nat, prod < 65536 → cons < 65536 →
    ringOcc prod cons < 65536 ∧ (cons + ringOcc prod cons) % 65536 = prod)
  ∧ srcClass (srcCentral 9) = 0
  ∧ (∀ (s : State) (n v : Nat) (q : Port), live s = true → pf0Reach s n = true → getPort s n = some q → v < 65536 →
    (ringOcc v q.std.rings.cmdCons ≤ 2 ^ ringLog q.std.rings →
      ∃ t, exec (.cmdDoorbell n v) s = .next t ∧ (getPort t n).map (·.std.rings.cmdProd) = some v ∧ t.atr = s.atr)
    ∧ (2 ^ ringLog q.std.rings < ringOcc v q.std.rings.cmdCons →
      ∃ t, exec (.cmdDoorbell n v) s = .next t ∧ t.ports = s.ports ∧ t = fire (srcCentral 9) 1 n noActor s
        ∧ (s.atr.stopped = false → (tget t.atr.pend (srcCentral 9)).isSome = true)))

/-- EYE_SCAN (R124): rejected with INVALID_STATE on a port that is not UP, with BUSY on a lane already scanned; a scan that is
accepted leaves the scans of the other lanes as they are. -/
def Obligations.EyeScanNeedsUpAndAFreeLane : Prop :=
  ∀ (s : State) (c : Cmd) (p : Params) (n l d e h : Nat) (q : Port), taken specEyeScan c s p = true → raw p 0 2 = some n →
      getPort (entered c s) n = some q → raw p 2 2 = some l → l < q.width → (raw p 4 2).getD 10 = d → 1 ≤ d → d ≤ 1000 →
      (raw p 6 1).getD 0 = e → e ≤ 3 → (raw p 7 1).getD 6 = h → 3 ≤ h → h ≤ 12 →
    (q.st ≠ .up → exec (.eyeScan c) s = .next (refusedWith specEyeScan c s 0x20 0xFFFF))
    ∧ (q.st = .up → (getLane s (n + l)).scan.isSome = true →
        exec (.eyeScan c) s = .next (refusedWith specEyeScan c s 0x21 0xFFFF))
    ∧ (q.st = .up → (getLane s (n + l)).scan = none →
        ∃ t, exec (.eyeScan c) s = .next t ∧ (getLane t (n + l)).scan.isSome = true
          ∧ ∀ k, k ≠ n + l → getLane t k = getLane s k)

/-- Writes of NW_CH_BOARD, NW_CH_THERM and NW_CH_ASSOC (R482): they take effect while the channel is OFF, LOCKOUT or SHORT, and
in any other state have none. -/
def Obligations.BoardRegistersAreWrittenAtRest : Prop :=
  ∀ (s : State) (h v : Nat), s.boot.por = false → s.boot.pll = true → mgrReach s = true → h < 32 →
    let x := getChan s h
    let rest := x.st = .off ∨ x.st = .lockout ∨ x.st = .short
    (∃ t, exec (.nwChBoardWrite h 0 v) s = .next t ∧ (¬rest → getChan t h = x)
      ∧ (rest → getChan t h = { x with board := BitVec.ofNat 32 (v % 2 ^ 27) }) ∧ ∀ k, k ≠ h → getChan t k = getChan s k)
    ∧ (∃ t, exec (.nwChBoardWrite h 1 v) s = .next t ∧ (¬rest → getChan t h = x)
      ∧ (rest → getChan t h = { x with therm := BitVec.ofNat 32 v }) ∧ ∀ k, k ≠ h → getChan t k = getChan s k)
    ∧ (∃ t, exec (.nwChAssocWrite h v) s = .next t ∧ (¬rest → getChan t h = x)
      ∧ (rest → bit v 31 = false → getChan t h = { x with assoc := BitVec.ofNat 32 (v % 512) })
      ∧ (rest → bit v 31 = true → (∀ k, k < 32 → k ≠ h → bit (getChan s k).assoc.toNat 31 = false) →
          getChan t h = { x with assoc := BitVec.ofNat 32 (v % 512 + 2 ^ 31) })
      ∧ ∀ k, k ≠ h → getChan t k = getChan s k)

/-- The record in the VDD_AON backup store (R516): a cold reset in which VDD_AON rises from below its range leaves it empty,
with SY_RESET_CAUSE.AON_LOST set; every other cold reset keeps it, from its beginning to its end. -/
def Obligations.TheRecordIsLostWithVddAonAlone : Prop :=
  let rec5 := fun s : State => (s.atr.first, s.atr.hist, s.atr.ovHist, s.atr.ovRing, s.atr.basaltRec)
  (∀ (s : State) (st : Straps), s.boot.pin = true → s.boot.por = true →
    ∃ t, exec (.porNRise st true) s = .next t ∧ rec5 t = (none, [], 0, 0, none)
      ∧ (s.boot.rails = [] → t.boot.por = false ∧ t.boot.cause.getLsbD 6 = true))
  ∧ (∀ (s : State) (st : Straps), ∃ t, exec (.porNRise st false) s = .next t ∧ rec5 t = rec5 s)
  ∧ (∀ s : State, ∃ t, exec .porNLow s = .next t ∧ rec5 t = rec5 s)
  ∧ (∀ (s : State) (rail : Nat), (∃ t, exec (.railOutOfRange rail) s = .next t ∧ rec5 t = rec5 s)
      ∧ (∃ t, exec (.railRestored rail) s = .next t ∧ rec5 t = rec5 s))
  ∧ (∀ (s : State) (t0 : Nat), s.boot.resetPend = some (2, t0) →
      ∃ t, exec .deviceResetBegin s = .next t ∧ rec5 t = rec5 s)

/-- A port command in a state its rule does not allow applies nothing and answers INVALID_STATE (R64, R67, R94, R232); DOWN and
DISABLED take PORT_DOWN as done, with 32 zero bytes, and DISABLED takes PORT_DISABLE as done (R81, R94). -/
def Obligations.PortCommandsInOtherStates : Prop :=
  ∀ (s : State) (c : Cmd) (p : Params) (n : Nat) (q : Port), raw p 0 2 = some n → getPort (entered c s) n = some q →
    (passes specPortEnable c s = some p → q.st ≠ .disabled →
      exec (.portEnable c) s = .next (refusedWith specPortEnable c s 0x20 0xFFFF))
    ∧ (passes specPortDisable c s = some p → q.st ≠ .disabled → q.st ≠ .down →
      exec (.portDisable c) s = .next (refusedWith specPortDisable c s 0x20 0xFFFF))
    ∧ (passes specPortRelease c s = some p → q.st ≠ .amber →
      exec (.portRelease c) s = .next (refusedWith specPortRelease c s 0x20 0xFFFF))
    ∧ (taken specPortDown c s p = true → (q.st = .down ∨ q.st = .disabled) →
      exec (.portDown c) s = .next (replied specPortDown c s [] (List.replicate 32 0) (entered c s)))
    ∧ (taken specPortDisable c s p = true → q.st = .disabled →
      exec (.portDisable c) s = .next (replied specPortDisable c s [] [] (entered c s)))

/-- A cold reset begins when POR_N falls or a rail leaves its range (R515, R516, R517, R533): everything is at its reset value
but OTP and flash, the VDD_AON record and the cause. Where the spec leaves a point open it rests on the model's choices in
logs 5, 38. -/
def Obligations.ColdResetKeepsOnlyWhatR516Names : Prop :=
  let kept : State → Boot → List Output → State := fun s b o =>
    { State.reset with
      boot := b, nv := s.nv, sec := { lock := lockReset s.nv }, temps := s.temps, freeN := s.freeN, nextMid := s.nextMid,
      atr := { first := s.atr.first, hist := s.atr.hist, ovHist := s.atr.ovHist, ovRing := s.atr.ovRing,
               basaltRec := s.atr.basaltRec },
      pending := s.pending, out := o ++ s.out }
  (∀ s : State, s.boot.por = false → s.boot.pin = false →
    ∃ o, exec .porNLow s = .next (kept s
      { por := true, pin := true, rails := s.boot.rails, straps := s.boot.straps, perst := s.boot.perst,
        causeNext := 2 ||| (if s.boot.basalt then 0x20 else 0) } o))
  ∧ (∀ (s : State) (rail : Nat), s.boot.por = false → rail < 4 → s.boot.rails.contains rail = false →
    ∃ o, exec (.railOutOfRange rail) s = .next (kept s
      { por := true, pin := s.boot.pin, rails := s.boot.rails ++ [rail], straps := s.boot.straps, perst := s.boot.perst,
        causeNext := 4 ||| (if s.boot.basalt then 0x20 else 0) } o))

/-- The device leaves a cold reset when nothing holds it any longer (R514, R515, R518, R537): the straps are sampled, the causes
gathered stand in SY_RESET_CAUSE, and time starts at 0. Where the spec leaves a point open it rests on the model's choices
in logs 38, 43. -/
def Obligations.ReleaseStartsTimeZero : Prop :=
  (∀ (s : State) (st : Straps) (lost : Bool), s.boot.pin = true → s.boot.por = true → s.boot.rails = [] →
    exec (.porNRise st lost) s = .next
      { s with
        dc := 0, ft := {}, atr := if lost then {} else s.atr,
        boot := { s.boot with
          por := false, pin := false, straps := { st with pmap := st.pmap % 16, mgrHall := st.mgrHall % 8 },
          cause := (if lost then s.boot.causeNext ||| 0x41 else s.boot.causeNext), causeNext := 0,
          pmapBad := decide (5 < st.pmap % 16) } })
  ∧ (∀ (s : State) (rail : Nat), s.boot.rails = [rail] → s.boot.pin = false → s.boot.por = true →
    exec (.railRestored rail) s = .next
      { s with
        dc := 0, ft := {},
        boot := { s.boot with
          por := false, rails := [], cause := s.boot.causeNext, causeNext := 0,
          pmapBad := decide (5 < s.boot.straps.pmap) } })

/-- The boot timeline (R519 to R522, R526): the strap map's ports exist once PLL_ROOT locks, Atrium and the tables come up,
Bedrock loads an accepted image, and Mezzanine runs. Where the spec leaves a point open it rests on the model's choices in
log 27. -/
def Obligations.BootTimelineRunsInOrder : Prop :=
  (∀ s : State, s.boot.por = false → s.boot.pll = false → s.boot.basalt = false → s.ft.valid = false →
    ∃ t, exec .pllRootLock s = .next t ∧ t.boot.pll = true
      ∧ t.ports.map (fun e => (e.1, e.2.width, e.2.typ)) = strapMap s.boot.straps.pmap
      ∧ t.boot.mgr = (((strapMap s.boot.straps.pmap).filter fun e => e.2.2 == .h).map (·.1)).find?
          (fun p => p / 64 == s.boot.straps.mgrHall)
      ∧ t.nv = s.nv ∧ t.sec = s.sec ∧ t.bays = s.bays ∧ t.cells = s.cells ∧ t.gn = s.gn ∧ t.qps = s.qps)
  ∧ (∀ s : State, s.boot.por = false → s.boot.pll = true → s.boot.basalt = false →
    exec .atriumInitDone s = .next (setBoot (fun b => { b with atr := true }) s))
  ∧ (∀ (s : State) (patchOk : Bool), live s = true → s.boot.bedrock = false → (s.nv.patch = true → patchOk = true) →
    exec (.bedrockReady patchOk true) s = .next ((hPorts s).foldl trainHost
      { s with boot := { s.boot with bedrock := true, mezz := .loading, rejected := [], image := none },
               sec := { s.sec with testsOk := true, identity := true, drbg := true, drbgReqs := 0 } }))
  ∧ (∀ (s : State) (slot : Nat) (flash : Bytes), live s = true → s.boot.bedrock = true → s.boot.mezz = .loading →
      loadSlot s = some slot →
      let im := imageOf s flash
      imageFault (setNv (fun v => { v with images := tset v.images slot im }) s) im = 0 →
    exec (.mezzanineImageVerified slot (some flash)) s =
      .next (setBoot (fun b => { b with mezz := .started, slot := slot, image := some im })
        (setNv (fun v => { v with images := tset v.images slot im }) s)))
  ∧ (∀ s : State, live s = true → s.boot.mezz = .started →
    ∃ t, exec .mezzanineRunning s = .next t ∧ t.boot = { s.boot with mezz := .running, warm := false }
      ∧ (∀ p, isType s .h p = true → (getPort t p).map (·.std.ready) = some true)
      ∧ t.atr = s.atr ∧ t.sec = s.sec ∧ t.nv = s.nv ∧ t.out = s.out)

/-- A stop of Mezzanine raises MEZZ_STOP, and Bedrock restarts it unless it is the fifth within 60 s (R531, R532). Where the
spec leaves a point open it rests on the model's choices in log 44. -/
def Obligations.MezzanineStopRestartsUntilTheFifth : Prop :=
  ∀ s : State, live s = true → s.boot.mezz = .running → s.atr.stopped = false →
    let late := (s.boot.stops.filter fun t => decide (s.dc < t + 120000000000)).length
    (∃ t, exec .watchdogExpiry s = .next t ∧ (tget t.atr.pend (srcCentral 6)).isSome = true
      ∧ (late < 4 → t.boot.mezz = .loading ∧ t.boot.restarts = satAdd 8 s.boot.restarts 1)
      ∧ (4 ≤ late → t.boot.mezz = .stopped ∧ t.boot.limit = true ∧ t.boot.restarts = s.boot.restarts)
      ∧ t.cells = s.cells ∧ t.gn = s.gn ∧ t.sec = s.sec)
    ∧ (∀ core, core < 4 →
      ∃ t, exec (.mezzException core) s = .next t ∧ (tget t.atr.pend (srcCentral 6)).isSome = true
        ∧ (late < 4 → t.boot.mezz = .loading ∧ t.boot.restarts = satAdd 8 s.boot.restarts 1)
        ∧ (4 ≤ late → t.boot.mezz = .stopped ∧ t.boot.limit = true ∧ t.boot.restarts = s.boot.restarts)
        ∧ t.cells = s.cells ∧ t.gn = s.gn ∧ t.sec = s.sec)

/-- DEVICE_RESET replies at its commit and is due 100 us later; at that time KIND 2 acts as a cold reset that ends at once, with
causes COLD and, out of Basalt, BASALT (R535, R537); KIND 1 restarts Mezzanine. Where the spec leaves a point open it rests
on the model's choices in logs 38, 44. -/
def Obligations.DeviceResetFollowsItsReplyBy100us : Prop :=
  (∀ (s : State) (c : Cmd) (p : Params) (k : Nat), taken specDeviceReset c s p = true →
      raw p 0 1 = some k → k ≤ 2 → raw p 4 4 = some 0x52534554 → s.boot.resetPend = none →
    exec (.deviceReset c) s = .next (replied specDeviceReset c s [] []
      (setBoot (fun b => { b with resetPend := some (k, (entered c s).dc + 200000) }) (entered c s))))
  ∧ (∀ (s : State) (t0 : Nat), s.boot.resetPend = some (2, t0) → s.boot.por = false → s.boot.pin = false →
      s.boot.rails = [] →
    ∃ t, exec .deviceResetBegin s = .next t ∧ t.boot.por = false ∧ t.boot.resetPend = none ∧ t.boot.basalt = false
      ∧ t.boot.cause = 8 ||| (if s.boot.basalt then 0x20 else 0) ∧ t.ports = [] ∧ t.sec.sessions = [] ∧ t.dc = 0
      ∧ t.nv = s.nv ∧ t.boot.straps = s.boot.straps)
  ∧ (∀ (s : State) (t0 : Nat), s.boot.resetPend = some (1, t0) → s.boot.por = false → s.boot.basalt = false →
      s.boot.warm = false →
    ∃ t, exec .deviceResetBegin s = .next t ∧ t.boot.resetPend = none ∧ t.boot.mezz = .loading
      ∧ t.boot.restarts = satAdd 8 s.boot.restarts 1 ∧ t.boot.limit = false ∧ t.dc = max s.dc t0 ∧ t.sec = s.sec ∧ t.gn = s.gn)

/-- The port commands of R81, R94, R232 and R89, each in the state its rule allows: PORT_ENABLE starts training, PORT_DOWN
begins the flush, PORT_DISABLE follows DOWN, PORT_RELEASE leaves AMBER, PORT_STATUS reads. Where the spec leaves a point
open it rests on the model's choices in log 27. -/
def Obligations.PortCommandsMoveThePort : Prop :=
  (∀ (s : State) (c : Cmd) (p : Params) (n : Nat) (q : Port), taken specPortEnable c s p = true →
      raw p 0 2 = some n → getPort (entered c s) n = some q → q.st = .disabled →
      tested s n q = false → portBusy s n = false →
    exec (.portEnable c) s = .next (replied specPortEnable c s [] [] (startTraining n (entered c s))))
  ∧ (∀ (s : State) (c : Cmd) (p : Params) (n : Nat) (q : Port), taken specPortDisable c s p = true → raw p 0 2 = some n → getPort (entered c s) n = some q → q.st = .down →
      portBusy s n = false →
    exec (.portDisable c) s = .next (replied specPortDisable c s [] []
      (portTo n .disabled (setStd n (fun d => { d with amberCause := 0 }) (entered c s)))))
  ∧ (∀ (s : State) (c : Cmd) (p : Params) (n : Nat) (q : Port), taken specPortDown c s p = true → raw p 0 2 = some n → getPort (entered c s) n = some q →
      q.st ≠ .down → q.st ≠ .disabled → amberWired s n = [] → (q.st = .amber → cameFrom (entered c s) q = none) →
    exec (.portDown c) s = .next (opened specPortDown c s (.portDown n) [] []
      (enterDown n .down (unHold n (abortOp (.portDown n) (entered c s))))))
  ∧ (∀ (s : State) (c : Cmd) (p : Params) (n : Nat) (q : Port), taken specPortRelease c s p = true → raw p 0 2 = some n → getPort (entered c s) n = some q → q.st = .amber →
      portBusy s n = false →
    exec (.portRelease c) s = .next (replied specPortRelease c s [] []
      (startTraining n (if q.typ == .h then pf0Reset n (entered c s) else entered c s))))
  ∧ (∀ (s : State) (c : Cmd) (p : Params) (n k : Nat), taken specPortStatus c s p = true →
      raw p 0 2 = some n → (raw p 2 2).getD 1 = k → 1 ≤ k → k ≤ 64 → n + k ≤ 512 →
    exec (.portStatus c) s = .next (replied specPortStatus c s []
      ((List.range k).flatMap fun j => portRecord (entered c s) (n + j)) (entered c s)))

/-- PORT_MAP_SET with a map that keeps R30 to R34 applies it; its reply carries no data (R35, R36, R93, R288). Where the spec
leaves a point open it rests on the model's choices in log 28. -/
def Obligations.PortMapSetAppliesALegalMap : Prop :=
  ∀ (s : State) (c : Cmd) (p : Params) (n : Nat) (es : List MapEnt), taken specPortMapSet c s p = true →
      raw p 0 2 = some n → n ≤ 512 → mapEntries p n 0 [] = pure es → mapFault [] es 0 = none →
      (∀ e ∈ (entered c s).ports, (es.any fun x => x.1 == e.1 && x.2.1 == e.2.width && x.2.2 == e.2.typ) = true
        ∨ ((e.2.st = .disabled ∨ e.2.st = .down) ∧ s.boot.mgr ≠ some e.1 ∧ portBusy (entered c s) e.1 = false
          ∧ tested (entered c s) e.1 e.2 = false)) →
    exec (.portMapSet c) s = .next (replied specPortMapSet c s [] [] (applyMap es (entered c s)))

/-- Link events of H ports and D ports (R39, R129, R192, R201, R203, R233): LINK_UP brings a port in TRAINING to UP with the
width and rate found; a lost link fires the port's PORT_LINK source; a failed training is counted. Resets of H ports (R525,
R527, R528): a hot reset or PERST_N low takes an UP port to DOWN, and its end or PERST_N high starts fresh training. AMBER
and the end of a flush (R228, R280, R281, R461): the wired reaction takes effect 6 CLK_D cycles after the firing; a flush
issues one completion at a time and ends after four descriptors per cycle, with PORT_DOWN's counts. Where the spec leaves a
point open it rests on the model's choices in logs 27, 55. -/
def Obligations.LinkEventsMoveStandardPorts : Prop :=
  ((∀ (s : State) (p : Nat) (q : Port) (info : LinkInfo), live s = true → getPort s p = some q → q.typ ≠ .span →
         q.st = .training → slotPowered s p = true → 0 < info.width → info.width ≤ q.width → groupOf s p = none →
       ∃ t r, exec (.linkUp p info) s = .next t ∧ getPort t p = some r ∧ r.st = .up ∧ r.widthNow = info.width
         ∧ r.rate = min info.rate (if info.flit then 6 else 4) ∧ r.flit = info.flit ∧ r.std.linkW = info.width
         ∧ t.cells = s.cells ∧ t.bays.length = s.bays.length ∧ t.sec = s.sec ∧ t.gn = s.gn ∧ t.nw = s.nw)
     ∧ (∀ (s : State) (p : Nat) (q : Port), live s = true → getPort s p = some q → q.typ ≠ .span → q.st = .training →
       exec (.linkTrainingFail p) s = .next (bumpPort p oHpTrainFail 1 s))
     ∧ (∀ (s : State) (p : Nat) (q : Port), live s = true → getPort s p = some q → q.typ ≠ .span → q.st = .up →
       exec (.linkDown p) s = .next (fire (srcLink p) 1 p noActor s)
       ∧ exec (.loopbackRequest p) s = .next (fire (srcLink p) 1 p noActor s))
     ∧ (∀ (s : State) (p : Nat) (q : Port) (d : Bool), live s = true → getPort s p = some q → q.typ = .d → q.st = .training →
         slotPowered s p = true →
       ∃ t r, exec (.receiverDetect p d) s = .next t ∧ getPort t p = some r ∧ r = { q with std := { q.std with rxDet := d } }
         ∧ t.cells = s.cells ∧ t.atr = s.atr ∧ t.lanes = s.lanes))
  ∧ ((∀ (s : State) (p : Nat) (q : Port), live s = true → getPort s p = some q → q.typ = .h → q.st = .up →
       exec (.hotReset p) s = .next (setStd p (fun d => { d with hotRst := true }) (hostDown p s)))
     ∧ (∀ (s : State) (p : Nat) (q : Port), live s = true → getPort s p = some q → q.typ = .h → q.st = .down →
         q.std.hotRst = true → perstHigh s p = true →
       exec (.hotResetExit p) s = .next (freshTraining p (setStd p (fun d => { d with hotRst := false }) s)))
     ∧ (∀ (s : State) (i p : Nat) (q : Port), live s = true → perstPort s i = some p → getPort s p = some q → q.st = .up →
       exec (.perstNAssert i) s = .next (setStd p (fun d => { d with perstDown := true, hotRst := false })
         (hostDown p (setBoot (fun b => { b with perst := b.perst.filter (· != i) }) s))))
     ∧ (∀ (s : State) (i p : Nat) (q : Port), live s = true → s.boot.bedrock = true → perstPort s i = some p →
         getPort s p = some q → q.st = .down → q.std.perstDown = true → s.boot.perst.contains i = false →
       exec (.perstNDeassert i) s =
         .next (freshTraining p (setBoot (fun b => { b with perst := b.perst ++ [i] }) s))))
  ∧ ((∀ (s : State) (p : Nat) (w : Wired), live s = true → leastBy (·.due) (amberWired s p) = some w →
       exec (.amberEntry p) s = .next (amberDue p (clockTo w.due s)))
     ∧ (∀ (s : State) (p : Nat) (q : Port) (f : Flush) (m : Msg) (r : List Msg), live s = true → getPort s p = some q →
         q.flush = some f → f.compl = m :: r → f.active = true →
       exec (.flushCompletionIssue p) s = .next (sendCompletion p m (setPort p (fun q => { q with
         flush := some { f with compl := r, next := max f.next (clockTo f.next s).dc + 1 } }) (clockTo f.next s))))
     ∧ (∀ (s : State) (p : Nat) (q : Port) (f : Flush), live s = true → getPort s p = some q → q.flush = some f →
         f.active = true → f.abort = false → q.st = .down →
       exec (.flushEnd p) s = .next (endNewelOffs p false (endOp (.zeroDown p) 0 [] (endOp (.portDown p) 0 (flushData f)
         (firePipe p 3 (setPort p (fun q => { q with flush := if f.compl.isEmpty then none else some { f with active := false } })
           (clockTo (f.at_ + ceilDiv f.n 4) s))))))))

/-- LANE_TEST in DISABLED (R98, R122, R123): MODE 1 to 4 starts a test on the selected lanes and on no other; MODE 0 stops it and
returns each selected lane's lock state and counts. The checker of a tested lane (R122): once seeded it locks after 256 bits
without error, counts each wrong bit while locked, and the 64th wrong bit in 1,024 loses lock and counts one loss. EYE_SCAN
(R124 to R126) runs DWELL ms in UP and replies with the margins measured. Where the spec leaves a point open it rests on the
model's choices in logs 7, 16, 48, 80, 81. -/
def Obligations.LaneTestsAndEyeScans : Prop :=
  (∀ (s : State) (c : Cmd) (p : Params) (n mask mode dir pat pre rate pst : Nat) (q : Port),
         taken specLaneTest c s p = true → raw p 0 2 = some n → getPort (entered c s) n = some q → q.st = .disabled →
         portBusy s n = false → (raw p 2 2).getD (2 ^ q.width - 1) = mask → mask < 2 ^ q.width → raw p 4 1 = some mode →
         (raw p 5 1).getD 3 = dir → 1 ≤ dir → dir ≤ 3 → (raw p 6 1).getD 0 = pat → pat ≤ (if q.typ == .span then 5 else 4) →
         (raw p 7 1).getD 1 = pre → pre ≤ 1 → (raw p 8 1).getD (if q.typ == .span then 7 else 6) = rate →
         (if q.typ == .span then 7 ≤ rate ∧ rate ≤ 9 else rate ≤ 6) →
         (raw p 9 1).getD (if q.typ == .span then 3 else 4) = pst → pst ≤ (if q.typ == .span then 7 else 10) →
       let sel := fun l => (List.range q.width).any fun k => bit mask k && l == n + k
       (mode = 0 →
         ∃ t, exec (.laneTest c) s = .next (replied specLaneTest c s [] (testResult s n mask q.width) t)
           ∧ (∀ l, sel l = true → getLane t l = { getLane s l with test := none, prbsLock := false, rate := 15 })
           ∧ (∀ l, sel l = false → getLane t l = getLane s l)
           ∧ t = { entered c s with lanes := t.lanes })
       ∧ (1 ≤ mode → mode ≤ 4 →
         ∃ t, exec (.laneTest c) s = .next (replied specLaneTest c s [] [] t)
           ∧ (∀ l, sel l = true → (getLane t l).test = some (LaneTest.mk mode dir pat (q.typ == .span || pre == 1) rate pst)
               ∧ (getLane t l).prbsLock = false ∧ (getLane t l).rate = rate)
           ∧ (∀ l, sel l = false → getLane t l = getLane s l)
           ∧ t = { entered c s with lanes := t.lanes, freeN := t.freeN }))
  ∧ ((∀ (s : State) (l : Nat) (sy : List Nat), live s = true →
       exec (.prbsCheckerLock l sy) s = .next (runChecker l sy s) ∧ exec (.prbsLockLoss l sy) s = .next (runChecker l sy s)
       ∧ (∀ k, k ≠ l → getLane (runChecker l sy s) k = getLane s k)
       ∧ runChecker l sy s = { s with lanes := (runChecker l sy s).lanes, incNow := (runChecker l sy s).incNow })
     ∧ (∀ (m : Nat) (x : Lane) (e k b : Nat), prbsLen m ≤ x.chkSeed →
         let bad := prbsShift m x.chk % 2 ≠ b
         let y := checkBit m (x, e, k) b
         (x.prbsLock = false → y.2 = (e, k) ∧ (bad → y.1.prbsLock = false ∧ y.1.chkSeed = 0)
           ∧ (¬bad → y.1.chkGood = x.chkGood + 1 ∧ (y.1.prbsLock = true ↔ 256 ≤ x.chkGood + 1)))
         ∧ (x.prbsLock = true → (¬bad → y.2 = (e, k))
           ∧ (bad → y.2.1 = e + 1 ∧ (63 ≤ (x.chkErrs.filter fun i => decide (x.chkBits + 1 < i + 1024)).length →
               y.1.prbsLock = false ∧ y.2.2 = k + 1)
             ∧ ((x.chkErrs.filter fun i => decide (x.chkBits + 1 < i + 1024)).length < 63 →
               y.1.prbsLock = true ∧ y.2.2 = k))))
     ∧ (∀ (s : State) (c : Cmd) (p : Params) (n l d e h : Nat) (q : Port), taken specEyeScan c s p = true →
         raw p 0 2 = some n → getPort (entered c s) n = some q → q.st = .up → raw p 2 2 = some l → l < q.width →
         (raw p 4 2).getD 10 = d → 1 ≤ d → d ≤ 1000 → (raw p 6 1).getD 0 = e → e ≤ 3 → (raw p 7 1).getD 6 = h → 3 ≤ h →
         h ≤ 12 → (getLane s (n + l)).scan = none →
       exec (.eyeScan c) s = .next (opened specEyeScan c s (.eyeScan n l) [] [] (startL1Exit n (setLane (n + l)
         (fun y => { y with scan := some { at_ := if q.std.l1 then none else some (entered c s).dc, dwell := d, eye := e, thr := h } })
         (entered c s)))))
     ∧ (∀ (s : State) (n l t : Nat) (q : Port) (x : Scan) (u m w : Eye), live s = true → getPort s n = some q →
         (getLane s (n + l)).scan = some x → x.at_ = some t → (findOp s (.eyeScan n l)).isSome = true →
       exec (.eyeScanEnd n l u m w) s = .next (endOp (.eyeScan n l) 0 (eyeData true (nrzRate q.rate) x u m w)
         (noteTlp n (setLane (n + l) (fun y => { y with scan := none }) (clockTo (t + 2000000 * x.dwell) s))))))

/-- Clock and lane faults (R28, R39, R99, R101, R120, R476): loss of PLL_ROOT is Basalt at once, a quad's loss ends the links on
it, an elastic slip is counted and DEGRADED, a lost CDR or a third missed alignment word loses a span's lock. Span lock lost
(R39, R120, R166, R174): with AMBER_POLICY 0 the span holds, with 1 its PORT_LINK source fires. Where the spec leaves a
point open it rests on the model's choices in logs 45, 46. -/
def Obligations.ClockAndLaneFaults : Prop :=
  ((∀ s : State, s.boot.por = false → s.boot.pll = true →
       exec .rootPllLockLoss s = .next (setBoot (fun b => { b with pll := false })
         (setAtr (fun a => { a with stopped := true }) (enterBasalt (srcCentral 0) s))))
     ∧ (∀ (s : State) (k : Nat), live s = true → k < 128 → s.boot.quadLost.contains k = false →
       exec (.quadPllLockLoss k) s = .next
         ((s.ports.filter fun e => ((portLanes e.1 e.2).map quadOf).contains k).foldl (fun s e =>
           if e.2.typ == .span then loseLock e.1 3 s else loseLink e.1 3 s)
           (setBoot (fun b => { b with quadLost := s.boot.quadLost ++ [k] }) s)))
     ∧ (∀ (s : State) (l n : Nat) (q : Port), live s = true → lanePort s l = some (n, q) →
       exec (.elasticSlip l) s = .next (fireDegr n 1 (bumpLane l 0x10 1 s)))
     ∧ (∀ (s : State) (l n : Nat) (q : Port), live s = true → lanePort s l = some (n, q) → l < n + q.widthNow →
       exec (.cdrLockLoss l) s = .next (loseLock n 4 (setLane l (fun x => { x with cdr := false }) s)))
     ∧ (∀ (s : State) (l n : Nat) (q : Port), live s = true → lanePort s l = some (n, q) → q.typ = .span → q.st = .up →
         l < n + q.widthNow → (getLane s l).misses = 2 → s.dc ≤ (getLane s l).missAt + wordEvery q →
       exec (.alignWordMiss l) s = .next (loseLock n 4 (bumpLane l 0x14 1 (setLane l (fun x => { x with
         misses := 3, missAt := (clockTo ((getLane s l).missAt + wordEvery q) s).dc })
         (clockTo ((getLane s l).missAt + wordEvery q) s)))))
     ∧ (∀ (s : State) (l n : Nat) (q : Port), live s = true → lanePort s l = some (n, q) → q.typ = .span → q.st = .up →
         l < n + q.widthNow → (getLane s l).misses = 0 →
       exec (.alignWordMiss l) s = .next (bumpLane l 0x14 1 (setLane l (fun x => { x with misses := 1, missAt := s.dc }) s))))
  ∧ (∀ (s : State) (n cause : Nat) (q : Port), getPort s n = some q → q.typ = .span → q.st = .up →
       (q.scfg.amber = 1 → loseLock n cause s = fire (srcLink n) cause n noActor s)
       ∧ (q.scfg.amber = 0 → loseLock n cause s = enterHold n s))

/-- The CRC-64 of a flit (R136): the reflected form of the polynomial, a register of ones, each byte least significant bit first
and the result inverted, with the value R136 gives for nine ASCII bytes. The receiver of a span in UP, not in M1280 mode (R138,
R155 to R157), after its lanes have read the flit (R102 to R105, R137): one that fails the FEC, or the CRC, is counted, CORRECTED
on the pipe and goes no further; a DATA flit with the SEQ expected and a body that its keys open is accepted and its slots
delivered; one whose tag fails is counted, DEGRADED, and asked for again; an IDLE flit acts by its header alone (R135); a type
that R134 does not know is counted and DEGRADED. Where the spec leaves a point open it rests on the model's choices in logs 46,
73. -/
def Obligations.ReceivedFlitsFollowTheirOrder : Prop :=
  ((∀ bs : Bytes, crc64 bs = ((bs.flatMap fun b => (List.range 8).map fun k => b / 2 ^ k % 2).foldl
       (fun r d => (r / 2) ^^^ (if (r + d) % 2 = 1 then 0xC96C5795D7870F42 else 0)) (2 ^ 64 - 1)) ^^^ (2 ^ 64 - 1))
     ∧ crc64 [0x31, 0x32, 0x33, 0x34, 0x35, 0x36, 0x37, 0x38, 0x39] = 0x995DC9BBDF1939FA
     ∧ (∀ bs : Bytes, crc64 bs < 2 ^ 64))
  ∧ (∀ (s : State) (n : Nat) (q : Port) (rx : List (List Nat)), portIs s n q .span .up = true → q.span.compat = false →
       let f := lineFlit s n rx
       let u := rxAdvance n rx s
       (f.fec = .uncorrectable → hType f.hdr = 1 ∨ f.crcOk = false →
         exec (.flitRxData n rx) s = .next (firePipe n 1 (bumpPort n oFecUncorr 1 u)))
       ∧ (f.fec = .corrected 0 → f.crcOk = false →
         exec (.flitRxData n rx) s = .next (firePipe n 2 (bumpPort n oCrcErr 1 u)))
       ∧ (f.fec = .corrected 0 → f.crcOk = true → hAck f.hdr = false → hNak f.hdr = false → hCrValid f.hdr = false →
           let v := leakGood n f.hdr u
           (hType f.hdr = 3 → exec (.flitRxIdle n rx) s = .next (fireDegr n 2 (bumpPort n oTypeErr 1 v)))
           ∧ (hType f.hdr = 0 → exec (.flitRxIdle n rx) s = .next v)
           ∧ (∀ r, getPort v n = some r → hType f.hdr = 1 → hSeq f.hdr = q.span.exp → q.span.exp < 4096 →
               let w := setSpan n (fun x => { x with idleAt := v.dc }) v
               let k := rxKeysFor w r (hPhase f.hdr)
               (∀ body, openBody k f = some body →
                 exec (.flitRxData n rx) s = .next (rxSlots n (Crypto.blocks 16 body) (acceptFlit n k w)))
               ∧ (openBody k f = none →
                 exec (.flitRxData n rx) s = .next (sendNak n (fireDegr n 8 (bumpPort n oTagErr 1 w))))))
       ∧ (f.fec = .corrected 0 → f.crcOk = true → hType f.hdr = 0 → hAck f.hdr = true → hNak f.hdr = false →
           hCrValid f.hdr = false →
         exec (.flitRxIdle n rx) s = .next (judgeAck n (hAckSeq f.hdr) false (leakGood n f.hdr u))))

/-- Training flits (R162, R164, R168, R169, R171, R430): in TRAINING, an aligned span takes TRAIN, KEYX and INIT flits that pass
the receiver, each in its phase. Alignment words on every lane, in ascending or descending order with at most 1,024 UI between
them, end ALIGN on the own side and take a span out of HOLD; other words fail the attempt (R118, R119). Fresh training agrees
on the least width and rate of the two ends, and takes the incarnation of the end with the lower SERIAL (R165); INIT with the
partner's flit seen enters UP with its advertised credits (R146, R169). Where the spec leaves a point open it rests on the
model's choices in logs 33, 45. -/
def Obligations.TrainingPhasesAgree : Prop :=
  ((∀ (s : State) (n : Nat) (q : Port) (rx : List (List Nat)), portIs s n q .span .training = true →
         (getLane s n).aligned = true → q.span.resting = false →
       let f := lineFlit s n rx
       let v := leakGood n f.hdr (rxAdvance n rx s)
       f.fec = .corrected 0 → f.crcOk = true → hAck f.hdr = false → hNak f.hdr = false → hCrValid f.hdr = false →
       (∀ ask, hType f.hdr = 8 → exec (.flitRxTrain n rx ask) s = .next (takeTrain n (trainOf f.payload) ask v))
       ∧ (∀ env, hType f.hdr = 9 → exec (.flitRxKeyx n rx env) s = .next (takeKeyx n f.payload env v))
       ∧ (hType f.hdr = 10 → exec (.flitRxInit n rx) s = .next (takeInit n (initOf f.payload) v)))
     ∧ (∀ (s : State) (n skew : Nat) (q : Port) (words : List (List Nat)) (ctle : List Nat), live s = true →
         getPort s n = some q → q.typ = .span → q.span.resting = false → words.length = q.widthNow →
         (words.filterMap readWord).length = q.widthNow →
       (∀ inv rev, skew ≤ 1024 → wordOrder (words.filterMap readWord) = some (inv, rev) →
         (q.st = .training → q.span.phase = .align →
           exec (.alignmentFound n words skew ctle) s = .next (sendTrain n (found n inv rev ctle s)))
         ∧ (q.st = .hold →
           exec (.alignmentFound n words skew ctle) s = .next (sendTrain n (found n inv rev ctle (retainedTraining n s)))))
       ∧ (1024 < skew ∨ wordOrder (words.filterMap readWord) = none → q.st = .training → q.span.phase = .align →
         exec (.alignmentFound n words skew ctle) s = .next (failAttempt n s))))
  ∧ ((∀ (s : State) (n : Nat) (q : Port) (t : Train), getPort s n = some q → q.span.retained = false → t.retained = false →
         s.nv.serial ≠ t.serial →
       ∃ r, getPort (agree n t s) n = some r ∧ r.widthNow = min q.width t.maxWidth
         ∧ r.rate = 7 + max (ownRate q.span.compat) t.maxRate ∧ r.span.phase = .rate ∧ r.span.partner = some t.serial
         ∧ r.span.incarn = some (if s.nv.serial < t.serial then q.span.proposal else t.incarn))
     ∧ (∀ (s : State) (n : Nat) (q : Port) (i : InitP), getPort s n = some q → q.span.retained = false →
         q.span.landing = [] → q.scfg.rs = {} → findOp s (.spanResize n) = none → groupOf s n = none →
       ∃ r, getPort (spanUp n i s) n = some r ∧ r.st = .up ∧ r.span.advH = i.advH ∧ r.span.advD = i.advD))

/-- The timers of a span (R156, R159, R161): ACK_TMR sends the acknowledgement, REPLAY_TMR makes a replay of the Landing due, 1 ms
without progress forces a retrain. The bounds of training (R111, R162, R166): EQ 20 ms from the start, KEYX 50 ms, INIT 100 us,
and the next fresh attempt 1 ms after a failed one. Where the spec leaves a point open it rests on the model's choices in logs
2, 30. -/
def Obligations.SpanTimersAndTrainingBounds : Prop :=
  (∀ (s : State) (n : Nat) (q : Port), portIs s n q .span .up = true →
       (∀ t, q.span.ackAt = some t →
         exec (.ackTmrExpiry n) s = .next (sendAck n false (clockTo (t + 2 * q.span.ackTmr) s)))
       ∧ (q.span.landing ≠ [] →
         exec (.replayTmrExpiry n) s = .next (setSpan n (fun x => { x with
           replayDue := some (clockTo (q.span.replayAt + 2 * q.span.replayTmr) s).dc })
           (clockTo (q.span.replayAt + 2 * q.span.replayTmr) s))
         ∧ exec (.replayStall n) s = .next (forceRetrain n (fireDegr n 6 (clockTo (q.span.stallAt + 2000000) s))))
       ∧ (∀ k, q.span.compat = true → q.span.landing = [] →
         exec (.leakIdleReset n k) s = .next (leakCheck n (setScfg n (fun c => { c with
           estH := cset c.estH k ((cget q.span.consH k + 4096 - cget q.span.retH k) % 4096 * 2 ^ 16),
           estD := cset c.estD k ((cget q.span.consD k + 65536 - cget q.span.retD k) % 65536 * 2 ^ 16) })
           (clockTo (cget q.span.sentAt k + 16000) s)))))
  ∧ (∀ (s : State) (n : Nat) (q : Port), portIs s n q .span .training = true →
       (q.span.resting = false →
         (q.span.phase = .align ∨ q.span.phase = .param ∨ q.span.phase = .rate ∨ q.span.phase = .eq →
           exec (.eqTimeout n) s = .next (failAttempt n (clockTo (q.span.since + 40000000) s)))
         ∧ (q.span.phase = .keyx → exec (.keyxTimeout n) s = .next (failAttempt n (clockTo (q.span.since + 100000000) s)))
         ∧ (q.span.phase = .init → exec (.initTimeout n) s = .next (failAttempt n (clockTo (q.span.since + 200000) s))))
       ∧ (q.span.resting = true →
         exec (.freshTrainingRetry n) s = .next (freshAttempt n (clockTo (q.span.since + 2000000) s))))

/-- Resizes (R82, R177 to R182): a request is sent when none runs, answered with the least of both ends, and the switch follows
once the Landing is empty; an idle span halves its width. Where the spec leaves a point open it rests on the model's choices
in logs 32, 47, 78. -/
def Obligations.ResizesFollowTheExchange : Prop :=
  (∀ (s : State) (c : Cmd) (p : Params) (n w r : Nat) (q : Port), taken specSpanResize c s p = true →
      raw p 0 2 = some n → getPort (entered c s) n = some q → q.typ = .span → q.st = .up →
      (raw p 2 1).getD q.width = w → (widthsOf q).contains w = true → (raw p 3 1).getD 0 = r → r ≤ 2 →
      autoRuns q = false → portBusy s n = false → q.scfg.rs.agreed = none →
    exec (.spanResize c) s =
      .next (opened specSpanResize c s (.spanResize n) [] [w, r] (requestResize n w r false (entered c s))))
  ∧ (∀ (s : State) (n : Nat) (q : Port) (rx : List (List Nat)), portIs s n q .span .up = true →
      q.span.compat = false →
      let f := lineFlit s n rx
      let v := leakGood n f.hdr (rxAdvance n rx s)
      let w := setSpan n (fun x => { x with idleAt := v.dc }) v
      ∀ r body, getPort v n = some r → f.fec = .corrected 0 → f.crcOk = true → hType f.hdr = 2 → hAck f.hdr = false →
        hNak f.hdr = false → hCrValid f.hdr = false → hSeq f.hdr = q.span.exp → q.span.exp < 4096 →
        openBody (rxKeysFor w r (hPhase f.hdr)) f = some body →
      let x := acceptFlit n (rxKeysFor w r (hPhase f.hdr)) w
      (q.scfg.rs.req = none → (ctrlOf body).op = 1 →
        exec (.resizeReq n rx) s = .next (answerResize n (ctrlOf body) x))
      ∧ (∀ k, q.scfg.rs.req = some k → q.scfg.rs.agreed = none → (ctrlOf body).op = 2 →
        exec (.resizeAck n rx) s = .next (setScfg n (fun c => { c with rs := { c.rs with
          agreed := some ((ctrlOf body).width, (ctrlOf body).rate) } }) x)))
  ∧ (∀ (s : State) (n w r : Nat) (q : Port), portIs s n q .span .up = true → q.scfg.rs.agreed = some (w, r) →
      q.scfg.rs.due = none → q.span.landing = [] →
    exec (.resizeSwitch n) s = .next (switchResize n w r s))
  ∧ (∀ (s : State) (n : Nat) (q : Port), portIs s n q .span .up = true → q.scfg.idle ≠ 0 → q.span.compat = false →
      q.scfg.rs.req = none → q.scfg.rs.agreed = none → 4 ≤ homeWidth q / 2 → homeWidth q / 2 < q.widthNow →
    exec (.idleHalfWidth n) s = .next (requestResize n (homeWidth q / 2) (q.rate - 7) true
      (clockTo (q.span.idleAt + 2000 * q.scfg.idle) s)))

/-- Key changes of a span (R63, R96, R185, R186, R431, R433): SPAN_REKEY and the limit of 2^31 flits announce the next index, an
exhausted index starts a fresh exchange, and the partner's KEY_NEXT is kept; a span in M1280 mode is not given new keys while
CERTIFIED is closed. A payload of a fresh exchange that fails ends it and is DEGRADED; the one that completes it puts the new
keys at index 0. Where the spec leaves a point open it rests on the model's choices in logs 15, 31. -/
def Obligations.KeyChangesOfASpan : Prop :=
  (∀ (s : State) (c : Cmd) (p : Params) (n : Nat) (q : Port), taken specSpanRekey c s p = true → raw p 0 2 = some n →
      getPort (entered c s) n = some q → q.typ = .span →
    (q.span.compat = true → s.sec.lock.getLsbD 0 = true →
      exec (.spanRekey c) s = .next (refusedWith specSpanRekey c s stNotApproved 0xFFFF))
    ∧ (q.span.compat = false ∨ s.sec.lock.getLsbD 0 = false → q.st = .up → rekeying q = false → portBusy s n = false →
      exec (.spanRekey c) s = .next (opened specSpanRekey c s (.rekey n) [] [] (startRekey n (entered c s)))))
  ∧ (∀ (s : State) (n : Nat) (q : Port), portIs s n q .span .up = true → 2 ^ 31 ≤ q.scfg.keys.txN → rekeying q = false →
    (q.scfg.keys.txIdx < 65535 →
      exec (.keyLimitReached n) s = .next (sendKeyNext n (q.scfg.keys.txIdx + 1) s))
    ∧ (q.scfg.keys.txIdx = 65535 → exec (.keyIndexExhausted n) s = .next (startExchange n s)))
  ∧ (∀ (s : State) (n k : Nat) (q : Port), portIs s n q .span .up = true → k < 65536 →
    exec (.keyNext n k) s = .next (setScfg n (fun c => { c with keys := { c.keys with rxNext := some k } }) s))
  ∧ (∀ (s t : State) (n : Nat) (q r : Port) (b : Bytes) (e : KeyxEnv) (bad : Bool), portIs s n q .span .up = true →
      q.scfg.keys.fresh = true → keyxTake n b e s = (t, bad) → getPort t n = some r →
    (bad = true → exec (.keyxMgtMessage n b e) s = .next (fireDegr n 13
      (setScfg n (fun c => { c with keys := { c.keys with fresh := false } }) t)))
    ∧ (bad = false → (q.span.sig.isEmpty = false ∨ r.span.sig.isEmpty = true) →
        (q.span.gotAll.1 = true ∨ r.span.gotAll.1 = false) →
      ((r.span.gotAll.1 && r.span.gotAll.2) = false → exec (.keyxMgtMessage n b e) s = .next t)
      ∧ ((r.span.gotAll.1 && r.span.gotAll.2) = true →
        exec (.keyxMgtMessage n b e) s = .next (sendKeyNext n 0 (drawn (setScfg n (fun c => { c with keys := { c.keys with
          fresh := false, newPrk := some (exchangePrk t r) } }) t))))))

/-- SPAN_TIMERS, SPAN_POLICY and TIME_CONFIG set what their fields say, within their ranges (R156, R159, R176, R312, R313). The
worked example of 02: SPAN_TIMERS with ACK_COAL 100, ACK_TMR 400 and REPLAY_TMR 1,000 runs with 64, 400 and 1,600, its
clamps recorded; under NO_CLAMP it is OUT_OF_RANGE naming field 1. -/
def Obligations.SpanAndTimeSettings : Prop :=
  ((∀ (s : State) (c : Cmd) (p : Params) (n a t r : Nat) (q : Port), taken specSpanTimers c s p = true →
         raw p 0 2 = some n → getPort (entered c s) n = some q → q.typ = .span → portBusy s n = false →
         (raw p 2 1).getD 16 = a → 1 ≤ a → a ≤ 64 → (raw p 4 2).getD 100 = t → 10 ≤ t → t ≤ 1000 →
         (raw p 8 4).getD 2000 = r → 500 ≤ r → 4 * t ≤ r → r ≤ 100000 →
       exec (.spanTimers c) s = .next (replied specSpanTimers c s [] []
         (setSpan n (fun x => { x with ackCoal := a, ackTmr := t, replayTmr := r }) (entered c s))))
     ∧ (∀ (s : State) (c : Cmd) (p : Params) (n a t i : Nat) (q : Port), taken specSpanPolicy c s p = true →
         raw p 0 2 = some n → getPort (entered c s) n = some q → q.typ = .span → portBusy s n = false →
         (raw p 2 1).getD q.scfg.amber = a → a ≤ 1 → (raw p 3 1).getD q.scfg.threshold = t → 1 ≤ t → t ≤ 100 →
         (raw p 4 4).getD q.scfg.idle = i → i ≤ 1000000 →
       exec (.spanPolicy c) s = .next (replied specSpanPolicy c s [] []
         (setScfg n (fun x => { x with amber := a, threshold := t, idle := i }) (entered c s))))
     ∧ (∀ (s : State) (c : Cmd) (p : Params) (n r a : Nat) (q : Port), taken specTimeConfig c s p = true →
         raw p 0 2 = some n → getPort (entered c s) n = some q → portBusy s n = false → (raw p 2 1).getD 0 = r →
         r ≤ (match q.typ with | .span => 2 | .h => 1 | .d => 0) → (raw p 4 2).getD 0 = a → asymApp a = a →
         (r = 1 → ∀ e ∈ (entered c s).ports, e.2.role = 1 → e.1 = n) →
       exec (.timeConfig c) s = .next (replied specTimeConfig c s [] []
         (refreshValid (setPort n (fun q => { q with role := r, asym := signed 2 a }) (entered c s))))))
  ∧ ((∀ (s : State) (c : Cmd) (p : Params) (q : Port), taken specSpanTimers c s p = true → raw p 0 2 = some 136 →
         raw p 2 1 = some 100 → raw p 4 2 = some 400 → raw p 8 4 = some 1000 → getPort (entered c s) 136 = some q →
         q.typ = .span → portBusy s 136 = false →
       (bit c.flags 1 = false → exec (.spanTimers c) s = .next (replied specSpanTimers c s
         [{ field := 1, requested := 100, applied := 64 }, { field := 3, requested := 1000, applied := 1600 }] []
         (setSpan 136 (fun x => { x with ackCoal := 64, ackTmr := 400, replayTmr := 1600 }) (entered c s))))
       ∧ (bit c.flags 1 = true → exec (.spanTimers c) s = .next (refusedWith specSpanTimers c s 0x13 1))))

/-- Exchanges of fabric time (R314, R315): the upstream end takes t1 and asks, the downstream end answers with t2 and t3, and
the offset of a TIME_RSP steps the time above 1,000 ns and slews it below. Where the spec leaves a point open it rests on
the model's choices in logs 15, 56. -/
def Obligations.TimeExchangesSetTheOffset : Prop :=
  (∀ (s : State) (n : Nat) (q : Port) (t1 : Int), portIs s n q .span .up = true → q.role = 1 →
    exec (.timeExchangeStart n t1) s = .next (coreSend n (mgtMsg 0x51) (setPort n (fun q => { q with t1 := some t1 }) s)))
  ∧ (∀ (s : State) (n : Nat) (q : Port) (t2 t3 : Int), portIs s n q .span .up = true → q.role = 2 →
    exec (.timeReq n t2 t3) s = .next (coreSend n (mgtMsg 0x52) (emit (.time n t2 t3) s)))
  ∧ (∀ (s : State) (n : Nat) (q : Port) (t1 t2 t3 t4 : Int), live s = true → getPort s n = some q → q.typ = .span →
      q.role = 1 → q.t1 = some t1 →
    ∃ t, exec (.timeRsp n t2 t3 t4) s = .next t ∧ t.ft.theta = theta2ps t1 t2 t3 t4 q.asym / 250
      ∧ t.ft.delay = ((t4 - t1) - (t3 - t2)) / 2 ∧ t.ft.valid = true ∧ (getPort t n).map (·.t1) = some none
      ∧ (2000000 < (theta2ps t1 t2 t3 t4 q.asym).natAbs → t.ft.stepped = true
        ∧ t.ft.off = (slewBy s.ft (nsNow s)).off + theta2ps t1 t2 t3 t4 q.asym / 250 ∧ t.ft.slew = 0)
      ∧ ((theta2ps t1 t2 t3 t4 q.asym).natAbs ≤ 2000000 → t.ft.off = (slewBy s.ft (nsNow s)).off
        ∧ t.ft.slew = meanOf ((theta2ps t1 t2 t3 t4 q.asym / 250 :: s.ft.thetas).take 8))
      ∧ (∀ k, k ≠ n → getPort t k = getPort s k) ∧ t = { s with ft := t.ft, ports := t.ports, atr := t.atr })
  ∧ (∀ (s : State) (n h : Nat) (q : Port) (t1 t2 t3 t4 : Int), portIs s n q .h .up = true → q.std.ptm = true → q.role = 0 →
    exec (.ptmExchange n h t1 t2 t3 t4) s =
      .next (setFt (fun f => { f with ptm := h % 2 ^ 64, ptmAt := fabricNs s }) s))

/-- VH_BIND joins a D port to a VH by the lowest free bridge of 1 to 31; a card known to use CXL.cache gets the lowest free cache
ID of the VH, or is bound without CXL.cache and recorded as a clamp of LD. VH_UNBIND with nothing outstanding ends at once
with a count of 0 and the binding is gone; with requests outstanding it runs for up to 1 ms, at whose end the virtual bridge
completes what remains and the command replies with their number (R195, R199 to R204). Where the spec leaves a point open it
rests on the model's choices in logs 16, 41, 50. -/
def Obligations.BindingsJoinAndLeaveAVh : Prop :=
  (∀ (s : State) (c : Cmd) (p : Params) (d h ld n : Nat) (q hq : Port) (id : Option Nat), taken specVhBind c s p = true →
      raw p 0 2 = some d → getPort (entered c s) d = some q → q.typ = .d → raw p 2 2 = some h →
      getPort (entered c s) h = some hq → hq.typ = .h → (raw p 4 2).getD 0xFFFF = ld → (ld ≤ 15 ∨ ld = 0xFFFF) →
      (q.std.card = none ∨ q.std.card = some (decide (ld ≤ 15))) → q.st ≠ .amber →
      (q.std.binds.all fun e => e.1 != ld && e.1 != 0xFFFF && ld != 0xFFFF) = true →
      ((List.range 32).find? fun k => k != 0 && !(bridgesOf (entered c s) h).contains k) = some n →
      lowestFree (cacheIds (entered c s) h none) 16 = id → (q.std.cache = true → id = none → bit c.flags 1 = false) →
    ∃ t, exec (.vhBind c) s = .next (replied specVhBind c s
        (if q.std.cache && id.isNone then [{ field := 2, requested := ld, applied := ld }] else []) [n] t)
      ∧ t.ports = (setStd d (fun x => { x with
          binds := tset x.binds ld { hport := h, bridge := n, cacheOff := q.std.cache && id.isNone, cacheId := if q.std.cache then id else none } })
          (entered c s)).ports
      ∧ t = { entered c s with ports := t.ports, out := t.out }
      ∧ (hq.std.hotplug = false → t.out = (entered c s).out))
  ∧ (∀ (s : State) (c : Cmd) (p : Params) (d ld : Nat) (q : Port) (b : Binding), taken specVhUnbind c s p = true →
      raw p 0 2 = some d → getPort (entered c s) d = some q → q.typ = .d → (raw p 2 2).getD 0xFFFF = ld →
      (ld ≤ 15 ∨ ld = 0xFFFF) → tget q.std.binds ld = some b → b.unbound = false →
    ((viaReqs (entered c s) (b.hport, b.bridge) ≠ [] ∨ viaMids (entered c s) (b.hport, b.bridge) ≠ []) →
      exec (.vhUnbind c) s = .next (opened specVhUnbind c s (.unbind d ld) [] (le 4 0) (setStd d (fun x => { x with
        binds := tset x.binds ld { b with unbound := true, drainAt := (entered c s).dc + 2000000 } }) (entered c s))))
    ∧ (viaReqs (entered c s) (b.hport, b.bridge) = [] → viaMids (entered c s) (b.hport, b.bridge) = [] →
      ∃ t, exec (.vhUnbind c) s = .next (replied specVhUnbind c s [] (le 4 0) t)
        ∧ (∃ r, getPort t d = some r ∧ tget r.std.binds ld = none ∧ ∀ k, k ≠ ld → tget r.std.binds k = tget q.std.binds k)
        ∧ (∀ k, k ≠ d → getPort t k = getPort (entered c s) k)
        ∧ t = { entered c s with ports := t.ports, out := t.out }))
  ∧ (∀ (s u : State) (n ld k : Nat) (q : Port) (b : Binding), live s = true → getPort s n = some q →
      tget q.std.binds ld = some b → b.unbound = true →
      (viaReqs s (b.hport, b.bridge)).length + (viaMids s (b.hport, b.bridge)).length = k →
      (viaMids s (b.hport, b.bridge)).foldl (completeMid n) ((viaReqs s (b.hport, b.bridge)).foldl (fun s r =>
        sendCompletion n (completionOf r.2.msg) (setStd r.1 (fun d => { d with np := d.np.erase r.2 }) s))
        (clockTo b.drainAt s)) = u →
    (k ≠ 0 → exec (.unbindDrainExpiry n ld) s = .next (endOp (.unbind n ld) stSquashed (le 4 k)
      (mirror n u (setStd n (fun d => { d with binds := tdel d.binds ld }) u))))
    ∧ (k = 0 → exec (.unbindDrainExpiry n ld) s = .next (endOp (.unbind n ld) 0 (le 4 0)
      (mirror n s (setStd n (fun d => { d with binds := tdel d.binds ld }) s)))))

/-- A TLP at an H port or D port in UP (R144, R193, R195, R207, R217, R226, R227, R445): it ends L1; a protocol error fires
PORT_PROTO with its cause; a host request without address enters the ingress queue with TTL 64 and the port's PID, its
requester ID and attributes as they came; a configuration request meets a PF0 that is ready or is answered with retry (R526).
A memory request of a host is checked by its port's MPU before it enters (R445 to R448): each failing part of a posted write
is dropped and the parts that pass go on. Where the spec leaves a point open it rests on the model's choices in log 49. -/
def Obligations.RequestsOfHostsAndCardsEnter : Prop :=
  ((∀ (s : State) (n : Nat) (q : Port) (t : Tlp), live s = true → getPort s n = some q → q.typ ≠ .span → q.st = .up →
         t.issuer = .host → 2 ≤ t.err → t.err ≤ 6 →
       exec (.tlpReceive n t) s = .next (fire (srcProto n) t.err n noActor (noteTlp n (leaveL1 n s))))
     ∧ (∀ (s : State) (n : Nat) (q : Port) (t : Tlp), live s = true → getPort s n = some q → q.typ ≠ .span → q.st = .up →
         t.issuer = .host → t.err = 0 → t.ptm = false → t.cache = false → t.msg.cls ≠ .rsp → t.msg.addr = none →
       exec (.tlpReceive n t) s = .next (setPort n (fun r => { r with inQ := r.inQ ++
         [{ dest := t.dest, msg := { t.msg with
             ttl := 64, spid := q.pid.getD 0, rport := some n, via := viaOf q n t.dest, mc := false, owner := none,
             dpid := (match t.dest with | .pid k => k | _ => t.msg.dpid) } }] })
         (logPoison n t.msg (noteTlp n (leaveL1 n s)))))
     ∧ (∀ (s : State) (n : Nat) (q : Port) (op : CfgOp), portIs s n q .h .up = true → q.std.ready = false →
       exec (.configurationRequest (.pf0 n) op) s = .next (emit (.config (.pf0 n) true) s))
     ∧ (∀ (s : State) (n : Nat) (q : Port) (op : CfgOp), portIs s n q .h .up = true → q.std.ready = true →
       exec (.configurationRequest (.pf0 n) op) s = .next (configPf0 n op (emit (.config (.pf0 n) false) s))))
  ∧ (∀ (s : State) (n a : Nat) (q : Port) (t : Tlp), portIs s n q .h .up = true → t.issuer = .host → t.err = 0 →
         t.ptm = false → t.cache = false → (t.msg.cls = .req ∨ t.msg.cls = .wr) → t.msg.addr = some a → t.msg.len ≠ 0 →
       exec (.tlpReceive n t) s = .next
         (let u := logPoison n t.msg (noteTlp n (leaveL1 n s))
          let r := mpuCheck (hMpu u n) 0xFFE (!t.msg.read) a t.msg.len u
          takeParts n (hMpu u n) none (framed u n q (aimed q t)) (aimed q t).dest 0 r.1 r.2))

/-- IDE streams (R96, R209 to R213): a failed link stream is PORT_PROTO and insecure, a failed selective stream DEGRADED with
its TDIs in ERROR; the host in its Link session, and IDE_STREAM_SET to a card, install a set of six keys. Where the spec
leaves a point open it rests on the model's choices in logs 50 and 85. -/
def Obligations.IdeStreamsHoldAndLoseKeys : Prop :=
  (∀ (s : State) (c : Cmd) (p : Params) (n k i : Nat) (q : Port), taken specIdeStreamSet c s p = true →
      raw p 0 2 = some n → getPort (entered c s) n = some q → q.typ ≠ .span → portBusy s n = false → raw p 2 1 = some k →
      (if q.typ == .d then k = 0 else k < 16) → (raw p 3 1).getD 0 = 1 → (raw p 4 1).getD 0 ≤ 1 → (raw p 5 1).getD 0 = i →
    exec (.ideStreamSet c) s = .next (replied specIdeStreamSet c s [] [] (ideInsecure n k (entered c s))))
  ∧ (∀ (s u : State) (c : Cmd) (p : Params) (n i : Nat) (q : Port), taken specIdeStreamSet c s p = true →
      raw p 0 2 = some n → getPort (entered c s) n = some q → q.typ = .d → q.st = .up → portBusy s n = false →
      raw p 2 1 = some 0 → (raw p 3 1).getD 0 = 0 → (raw p 4 1).getD 0 = 0 → (raw p 5 1).getD 0 = i → c.env.algOk = true →
      c.env.chainOk = true → cardSession n (entered c s) = u →
    exec (.ideStreamSet c) s = .next (replied specIdeStreamSet c s [] []
      (ideInstall n 0 0 i (otherSet q.std 0 i) (sixKeys u) (drbgUse { u with freeN := u.freeN + 6 }))))
  ∧ (∀ (s : State) (n k i set : Nat) (keys : List Nat) (q : Port), portIs s n q .h .up = true → s.boot.bedrock = true →
      linkSession s n = true → k < 16 → i < 256 → set ≤ 1 → keys.length = 6 → (∀ x ∈ keys, x < 2 ^ 256) →
    exec (.ideKeyProg n k 1 i set keys) s = .next (ideInstall n k 1 i set keys s))
  ∧ (∀ (s : State) (n k : Nat) (q : Port) (i : Ide), live s = true → getPort s n = some q → q.st = .up →
      tget q.std.ide k = some i → i.secure = true →
    (i.kind = 0 → exec (.ideIntegrityFail n k) s = .next (fire (srcProto n) 1 n noActor (ideInsecure n k s)))
    ∧ (i.kind = 1 →
      exec (.ideIntegrityFail n k) s = .next (fireDegr n 12 (tdiStreamError n i.id (ideInsecure n k s)))))

/-- TDI states of a bay (R214 to R216), in an open Link session on PF0 of its port with Bedrock ready: CONFIG_UNLOCKED,
CONFIG_LOCKED with its stream, RUN, and back by STOP_INTERFACE; each request is answered with the new state, and one that the
state does not allow with an error that changes nothing. Where the spec leaves a point open it rests on the model's choices
in log 50. -/
def Obligations.TdiStatesFollowTheHost : Prop :=
  ∀ (s : State) (b k : Nat) (y : Bay), live s = true → tget s.bays b = some y → tdispOpen s b = true →
    (y.tdi = .unlocked → y.st = .active →
      exec (.lockInterfaceRequest b k) s =
        .next (emit (.tdisp b false .locked) (setBay b (fun _ => { y with tdi := .locked, stream := some k }) s)))
    ∧ (y.tdi ≠ .unlocked → exec (.lockInterfaceRequest b k) s = .next (emit (.tdisp b true y.tdi) s))
    ∧ (y.tdi = .locked →
      exec (.startInterfaceRequest b) s =
        .next (emit (.tdisp b false .run) (setBay b (fun _ => { y with tdi := .run }) s)))
    ∧ (y.tdi ≠ .locked → exec (.startInterfaceRequest b) s = .next (emit (.tdisp b true y.tdi) s))
    ∧ exec (.stopInterface b) s = .next (flushMsix (.bay b)
        (emit (.tdisp b false .unlocked) (setBay b (fun _ => { y with tdi := .unlocked }) s)))

/-- Link power of H ports and D ports (R217 to R221): L1, or its substate the host has enabled, after the L1 idle time since the
last TLP; its exit; L0p's half width after 100 us and full width after 10 us or at once above 64 queued cells; a card's
request, and HP_POWER's settings. Where the spec leaves a point open it rests on the model's choices in log 50. -/
def Obligations.LinkPowerFollowsTheRules : Prop :=
  (∀ (s : State) (n : Nat) (q : Port), portIs s n q .h .up = true →
    (q.std.l1 = false → l1Quiet s n q = true →
      exec (.l1IdleExpiry n) s = .next (setStd n (fun d => { d with
        l1 := true, l1sub := if q.std.l12 then 2 else if q.std.l11 then 1 else 0, l1Exit := false })
        (clockTo (q.std.busyAt + 2000 * q.std.l1Idle) s)))
    ∧ (q.flit = true → q.std.l1 = false → q.std.l0pHost = true → q.std.l0pEn = true → 2 ≤ q.widthNow →
      exec (.l0pHalve n) s = .next (setL0p n (q.widthNow / 2) q.std.linkW (clockTo (q.std.l0pAt + 200000) s)))
    ∧ (q.std.l0pRed = true →
      (64 < queuedCells s n → exec (.l0pFullWidth n) s = .next (setL0p n q.std.linkW q.std.linkW s))
      ∧ (queuedCells s n ≤ 64 →
        exec (.l0pFullWidth n) s = .next (setL0p n q.std.linkW q.std.linkW (clockTo (q.std.l0pAt + 20000) s)))))
  ∧ (∀ (s : State) (n : Nat) (q : Port), live s = true → getPort s n = some q → q.typ ≠ .span → q.st = .up → q.std.l1 = true →
    exec (.l1ExitComplete n) s = .next (setLanes n (fun l => { l with
      scan := l.scan.map fun x => if x.at_.isNone then { x with at_ := some s.dc } else x })
      (setStd n (fun d => { d with l1 := false, l1sub := 0, l1Exit := false, busyAt := s.dc }) s)))
  ∧ (∀ (s : State) (n w : Nat) (q : Port), portIs s n q .d .up = true →
    exec (.partnerPowerRequest n true w) s = .next (setStd n (fun d => { d with l1 := true, l1sub := 0, l1Exit := false }) s)
    ∧ (q.flit = true → 1 ≤ w → w ≤ q.std.linkW →
      exec (.partnerPowerRequest n false w) s = .next (setL0p n w q.std.linkW s)))
  ∧ (∀ (s : State) (c : Cmd) (p : Params) (n l i : Nat) (q : Port), taken specHpPower c s p = true → raw p 0 2 = some n →
      getPort (entered c s) n = some q → q.typ = .h → portBusy s n = false → (raw p 2 1).getD (b2n q.std.l0pEn) = l → l ≤ 1 →
      (raw p 4 2).getD q.std.l1Idle = i → 1 ≤ i → i ≤ 65535 →
    exec (.hpPower c) s = .next (replied specHpPower c s [] [] (setStd n (fun d => { d with
      l0pEn := l == 1, l1Idle := i,
      l0pAt := if l == 1 && !q.std.l0pEn then (entered c s).dc else q.std.l0pAt }) (entered c s))))

/-- Bus Master Enable (R216, R222, R223). Cleared on a bay: every QP of it is in ERROR, its writes that wait in engines are
gone, its requests still waiting at the ingress of its H port are gone, and a TDI in RUN is in ERROR. Cleared on PF0: the bit is
clear and the waiting requests of PF0 are gone. Set again: the bit is set, MSI-X messages held pending are sent, and a bay's held
completions are written. Where the spec leaves a point open it rests on the model's choices in log 6. -/
def Obligations.BusMasterEnableGatesRequests : Prop :=
  (∀ (s : State) (n : Nat), live s = true → pf0Reach s n = true →
    exec (.bmeClear (.pf0 n)) s = .next (dropIssued (.pf0 n) n (setStd n (fun d => { d with bme := false }) s))
    ∧ (∀ q, getPort (dropIssued (.pf0 n) n (setStd n (fun d => { d with bme := false }) s)) n = some q →
        q.std.bme = false ∧ ∀ a ∈ q.inQ, a.fn ≠ some (.pf0 n))
    ∧ exec (.bmeSet (.pf0 n)) s = .next (flushMsix (.pf0 n) (setStd n (fun d => { d with bme := true }) s)))
  ∧ (∀ (s t : State) (b : Nat) (y : Bay), live s = true → tget s.bays b = some y → bayReach s b = true →
      recount b (dropIssued (.bay b) y.hport (dropWrites b y.hport
        { setBay b (fun y => { y with bme := false, tdi := if y.tdi = .run then .error else y.tdi }) s with
          qps := tmap s.qps fun _ q => if q.bay = b then stopQp q else q })) = t →
    exec (.bmeClear (.bay b)) s = .next t
    ∧ (∀ e ∈ t.qps, e.2.bay = b → e.2.st = .error)
    ∧ (∀ h ∈ t.halls, ∀ g ∈ h.2.engines, ∀ x ∈ g.2.outQ, (x.port.isSome && ownedBy b x.msg) = false)
    ∧ (∀ q, getPort t y.hport = some q → ∀ a ∈ q.inQ, a.fn ≠ some (.bay b))
    ∧ ((tget t.bays b).map fun z => (z.bme, z.tdi)) = some (false, if y.tdi = .run then .error else y.tdi)
    ∧ (∀ c, c ≠ b → tget t.bays c = tget s.bays c)
    ∧ exec (.bmeSet (.bay b)) s = .next (writeHeld b (flushMsix (.bay b) (setBay b (fun y => { y with bme := true }) s))))

/-- The commands of PIDs, routes and multicast (R95, R206, R258, R271): each sets its table as its records say and changes
nothing else. -/
def Obligations.RouteTablesTakeTheirRecords : Prop :=
  (∀ (s : State) (c : Cmd) (p : Params) (n pid : Nat) (q : Port), taken specPidSet c s p = true → raw p 0 2 = some n →
      getPort (entered c s) n = some q → q.typ ≠ .span → portBusy s n = false → raw p 2 2 = some pid →
    (pid < 4096 → (pidPort (entered c s) pid = none ∨ pidPort (entered c s) pid = some n) →
      exec (.pidSet c) s =
        .next (replied specPidSet c s [] [] (setPort n (fun q => { q with pid := some pid }) (entered c s))))
    ∧ (pid = 0xFFFF →
      exec (.pidSet c) s = .next (replied specPidSet c s [] [] (setPort n (fun q => { q with pid := none }) (entered c s)))))
  ∧ (∀ (s : State) (c : Cmd) (p : Params) (n : Nat) (rs : List (Nat × Nat × Nat)), taken specRouteSet c s p = true →
      raw p 0 2 = some n → 1 ≤ n → n ≤ 256 → routeRecs (entered c s) p n 0 [] = pure rs →
      routeFault (entered c s) rs = none →
    exec (.routeSet c) s = .next (replied specRouteSet c s [] [] { entered c s with
      routes := rs.foldl (fun t r => if r.2.1 = 3 then tdel t r.1 else tset t r.1 ⟨r.2.1, r.2.2⟩) s.routes }))
  ∧ (∀ (s : State) (c : Cmd) (p : Params) (g n : Nat) (l : List Nat), taken specMcastSet c s p = true →
      raw p 0 2 = some g → g < 4096 → raw p 2 2 = some n → n ≤ 512 →
      portList (inUse (entered c s)) p 2 4 n 0 [] = pure l →
    exec (.mcastSet c) s = .next (replied specMcastSet c s [] [] { entered c s with
      mcast := if l.isEmpty then tdel s.mcast g else tset s.mcast g l }))
  ∧ (∀ (s : State) (c : Cmd) (p : Params) (n : Nat) (l : List Nat), taken specMgtTreeSet c s p = true →
      raw p 0 1 = some n → n ≤ 64 → treeList (entered c s) p n 0 [] = pure l →
    exec (.mgtTreeSet c) s = .next (replied specMgtTreeSet c s [] [] { entered c s with tree := l }))

/-- GROUP_SET with members sets the group: a new one's home table gives entry j to member j mod n and is its first live table, an
existing one's home table is moved to its new members by R266; with no members it deletes the group that no route names.
GROUP_INDIR_SET replaces the home table by its member indices. The live table then follows R267 (`regroup`). Entry pauses
(R265, R268, R269): at HOLD_GRACE a member that is out is no longer live; a pause ends when its old members hold nothing of
the entry, or at REBAL_WAIT, where an entry not drained is counted and fires HALL_SW cause 2 of its new member's hall. Where
the spec leaves a point open it rests on the model's choices in logs 29 and 90. -/
def Obligations.GroupsAreSetAndPausesEnd : Prop :=
  ((∀ (s : State) (c : Cmd) (p : Params) (g n w h r : Nat) (ms : List Nat), taken specGroupSet c s p = true →
         raw p 0 1 = some g → g < 64 → raw p 2 1 = some n → n ≤ 16 → (raw p 4 2).getD 100 = w → 1 ≤ w → w ≤ 10000 →
         (raw p 8 4).getD 10 = h → 1 ≤ h → h ≤ 1000000 → (raw p 12 1).getD 1 = r → r ≤ 1 →
         portList (isType (entered c s) .span) p 5 16 n 0 [] = pure ms →
       (n ≠ 0 → (∀ m ∈ ms, groupOf (entered c s) m = none ∨ groupOf (entered c s) m = some g) → tget s.groups g = none →
         exec (.groupSet c) s = .next (replied specGroupSet c s [] [] (newMismatches g (entered c s) (regroup g { entered c s with
           groups := tset s.groups g {
             members := ms, wait := w, grace := h, rebal := r == 1,
             home := (List.range 256).map fun j => ms[j % max 1 ms.length]?.getD 0,
             live := (List.range 256).map fun j => ms[j % max 1 ms.length]?.getD 0 } }))))
       ∧ (∀ y, n ≠ 0 → (∀ m ∈ ms, groupOf (entered c s) m = none ∨ groupOf (entered c s) m = some g) →
           tget s.groups g = some y →
         exec (.groupSet c) s = .next (replied specGroupSet c s [] [] (newMismatches g (entered c s) (regroup g { entered c s with
           groups := tset s.groups g { y with
             members := ms, wait := w, grace := h, rebal := r == 1, home := newHome y.members ms y.home } }))))
       ∧ (n = 0 → (∀ e ∈ s.routes, ¬(e.2.kind = 1 ∧ e.2.target = g)) →
         exec (.groupSet c) s = .next (replied specGroupSet c s [] [] (deleteGroup g (entered c s)))))
     ∧ (∀ (s : State) (c : Cmd) (p : Params) (g : Nat) (x : Group) (idx : List Nat), taken specGroupIndirSet c s p = true →
         raw p 0 1 = some g → tget s.groups g = some x → indirEntries x.members.length p 256 0 [] = pure idx →
       exec (.groupIndirSet c) s = .next (replied specGroupIndirSet c s [] [] (regroup g { entered c s with
         groups := tset s.groups g { x with home := idx.map fun k => x.members[k]?.getD 0 } }))))
  ∧ ((∀ (s : State) (n k t : Nat) (q : Port) (g : Group), live s = true → getPort s n = some q → groupOf s n = some k →
         tget s.groups k = some g → q.scfg.outSince = some t → q.scfg.graceOut = false → (q.st = .hold ∨ q.st = .training) →
       exec (.holdGraceExpiry n) s = .next (regroupPort n (setScfg n (fun c => { c with graceOut := true })
         (clockTo (t + 2000 * g.grace) s))))
     ∧ (∀ (s : State) (g j : Nat) (x : Pause), live s = true → entryPause s g j = some x → x.start < s.dc →
         (x.old.all fun m => !entryBusy s g j m) = true →
       exec (.pauseDrained g j) s = .next (endPause g j s))
     ∧ (∀ (s u : State) (g j : Nat) (y : Group) (x : Pause), live s = true → tget s.groups g = some y →
         entryPause s g j = some x → clockTo (x.start + 2000 * y.wait) s = u →
       ((x.old.any fun m => entryBusy u g j m) = false →
         exec (.rebalWaitExpiry g j) s = .next (endPause g j u))
       ∧ ((x.old.any fun m => entryBusy u g j m) = true →
         exec (.rebalWaitExpiry g j) s = .next (fire (srcHall (hallOf ((entryMember u g j).getD 0)) 228) 2 g noActor
           (bump (.undrained g) 1 (endPause g j u))))))

/-- BUFFER_SET, LEAF_ASSIGN and SC_LEAF_CFG (R242, R243, R255 to R257, R286, R287): what fits is applied as given, a flow moves
behind a fence, and a leaf in use refuses a new binding. -/
def Obligations.BuffersAndLeavesAreDivided : Prop :=
  (∀ (s : State) (c : Cmd) (p : Params) (n a b w m al mc pl : Nat) (q : Port), taken specBufferSet c s p = true →
      raw p 0 2 = some n → getPort (entered c s) n = some q → q.typ ≠ .span → (q.st = .disabled ∨ q.st = .down) → portBusy s n = false →
      (raw p 2 2).getD q.mins.req = a → (raw p 4 2).getD q.mins.rsp = b → (raw p 6 2).getD q.mins.wr = w →
      a + b + w ≤ 4096 → (raw p 8 2).getD q.mins.mgt = m → m = 0 →
      (raw p 10 1).getD (getHall (entered c s) (hallOf n)).alpha = al → al ≤ 7 →
      (raw p 12 2).getD (getHall (entered c s) (hallOf n)).mcRsv = mc → 256 ≤ mc → mc ≤ 8192 →
      (raw p 14 2).getD (getHall (entered c s) (hallOf n)).poolRsv = pl → 256 ≤ pl → pl ≤ 8192 →
      divTotal (hallMins (entered c s) (hallOf n) - csum q.mins) { mins := ⟨a, b, w, m⟩, mc := mc, pool := pl } ≤ 49152 →
    exec (.bufferSet c) s = .next (replied specBufferSet c s [] [] (setHall (hallOf n)
      (fun x => { x with alpha := al, mcRsv := mc, poolRsv := pl })
      (setPort n (fun q => { q with mins := ⟨a, b, w, m⟩ }) (settleCross (entered c s))))))
  ∧ (∀ (s : State) (c : Cmd) (p : Params) (n src k l : Nat) (q : Port) (x : LeafCfg), taken specLeafAssign c s p = true →
      raw p 0 2 = some n → getPort (entered c s) n = some q → raw p 2 2 = some src → sourceExists (entered c s) src = true →
      src ≠ 0xFFFF → (src < 512 → groupOf (entered c s) src = none) → raw p 4 1 = some k → k < 4 → raw p 6 2 = some l →
      l < 4096 → leafCfg (entered c s) (hallOf n) l = some x → x.port = n % 64 →
      fencePending (entered c s) n src (clsOf k) = false → portBusy s n = false →
    exec (.leafAssign c) s = .next (replied specLeafAssign c s [] [] (moveFlow n (clsOf k) l (entered c s) src)))
  ∧ (∀ (s : State) (h l v : Nat), mgrReach s = true → h < 8 → 256 ≤ l → l < 4096 → leafQ s h l ≠ [] →
    exec (.scLeafCfgWrite h l v) s = .next (fire (srcHall h 229) 2 0 noActor s))
  ∧ (∀ (s : State) (h l v : Nat), mgrReach s = true → h < 8 → 256 ≤ l → l < 4096 → leafQ s h l = [] →
      (s.ports.all fun e => !(hallOf e.1 == h && e.2.assign.any fun a => a.2 == l)) = true → bit v 31 = false → s.bays = [] →
    exec (.scLeafCfgWrite h l v) s = .next (setHall h (fun x => { x with
      leaves := tdel x.leaves l, leafOff := tset x.leafOff l ⟨bits v 5 0, bits v 8 6, bits v 23 12⟩ }) s))

/-- Scheduler commands (R293, R295, R299, R303 to R306): subscribers and services are set, the length mode follows, and a Flight
is pending until its START. Where the spec leaves a point open it rests on the model's choices in log 61. -/
def Obligations.SchedulerCommandsSetAPort : Prop :=
  (∀ (s : State) (c : Cmd) (p : Params) (n k r b : Nat) (q : Port), taken specSubscriberSet c s p = true →
      raw p 0 2 = some n → getPort (entered c s) n = some q → raw p 2 2 = some k → k < 4096 →
      (raw p 4 4).getD (lineRate q) = r → 1 ≤ r → r ≤ lineRate q → portBusy s n = false → (raw p 8 4).getD 65536 = b → 256 ≤ b → b ≤ 16777216 →
    (tget q.subs k = none → subCount (entered c s) (hallOf n) < 4096 →
      exec (.subscriberSet c) s = .next (replied specSubscriberSet c s [] [] (putSub n k
        { rate := r, burst := b, b := (b * 2 ^ 24 : Nat), tLast := nsNow (entered c s) } (entered c s))))
    ∧ (∀ u, tget q.subs k = some u →
      exec (.subscriberSet c) s = .next (replied specSubscriberSet c s [] [] (rerate n k (subRate (entered c s) n k u)
        (subRate (entered c s) n k { u with rate := r }) b { u with rate := r } (entered c s)))))
  ∧ (∀ (s : State) (c : Cmd) (p : Params) (n a b d e f g : Nat) (q : Port), taken specServiceSet c s p = true →
      raw p 0 2 = some n → getPort (entered c s) n = some q → raw p 2 1 = some a → raw p 3 1 = some b → raw p 4 1 = some d →
      raw p 5 1 = some e → raw p 6 1 = some f → raw p 7 1 = some g →
      portBusy s n = false → 1 ≤ a → 1 ≤ b → 1 ≤ d → 1 ≤ e → 1 ≤ f → 1 ≤ g → a < 256 → b < 256 → d < 256 → e < 256 → f < 256 → g < 256 →
    exec (.serviceSet c) s = .next (replied specServiceSet c s [] []
      (setSched n (fun x => { x with weights := [a, b, d, e, f, g] }) (entered c s))))
  ∧ (∀ (s : State) (c : Cmd) (p : Params) (n m o : Nat) (q : Port), taken specLengthModeSet c s p = true →
      raw p 0 2 = some n → getPort (entered c s) n = some q → portBusy s n = false → (raw p 2 1).getD 0 = m → m ≤ 1 → (raw p 3 1).getD 0 = o →
    exec (.lengthModeSet c) s = .next (replied specLengthModeSet c s [] []
      (setSched n (fun x => { x with wire := m == 1, overhead := o }) (entered c s))))
  ∧ (∀ (s : State) (c : Cmd) (p : Params) (n k st : Nat) (q : Port) (es : List (Nat × Nat)),
      taken specFlightLoad c s p = true → raw p 0 2 = some n → getPort (entered c s) n = some q → raw p 2 2 = some k →
      1 ≤ k → k ≤ 256 → raw p 8 8 = some st → fabricNs (entered c s) + 10000 ≤ st → flightEntries p k 0 [] = pure es →
      (s.ops.any fun o => o.kind == .flight n) = false →
    exec (.flightLoad c) s = .next (opened specFlightLoad c s (.flight n) [] []
      (setSched n (fun d => { d with pendFlight := some { start := st, entries := es } }) (entered c s))))

/-- METER_SET makes a meter with full buckets, or re-rates the one it finds: buckets refilled to now under the old values, then
limited to the new sizes; the tests of the same CLK_S cycle still see the old values (R318, R324). -/
def Obligations.MeterSetMakesOrRerates : Prop :=
  ∀ (s : State) (c : Cmd) (p : Params) (n k cir pir cbs pbs ay ar : Nat) (q : Port), taken specMeterSet c s p = true →
      raw p 0 2 = some n → getPort (entered c s) n = some q → raw p 2 2 = some k → k < 4096 → portBusy s n = false →
      (raw p 4 4).getD 0 = cir → cir ≤ lineRate q → (raw p 8 4).getD (lineRate q) = pir → cir ≤ pir → pir ≤ lineRate q →
      (raw p 12 4).getD 65536 = cbs → 256 ≤ cbs → cbs ≤ 16777216 → (raw p 16 4).getD cbs = pbs → cbs ≤ pbs →
      pbs ≤ 16777216 → (raw p 20 1).getD 1 = ay → ay ≤ 3 → (raw p 21 1).getD 2 = ar → ar ≤ 3 →
    (∀ i, findMeter (entered c s) n k = none → lowestFree (tkeys (getHall (entered c s) (hallOf n)).meters) 8192 = some i →
        meterOver (entered c s) (hallOf n) k = false → s.bays = [] →
      exec (.meterSet c) s = .next (replied specMeterSet c s [] [] (setHall (hallOf n) (fun y => { y with
        meters := tset y.meters i {
          port := n % 64, sub := k, cir := cir, pir := pir, cbs := cbs, pbs := pbs, actY := ay, actR := ar,
          tc := cbs * 2 ^ 24, tp := pbs * 2 ^ 24, tLast := nsNow (entered c s) } }) (entered c s))))
    ∧ (∀ i x y, findMeter (entered c s) n k = some (i, x) →
        meterRefill (meterInForce (entered c s) x) (nsNow (entered c s)) = y →
      exec (.meterSet c) s = .next (replied specMeterSet c s [] [] (setMeter (hallOf n) i (fun _ => { y with
        was := some (nsNow (entered c s), {
          cir := y.cir, pir := y.pir, cbs := y.cbs, pbs := y.pbs, actY := y.actY, actR := y.actR, tc := y.tc, tp := y.tp }),
        cir := cir, pir := pir, cbs := cbs, pbs := pbs, actY := ay, actR := ar,
        tc := min y.tc (cbs * 2 ^ 24), tp := min y.tp (pbs * 2 ^ 24) }) (entered c s))))

/-- Ingress (R208, R245, R248, R319 to R322): the header at the head of a port's pipe goes the way its route says, metered as the
meter of its port and subscriber says; without a route it is discarded and counted. The first waiting message of an engine or
of the management core enters when it has room. The head of a defer queue is tested again: at DEFER it stays, at DISCARD it
goes, else it is queued along its route. Where the spec leaves a point open it rests on the model's choices in logs 54, 72. -/
def Obligations.IngressTakesTheHead : Prop :=
  (∀ (s v : State) (n : Nat) (q : Port) (a : Arrival) (r : List Arrival) (fc : Fc), live s = true → getPort s n = some q →
      q.mgtWait = [] → q.inQ = a :: r → isBroadcast a.msg = false → a.ovr = none →
      (a.msg.cls = .mgt → stageHeld (settleCross s) n = false) → setPort n (fun q => { q with inQ := r }) (settleCross s) = v →
    (∀ pe, routeArrival v n a = (.port pe, false) → (a.msg.cls = .rsp → lateData v pe a.msg.tag = false) →
      (findMeter v n (egressSub v (flowSource v n) (.port pe) a.msg.cls) = none →
        exec (.messageIngress n fc) s = .next (forwardArrival n a a.msg (.port pe) fc v))
      ∧ (∀ k x y c, findMeter v n (egressSub v (flowSource v n) (.port pe) a.msg.cls) = some (k, x) → x.defer = [] →
          meterRefill (meterInForce v x) (nsNow v) = y → meterColour y (chargeLen q a.msg) = c →
        (appliedAction y c a.msg = 0 → exec (.messageIngress n fc) s = .next (forwardArrival n a a.msg (.port pe) fc
          (settleMeter (hallOf n) k c (meterBack v x (meterDebit y c (chargeLen q a.msg))) v)))
        ∧ (appliedAction y c a.msg = 3 → exec (.messageIngress n fc) s = .next (bumpPort n oDiscard 1 (endArrival n a
          (settleMeter (hallOf n) k c (meterBack v x (meterDebit y c (chargeLen q a.msg))) v))))))
    ∧ (routeArrival v n a = (.none, false) → a.acc = false → a.msg.np = false →
      exec (.messageIngress n fc) s =
        .next (emit (.drop n a.msg) (fireDegr n 11 (bumpHall (hallOf n) oNoRoute 1 (releaseCred n a.msg v))))))
  ∧ (∀ (s : State) (p : Nat) (m : Msg) (r : List (Nat × Msg)), live s = true → s.coreQ = (p, m) :: r →
      aboveFloor (settleCross { s with coreQ := r }) (hallOf p) (cellsOf m) = true →
    exec (.engineMessageWait coreSource) s = .next (storeAndPlace
      { msg := m, hall := hallOf p, cells := cellsOf m, acct := .pool none, src := coreSource } p
      (settleCross { s with coreQ := r })))
  ∧ (∀ (s v : State) (e : Nat) (x : EngMsg) (r : List EngMsg) (k : Acct), live s = true → e < 64 →
      (getEngine s e).outQ = x :: r → settleCross (setEngine e (fun g => { g with outQ := r }) s) = v →
      engineAcct v e (cellsOf x.msg) = some k →
    exec (.engineMessageWait (512 + e)) s = .next (storeRouted
      { msg := x.msg, hall := e / 8, cells := cellsOf x.msg, acct := k, src := engineSource e }
      (match x.port with | some p => .port p | none => routePid v (galLocal v x.msg) x.msg) (bindTok x v.nextMid v)))
  ∧ (∀ (s : State) (h k mid : Nat) (r : List Nat) (x m : Meter) (y : Stored) (q : Port) (c : Nat), live s = true →
      tget (getHall s h).meters k = some x → x.defer = mid :: r → tget s.cells mid = some y →
      getPort s (64 * h + x.port) = some q → meterRefill (meterInForce s x) (nsNow s) = m →
      meterColour m (chargeLen q y.msg) = c →
    (appliedAction m c y.msg = 2 → exec (.deferHeadRelease h k) s = .next (setMeter h k (fun _ => meterBack s x m) s))
    ∧ (appliedAction m c y.msg = 3 → exec (.deferHeadRelease h k) s = .next (retireMid false mid (dropRef mid
        (bumpPort (64 * h + x.port) oDiscard 1
          (settleMeter h k c (meterBack s x { meterDebit m c (chargeLen q y.msg) with defer := r }) s)))))
    ∧ (∀ u, appliedAction m c y.msg = 0 →
        settleMeter h k c (meterBack s x { meterDebit m c (chargeLen q y.msg) with defer := r }) s = u →
      (∀ pe, y.route = .port pe → exec (.deferHeadRelease h k) s =
        .next (placeAt y.src pe mid y.msg.cls { u with cells := tset u.cells mid y }))
      ∧ (∀ pe, y.route = .spray pe → exec (.deferHeadRelease h k) s =
        .next (placeAt y.src pe mid y.msg.cls { u with cells := tset u.cells mid y }))
      ∧ (∀ g j, y.route = .entry g j → exec (.deferHeadRelease h k) s =
        .next (placeEntry g j mid y { u with cells := tset u.cells mid y }))
      ∧ (∀ g, y.route = .mcast g → exec (.deferHeadRelease h k) s =
        .next (replicate mid y y.targets { u with cells := tset u.cells mid y }))))

/-- Transmission (R240, R256, R289, R291, R563): the scheduler's choice, in a dc its egress pipe has for the port, leaves its queue,
its subscriber is charged and its message starts; at the end of its time an edge port is idle again and the message's cells are
freed; a fence whose messages left is removed, the others stay, and the descriptors of the leaf keep their order. Where the spec
leaves a point open it rests on the model's choices in logs 9, 10, 61, 86. -/
def Obligations.TransmissionFollowsTheChoice : Prop :=
  (∀ (s v : State) (n sv u l mid : Nat) (q : Port) (fc : Fc) (d : Sched) (x : Stored), live s = true → getPort s n = some q →
      q.scfg.rs.half = false → txIdle q = true → takePipe n s = v → choose v n q fc = (d, some (sv, u, l)) →
      headMsg v (hallOf n) l = some (mid, x) →
    exec (.messageTransmitStart n fc) s = .next (startTx n x.msg (some mid) x.entry (idleServices n
      (chargeSub n u (chargeLen q x.msg)
        (let t := setSched n (fun _ => { d with
            lastSub := tset d.lastSub sv u, lastLeaf := tset d.lastLeaf (8 * u + sv) l }) v
         setLeafQ (hallOf n) l (leafQ t (hallOf n) l).tail t)))))
  ∧ (∀ (s v : State) (n : Nat) (q : Port) (x : Sending), live s = true → getPort s n = some q → q.typ ≠ .span →
      q.sched.sending = some x → noteTlp n (setSched n (fun d => { d with sending := none }) (clockTo x.endDc s)) = v →
    (x.mid = none → exec (.transmissionEnd n) s = .next v)
    ∧ (∀ k, x.mid = some k → exec (.transmissionEnd n) s = .next (endLeave k (retireMid true k v))))
  ∧ (∀ (s : State) (h l : Nat), live s = true →
    exec (.fenceRemoval h l) s = .next (setLeafQ h l (trimFences s h (leafQ s h l)) s)
    ∧ (∃ t, exec (.fenceRemoval h l) s = .next t ∧ (leafQ t h l).filter isDesc = (leafQ s h l).filter isDesc
        ∧ ∀ i ∈ leafQ t h l, i ∈ leafQ s h l ∧ fenceDone s h i = false))

/-- The Spiral wheel and the gates of Flights (R298, R305, R306, R308): the wheel releases at the time of its first subscriber,
the gates follow the entry in force, and a pending Flight takes over at its START. Replication (R272, R274, R277, R278): a
multicast copy crosses to a hall with MC_RSV room, in its flow's order and over a free link, a broadcast enters the stage of its pipe, and each copy leaves when its
tree port can send. Where the spec leaves a point open it rests on the model's choices in logs 2, 54, 61, 70. -/
def Obligations.WheelFlightsAndCopies : Prop :=
  ((∀ (s : State) (h : Nat) (e : Nat × (Nat × Nat)) (r : List (Nat × (Nat × Nat))), live s = true →
         wheelOrder s h = e :: r → (getHall s h).wheelAt = none →
       exec (.wheelRelease h) s = .next (wheelCycle h (clockTo (2 * e.1) s)))
     ∧ (∀ (s : State) (n : Nat) (q : Port), live s = true → getPort s n = some q → s.ft.valid = true →
         q.sched.flight.entries ≠ [] → gateMask s q ≠ q.sched.mask →
       exec (.flightEntryBoundary n) s = .next (setSched n (fun d => { d with mask := gateMask s q }) s))
     ∧ (∀ (s : State) (n : Nat) (q : Port) (f : Flight), live s = true → getPort s n = some q → s.ft.valid = true →
         q.sched.pendFlight = some f → f.start ≤ fabricNs s →
       exec (.flightTakeover n) s = .next (endOp (.flight n) 0 (le 8 (fabricNs s))
         (holdMask n (setSched n (fun d => { d with flight := f, pendFlight := none }) s)))))
  ∧ ((∀ (s u v : State) (mid h : Nat) (x : Stored) (ts : List Nat), live s = true → settleCross s = u →
         tget u.cells mid = some x → tget x.cross h = some ts → crossBehind u mid h x = false →
         rsvRoom u h (getHall u h).mcUse (getHall u h).mcRsv x.cells = true →
         takeLink x.hall h x.cells (clockTo (linkFree u x.hall h - 1) u) = v →
       exec (.multicastCopyCross mid h) s = .next
         (let kept := tfilter x.leafOf fun p _ => !ts.contains p
          let w := { v with cells := tset v.cells mid { x with cross := tdel x.cross h, leafOf := kept } }
          releaseWaits (dropRef mid (ts.foldl (fun t e => placeNow x.src e w.nextMid x.msg.cls t) (store
            { msg := x.msg, hall := h, cells := x.cells, acct := .mcRsv, refs := ts.length, src := x.src, leafOf := x.leafOf } w)))))
     ∧ (∀ (s : State) (m : Msg) (h k : Nat), live s = true → stageOf s none = some (h, k) →
         tget (getHall s h).stages k = none → m.dlen ≤ 240 →
       exec (.mgtBroadcast (.central m)) s = .next (enterStage h k m none s))
     ∧ (∀ (s : State) (n : Nat) (q : Port) (a : Arrival) (r : List Arrival), live s = true → getPort s n = some q →
         q.mgtWait = [] → q.inQ = a :: r → a.ovr = none → isBroadcast a.msg = true → a.msg.dlen ≤ 240 → s.tree.contains n = true →
         tget (getHall s (hallOf n)).stages (pipeOf n) = none →
       exec (.mgtBroadcast (.port n)) s = .next (enterStage (hallOf n) (pipeOf n) a.msg (some n)
         (setPort n (fun q => { q with inQ := r }) s)))
     ∧ (∀ (s : State) (h k n : Nat) (q : Port) (fc : Fc) (g : Stage), live s = true → tget (getHall s h).stages k = some g →
         getPort s n = some q → g.ports = [n] → g.arrival = none → q.scfg.rs.half = false → txIdle q = true →
         creditOk q fc g.msg = true →
       exec (.mgtBroadcastCopyLeave h k n fc) s = .next (setHall h (fun x => { x with stages := tdel x.stages k })
         (startTx n g.msg none none (takeLink h (hallOf n) 1 s)))))

/-- The QP, region and class commands (R83, R89, R338, R339, R351, R352, R363, R367, R368, R371, R376). Where the spec leaves a
point open it rests on the model's choices in logs 16, 59. -/
def Obligations.GalleryCommandsSetQpsAndRegions : Prop :=
  (∀ (s : State) (c : Cmd) (p : Params) (b n a : Nat) (y : Bay), taken specCtxTableSet c s p = true → raw p 0 2 = some b →
      tget s.bays b = some y → y.st = .active → y.tdi ≠ .locked → y.tdi ≠ .run → qpsHeld s b = 0 →
      (raw p 4 4).getD y.tgt.qp = n → n ≤ y.tgt.qp → raw p 8 8 = some a → a % 4096 = 0 →
    exec (.ctxTableSet c) s = .next (replied specCtxTableSet c s [] []
      (setBay b (fun y => { y with ctx := if a = 0 ∧ n = 0 then none else some (a, n) }) (entered c s))))
  ∧ (∀ (s : State) (c : Cmd) (p : Params) (b n cl w pin k : Nat) (y : Bay) (x : Nat × Nat),
      taken specQpCreate c s p = true → raw p 0 2 = some b → tget s.bays b = some y → y.st = .active → y.ctx = some x →
      raw p 4 4 = some n → n < 2 ^ 20 → tget s.qps n = none → (raw p 8 1).getD 0 = cl → cl ≤ 7 →
      (raw p 10 2).getD 512 = w → 1 ≤ w → w ≤ 512 → (raw p 12 1).getD 0 = pin → pin ≤ 1 → qpsHeld s b < y.tgt.qp →
      freeSlot s b x.2 = some k →
      (pin = 1 → (s.qps.filter fun x => x.2.pin && x.2.engine == fewestEngine s (hallOf y.hport)).length < 224
        ∧ (s.qps.filter fun x => x.2.pin && (x.2.engine / 8 == hallOf y.hport && x.2.bay == b)).length < y.tgt.ctx) →
    exec (.qpCreate c) s = .next (replied specQpCreate c s [] (le 4 n ++ le 1 (fewestEngine s (hallOf y.hport)))
      (let q : Qp := { bay := b, engine := fewestEngine s (hallOf y.hport), cls := cl, wmax := w, pin := pin == 1, slot := k }
       noticeHeld (entered c s) { entered c s with qps := tset s.qps n q })))
  ∧ (∀ (s : State) (c : Cmd) (p : Params) (n : Nat) (q : Qp), taken specQpModify c s p = true → raw p 0 4 = some n →
      tget s.qps n = some q → bayBusy s q.bay = false → q.cfg.vector ≠ some 0xFFFF →
    (raw p 4 1 = some 4 → exec (.qpModify c) s = .next (replied specQpModify c s [] []
      (noticeHeld (entered c s) (setQp n (errorQp none 7) (entered c s)))))
    ∧ (raw p 4 1 = some 0 → q.st = .init ∨ q.st = .error → exec (.qpModify c) s = .next (replied specQpModify c s [] []
      (noticeHeld (entered c s) (setQp n resetQp (entered c s)))))
    ∧ (∀ r k : Nat, raw p 4 1 = some 3 → q.st = .rtr → (raw p 44 2).getD 100 = r → 1 ≤ r → r ≤ 10000 →
        (raw p 46 1).getD 7 = k → 1 ≤ k → k ≤ 15 →
      exec (.qpModify c) s = .next (replied specQpModify c s [] [] (noticeHeld (entered c s) (setQp n (fun x =>
        { x with st := .rts, cfg := { q.cfg with rto := r, retry := k }, w := 256 * min 16 x.wmax, armed := none })
        (entered c s)))))
    ∧ (∀ pid qpn : Nat, raw p 4 1 = some 2 → q.st = .init → raw p 36 2 = some pid → pid < 4096 → raw p 40 4 = some qpn →
        qpn < 2 ^ 20 → (raw p 5 1).getD 4 = 4 → (raw p 6 1).getD 0 = 0 →
      exec (.qpModify c) s = .next (replied specQpModify c s [] [] (noticeHeld (entered c s) (setQp n (fun x =>
        { x with st := .rtr, dgram := some false, cfg := { q.cfg with peerPid := pid, peerQpn := qpn, mtu := 4, spray := false } })
        (entered c s)))))
    ∧ (∀ pid : Nat, raw p 4 1 = some 2 → q.st = .init → raw p 36 2 = some 0xFFFF →
        (raw p 5 1).getD 4 = 4 → (raw p 6 1).getD 0 = 0 → pid = 0xFFFF →
      exec (.qpModify c) s = .next (replied specQpModify c s [] [] (noticeHeld (entered c s) (setQp n (fun x =>
        { x with st := .rtr, dgram := some true, cfg := { q.cfg with peerPid := pid, mtu := 4, spray := false } })
        (entered c s)))))
    ∧ (∀ a b d i j k : Nat, raw p 4 1 = some 1 → q.st = .reset → raw p 8 8 = some a → raw p 16 8 = some b →
        raw p 24 8 = some d → a % 4096 = 0 → b % 4096 = 0 → d % 4096 = 0 → (raw p 32 1).getD 8 = i → (raw p 33 1).getD 8 = j →
        (raw p 34 1).getD 9 = k → 4 ≤ i → i ≤ 11 → 4 ≤ j → j ≤ 11 → 4 ≤ k → k ≤ 11 → (raw p 38 2).getD 0xFFFF = 0xFFFF →
      exec (.qpModify c) s = .next (replied specQpModify c s [] [] (noticeHeld (entered c s) (setQp n (fun x =>
        { x with st := .init, cfg := { q.cfg with sqAddr := a, rqAddr := b, crAddr := d, sqLog := i, rqLog := j, crLog := k,
                                                  vector := none } }) (entered c s))))))
  ∧ (∀ (s : State) (c : Cmd) (p : Params) (n : Nat) (q : Qp), taken specQpDestroy c s p = true → raw p 0 4 = some n →
      tget s.qps n = some q → bayBusy s q.bay = false → (q.st = .reset ∨ q.st = .error) →
    exec (.qpDestroy c) s = .next (replied specQpDestroy c s [] []
      (noticeHeld (entered c s) (kick q.engine (dropQp n (entered c s))))))
  ∧ (∀ (s : State) (c : Cmd) (p : Params) (n : Nat) (q : Qp), taken specQpQuery c s p = true → raw p 0 4 = some n →
      tget s.qps n = some q →
    exec (.qpQuery c) s = .next (replied specQpQuery c s [] (qpRecord s n q) (entered c s)))
  ∧ (∀ (s : State) (c : Cmd) (p : Params) (k st d : Nat), taken specQpClassSet c s p = true → raw p 0 1 = some k → k ≤ 7 →
      (raw p 1 1).getD 1 = st → 1 ≤ st → st ≤ 64 → (raw p 2 1).getD 2 = d → 2 ≤ d → d ≤ 64 →
    exec (.qpClassSet c) s = .next (replied specQpClassSet c s [] []
      { entered c s with qcls := tset s.qcls k (st, d) }))
  ∧ (∀ (s : State) (c : Cmd) (p : Params) (b a l pg ac i : Nat) (y : Bay), taken specMrRegister c s p = true →
      raw p 0 2 = some b → tget s.bays b = some y → y.st = .active → raw p 8 8 = some a → raw p 16 8 = some l → l ≤ 2 ^ 48 →
      a + l ≤ 2 ^ 64 → (raw p 24 1).getD 0 = pg → pg ≤ 1 → (raw p 25 1).getD 0 = ac →
      lowestFree (tkeys (getHall s (hallOf y.hport)).mrs) 16384 = some i →
    exec (.mrRegister c) s = .next
      (let gen := tgetD (getHall s (hallOf y.hport)).mrGen i 0
       let r : Region := { bay := b, gen := gen, addr := a, length := l, paging := pg == 1, access := ac % 4 }
       replied specMrRegister c s [] (le 4 (i + 2 ^ 14 * hallOf y.hport + 2 ^ 17 * gen))
         (setHall (hallOf y.hport) (fun x => { x with mrs := tset x.mrs i r }) (entered c s))))
  ∧ (∀ (s : State) (c : Cmd) (p : Params) (h : Nat) (r : Region), taken specMrDeregister c s p = true → raw p 0 4 = some h →
      findRegion s h = some r → bayBusy s r.bay = false → (s.ops.any fun o => o.kind == .deregister h) = false →
    (regionBusy s h = false →
      exec (.mrDeregister c) s = .next (replied specMrDeregister c s [] [] (freeRegion h (entered c s))))
    ∧ (regionBusy s h = true → exec (.mrDeregister c) s = .next (opened specMrDeregister c s (.deregister h) [] []
      (setRegion h (fun r => { r with ending := true }) (entered c s)))))
  ∧ (∀ (s : State) (h : Nat) (r : Region), live s = true → findRegion s h = some r → r.ending = true → regionBusy s h = false →
    exec (.mrDeregisterDone h) s = .next (endOp (.deregister h) 0 [] (freeRegion h s)))

/-- A doorbell of an ACTIVE bay on a QP of its own (R346, R347, R349, R361): a cached context takes ring entries and sends, an
absent one is fetched first; another QP's doorbell is counted in GE_DB_ERR and reported. A first send of a READ, and the write of a held completion. Where the spec leaves a point open
it rests on the model's choices in logs 17, 23, 57, 59. -/
def Obligations.DoorbellsServeTheBaysOwnQps : Prop :=
  (∀ (s : State) (b v : Nat) (y : Bay) (q : Qp) (env : GEnv), live s = true → tget s.bays b = some y → y.st = .active →
      bayReach s b = true → tget s.qps (v % 2 ^ 20) = some q → q.bay = b →
    (cached s q.engine (v % 2 ^ 20) = true →
      exec (.geSqDb b v env) s = .next (kick q.engine (runSq (v % 2 ^ 20) false env (touch q.engine (v % 2 ^ 20) s)))
      ∧ exec (.geRqDb b v env) s = .next (takeRq (v % 2 ^ 20) env.entries (touch q.engine (v % 2 ^ 20) s))
      ∧ exec (.geCrDb b v) s = .next (touch q.engine (v % 2 ^ 20)
        (setQp (v % 2 ^ 20) (fun q => { q with crCons := v / 2 ^ 20 % 4096, msiSent := false }) s)))
    ∧ (cached s q.engine (v % 2 ^ 20) = false →
      exec (.geSqDb b v env) s = .next (startFetch q.engine (v % 2 ^ 20) (setQp (v % 2 ^ 20) (fun q => { q with dbPend := true }) s))
      ∧ exec (.geRqDb b v env) s = .next (startFetch q.engine (v % 2 ^ 20) (setQp (v % 2 ^ 20) (fun q => { q with rqPend := true }) s))
      ∧ exec (.geCrDb b v) s = .next (startFetch q.engine (v % 2 ^ 20)
        (setQp (v % 2 ^ 20) (fun q => { q with crCons := v / 2 ^ 20 % 4096, msiSent := false }) s))))
  ∧ (∀ (s : State) (b v : Nat) (y : Bay) (env : GEnv), live s = true → tget s.bays b = some y → y.st = .active →
      bayReach s b = true → (∀ q, tget s.qps (v % 2 ^ 20) = some q → q.bay ≠ b) →
    exec (.geSqDb b v env) s = .next (doorbellError b (v % 2 ^ 20) s)
    ∧ exec (.geRqDb b v env) s = .next (doorbellError b (v % 2 ^ 20) s)
    ∧ exec (.geCrDb b v) s = .next (doorbellError b (v % 2 ^ 20) s))
  ∧ (∀ (s : State) (b h n : Nat) (y : Bay) (q : Qp) (w : Bytes) (env : GEnv), live s = true → tget s.bays b = some y →
      y.st = .active → y.hport = h → bayReach s b = true → unle (slice w 48 4) % 2 ^ 20 = n → tget s.qps n = some q → q.bay = b →
    (w.length = 64 → cached s q.engine n = true → unle (slice w 52 2) % 4096 = q.sqCons →
      exec (.geSqPush b w true env) s = .next (kick q.engine
        (runSq n true { env with entries := wqeOf w :: env.entries } (touch q.engine n s))))
    ∧ (w.length = 64 → cached s q.engine n = true → unle (slice w 52 2) % 4096 ≠ q.sqCons →
      exec (.geSqPush b w true env) s = .next (kick q.engine (runSq n false env (touch q.engine n s))))
    ∧ (w.length = 64 → cached s q.engine n = false →
      exec (.geSqPush b w true env) s = .next (startFetch q.engine n (setQp n (fun q => { q with dbPend := true }) s)))
    ∧ exec (.geSqPush b w false env) s = .next (bumpHall (hallOf h) 0x1000000 1 s))
  ∧ (∀ (s u : State) (n : Nat) (q r : Qp) (w : Wr) (env : GEnv), live s = true → tget s.qps n = some q →
      cached s q.engine n = true → env.entries = [] → touch q.engine n (settleRto n s) = u → tget u.qps n = some r →
      nextToSend r.cfg.mtu r.wrs false = some (w, false) → maySend u r w false = true → tdiIssues u r.bay = true → w.wqe.op = 2 →
    exec (.packetFirstSend n env) s = .next (sendFirst n r w (firstPacket u n r w []) u))
  ∧ (∀ (s : State) (n : Nat) (q : Qp), live s = true → tget s.qps n = some q → cached s q.engine n = true →
      mayComplete s q = true →
    exec (.completionWrite n) s = .next (writeCqe n (touch q.engine n s)))

/-- A packet at the engine of its QP (R355 to R359, R370, R375, R380 to R383): one that a check refuses is answered ERROR or
REMOTE_ACCESS; a WRITE is placed and marks its record; a READ_REQ at NEXT is served; a READ_RSP is placed; a SEND and a DATAGRAM
take their RQ entry; an ACK ends its entry; a NAK ends the work request or delays the packet. Where the spec leaves a point open
it rests on the model's choices in logs 17, 57, 58, 84. -/
def Obligations.GalleryPacketsAreCheckedAndServed : Prop :=
  ∀ (s : State) (pkt : Msg) (g : Gal) (q₀ : Qp) (env : GEnv), live s = true → pkt.gal = some g →
      tget s.qps g.dqpn = some q₀ →
    let e := q₀.engine
    let u := touch e g.dqpn (settleRto g.dqpn s)
    let fin := fun t => kick e (servePending e g.dqpn 512 t)
    (rightPort s q₀ pkt = false →
      (g.op = 1 → exec (.galleryWrite pkt env) s = .next (engineSend e (nak s pkt g 3 0) s))
      ∧ (g.op = 2 → exec (.galleryReadReq pkt env) s = .next (engineSend e (nak s pkt g 3 0) s))
      ∧ (g.op = 4 → exec (.gallerySend pkt env) s = .next (engineSend e (nak s pkt g 3 0) s)))
    ∧ (∀ q, rightPort s q₀ pkt = true → cached s e g.dqpn = true → q₀.parked = [] → tget u.qps g.dqpn = some q →
        responderOk q pkt g = true → tdiIssues u q.bay = true →
      (g.op = 1 → ∀ r v w, beforePlace e pkt g q (ackAgain e pkt g) u = none →
        remoteRegion u q g true g.payload.length = some r →
        pageRefusal e pkt g q r env (r.addr + g.roff + g.offset) g.payload.length u = (none, v) →
        place e pkt g q g.rmr r env (r.addr + g.roff + g.offset) v = (true, w) →
        exec (.galleryWrite pkt env) s = .next (fin (setQp g.dqpn (fun x => advanceNext 8
          (putRec x (recPlace (recFor x g) (g.offset / mtuBytes g.mtu) g.payload.length (if g.last then some g.tlen else none)))) w)))
      ∧ (g.op = 1 → beforePlace e pkt g q (ackAgain e pkt g) u = none → remoteRegion u q g true g.payload.length = none →
        exec (.galleryWrite pkt env) s = .next (fin (engineSend e (nak u pkt g 2 0) u)))
      ∧ (g.op = 2 → beforePlace e pkt g q (fun s => (serveRead e pkt g q env s).2) u = none → g.msn = q.next →
        bayTag u q.bay = true →
        exec (.galleryReadReq pkt env) s = .next (fin (readNow e pkt g q env u)))
      ∧ (g.op = 3 → ∀ o w r v t, findOutst q g.msn (idxOfOffset q g.offset) = some o →
        (q.wrs.find? fun x => x.msn == g.msn) = some w →
        o.pkt.cls = .req → curRegion u q.bay w.wqe.localMr = some r →
        translate e q.bay r env (w.wqe.localAddr + g.offset) g.payload.length u = (none, v) → env.xlatFail = false →
        engineWrite e q.bay env.bridge
          { eng := e, qpn := g.dqpn, bay := q.bay, region := some w.wqe.localMr, msn := some w.msn,
            pages := if r.paging then pagesOf (w.wqe.localAddr + g.offset) g.payload.length else [] }
          (w.wqe.localAddr + g.offset) g.payload v = (true, t) →
        exec (.galleryReadRsp pkt env) s = .next (fin
          (setQp g.dqpn (fun x => acknowledged t x o (g.ece || g.ce) g.payload.length) t)))
      ∧ (g.op = 4 → beforePlace e pkt g q (ackAgain e pkt g) u = none → (findRec q g.msn).isSome = true →
        tget q.rqes g.ssn = none →
        exec (.gallerySend pkt env) s = .next (fin (engineSend e (nak u pkt g 1 32) u)))
      ∧ (g.op = 4 → ∀ w, beforePlace e pkt g q (ackAgain e pkt g) u = none → (findRec q g.msn).isSome = true →
        tget q.rqes g.ssn = some w → localStatus u q.bay w = none → w.length < g.offset + g.payload.length →
        exec (.gallerySend pkt env) s = .next (fin (setQp g.dqpn (fun x =>
          advanceNext 8 (putRec x { recFor x g with status := 5, complete := true, wrId := w.wrId }))
          (engineSend e (nak u pkt g 4 0) u))))
      ∧ (g.op = 4 → ∀ w r v t, beforePlace e pkt g q (ackAgain e pkt g) u = none → (findRec q g.msn).isSome = true →
        tget q.rqes g.ssn = some w → localStatus u q.bay w = none → g.offset + g.payload.length ≤ w.length →
        curRegion u q.bay w.localMr = some r →
        pageRefusal e pkt g q r env (w.localAddr + g.offset) g.payload.length u = (none, v) →
        place e pkt g q w.localMr r env (w.localAddr + g.offset) v = (true, t) →
        exec (.gallerySend pkt env) s = .next (fin (setQp g.dqpn (fun x => advanceNext 8
          (putRec x { recPlace (recFor x g) (g.offset / mtuBytes g.mtu) g.payload.length (if g.last then some g.tlen else none)
                      with wrId := w.wrId })) t)))
      ∧ (g.op = 5 → ∀ k w l r v, bayResetting u q = false → crFull q = false → q.rqes = (k, w) :: l →
        g.payload.length ≤ w.length → localStatus u q.bay w = none → curRegion u q.bay w.localMr = some r →
        translate e q.bay r env w.localAddr g.payload.length u = (none, v) →
        exec (.galleryDatagram pkt env) s = .next (fin
          (let t := engineWrite e q.bay env.bridge
             { eng := e, qpn := g.dqpn, bay := q.bay, region := some w.localMr,
               pages := if r.paging then pagesOf w.localAddr g.payload.length else [] } w.localAddr g.payload v
           setQp g.dqpn (fun x => { x with
             rqes := tdel x.rqes k, nextRcv := (k + 1) % 2 ^ 24,
             held := x.held ++ [{ wrId := w.wrId, bytes := g.payload.length, status := if t.1 then 0 else 1, kind := 1,
                                  srcPid := pkt.spid, srcQpn := g.sqpn }] }) t.2)))
      ∧ (g.op = 5 → q.rqes = [] →
        exec (.galleryDatagram pkt env) s = .next (fin (bumpEngine e 0x0 u)))
      ∧ (g.op = 6 → ∀ o, findOutst q g.msn (idxOfOffset q g.offset) = some o → o.pkt.cls ≠ .req →
        exec (.galleryAck pkt) s = .next (fin (setQp g.dqpn (fun x => acknowledged u x o (g.ece || g.ce) 0) u)))
      ∧ (g.op = 7 → ∀ o, findOutst q g.msn (idxOfOffset q g.offset) = some o → g.status ≠ 1 →
        exec (.galleryNak pkt) s = .next (fin (setQp g.dqpn (fun x =>
          let y := errorQp (some o.msn) (nakStatus g.status) x
          { y with naks := satAdd 32 y.naks 1 }) u)))
      ∧ (g.op = 7 → ∀ o, findOutst q g.msn (idxOfOffset q g.offset) = some o → g.status = 1 →
        exec (.galleryNak pkt) s = .next (fin (setQp g.dqpn (fun x =>
          let y := decreaseQp (qpClass u q).2 x
          { y with later := satAdd 32 y.later 1,
                   outst := y.outst.map fun z => if z == o then { o with notBefore := some (nsNow u + 256 * g.hint) } else z })
          u))))

/-- Contexts, re-sends and pages: at RTO_EXPIRY an entry is due, and once that cycle is over it is sent again or its
request ends (R340, R357, R359, R364 to R366, R373 to R376). Where the spec leaves a point open it rests on
the model's choices in logs 17, 57, 58. -/
def Obligations.ContextsRetriesAndPagesEnd : Prop :=
  (∀ (s : State) (n : Nat) (q : Qp) (x : CacheEnt) (sq rq : GEnv), live s = true → tget s.qps n = some q →
      cacheEnt (getEngine s q.engine) n = some x →
    (∀ y a, tget s.bays q.bay = some y → y.ctx = some a → x.fetching = true → bayTag s q.bay = true →
      (∀ checkOk, exec (.contextFetchComplete n false checkOk sq rq) s = .next (kick q.engine
        (fetchFailed q.engine n (engineRead q.engine q.bay (a.1 + 256 * q.slot) 256 s).2)))
      ∧ ((engineRead q.engine q.bay (a.1 + 256 * q.slot) 256 s).1 = true → q.parked = [] → q.rqPend = false → q.dbPend = false →
        exec (.contextFetchComplete n true true sq rq) s = .next (kick q.engine
          (setQp n (fun q => { q with parked := [], dbPend := false, rqPend := false })
            (setEngine q.engine (fun g => { g with cache := g.cache.map fun x =>
              if x.qpn = n then { x with fetching := false } else x })
              (engineRead q.engine q.bay (a.1 + 256 * q.slot) 256 s).2)))))
    ∧ (x.writing = true → ∀ y a, tget s.bays q.bay = some y → y.ctx = some a →
      allPass (mpuCheck q.engine q.bay true (a.1 + 256 * q.slot) 256 s).1 = true →
      exec (.contextWriteBackDone n) s = .next (kick q.engine (setEngine q.engine
        (fun g => { g with cache := g.cache.filter (·.qpn != n) })
        (mpuCheck q.engine q.bay true (a.1 + 256 * q.slot) 256 s).2))))
  ∧ (∀ (s : State) (n msn off : Nat) (q : Qp) (o : Outst), live s = true → tget s.qps n = some q →
      findOutst q msn (idxOfOffset q off) = some o →
    (∀ at_, o.notBefore = some at_ → tdiIssues s q.bay = true →
      exec (.retryLaterResend n msn off) s = .next
        (let u := clockTo (2 * at_) s
         resend n o { o with sentAt := nsNow u, notBefore := none } u))
    ∧ (o.notBefore = none → o.paged = false → o.due = none → tdiIssues s q.bay = true →
      exec (.rtoExpiry n msn off) s = .next
        (let u := clockTo (2 * (o.sentAt + 1000 * q.cfg.rto)) s
         setQp n (fun q => { q with outst := q.outst.map fun x => if x == o then { o with due := some u.dc } else x }) u)))
  ∧ (∀ (s : State) (n : Nat) (q : Qp) (o : Outst), tget s.qps n = some q → q.outst.contains o = true →
    rtoActs n s o = (let u := setQp n (decreaseQp (qpClass s q).2) s
      if q.cfg.retry ≤ o.tries then setQp n (errorQp (some o.msn) 6) u
      else resend n o { o with sentAt := nsNow u, tries := o.tries + 1, due := none } u))
  ∧ (∀ (s : State) (h page : Nat), live s = true → isType s .h h = true →
      (s.places.any fun p => p.2.pages.contains page && bayPort s p.2.bay == some h) = false →
    exec (.atsInvalidation h page) s = .next (emit (.atsDone h page) { s with
      bays := (tmap s.bays fun _ y => if y.hport = h then { y with badPages := y.badPages.filter (· != page) } else y),
      halls := (tmap s.halls fun _ x => { x with engines := tmap x.engines fun _ g =>
        { g with atc := g.atc.filter fun x => !(x.2 == page && bayPort s x.1 == some h) } }) }))
  ∧ (∀ (s : State) (b page : Nat) (y : Bay), live s = true → tget s.bays b = some y → y.priOut.contains page = true →
    exec (.pageResponse b page true) s = .next
      (((s.qps.filter fun e => e.2.bay == b).map (·.1)).foldl (unstall page true)
        (setBay b (fun y => { y with priOut := y.priOut.erase page }) s))
    ∧ exec (.pageResponse b page false) s = .next
      (((s.qps.filter fun e => e.2.bay == b).map (·.1)).foldl (unstall page false)
        (setBay b (fun y => { y with
          priOut := y.priOut.erase page,
          badPages := if y.badPages.contains page then y.badPages else y.badPages ++ [page] }) s)))

/-- Bays (R385 to R404): a bay takes the lowest free number and resources within the free pools; it is resized while ACTIVE; a
reset drains, squashes at its limit, tears down and makes the bay ACTIVE or ABSENT. Where the spec leaves a point open it
rests on the model's choices in logs 16, 24, 25, 59. -/
def Obligations.BaysAreMadeResizedResetAndRemoved : Prop :=
  (∀ (s : State) (c : Cmd) (p : Params) (h l b j : Nat) (q : Port) (t : Res), taken specBayCreate c s p = true →
      raw p 0 2 = some h → getPort (entered c s) h = some q → q.typ = .h → (raw p 2 2).getD 0xFFFF = l →
      (l < 256 ∨ l = 0xFFFF) → resFields p 2 { rate := lineRate q, msix := 1 } (freeRes (entered c s) h) (lineRate q) = pure t →
      q.st ≠ .amber → (l ≠ 0xFFFF → bayAt (entered c s) h l = none) → (freeRes (entered c s) h).msix ≠ 0 →
      lowestFree (tkeys s.bays) 2048 = some b →
      (if l = 0xFFFF then lowestFree ((bayList s fun y => y.hport == h).map (·.2.loc)) 256 else some l) = some j →
      ((tget q.subs (1 + j)).isSome = true ∨ subCount (entered c s) (hallOf h) < 4096) →
    exec (.bayCreate c) s = .next
      (let y : Bay := { hport := h, loc := j, tgt := t }
       let e := entered c s
       let u := baySub h j e { e with bays := tset s.bays b y }
       replied specBayCreate c s [] (le 4 b ++ le 4 j ++ resBytes t (heldRes u b y)) (noticeHeld e u)))
  ∧ (∀ (s : State) (c : Cmd) (p : Params) (b : Nat) (y : Bay) (q : Port) (t : Res), taken specBayResize c s p = true →
      raw p 0 2 = some b → tget s.bays b = some y → y.st = .active → y.tdi ≠ .locked → y.tdi ≠ .run →
      getPort (entered c s) y.hport = some q →
      resFields p 1 (heldRes (entered c s) b y) (addRes (freeRes (entered c s) y.hport) (heldRes (entered c s) b y)) (lineRate q)
        = pure t →
    exec (.bayResize c) s = .next
      (let e := entered c s
       let u := setBay b (fun y => { y with tgt := t }) e
       let v := if t.rate = y.tgt.rate then u else baySub y.hport y.loc e u
       replied specBayResize c s [] (resBytes t (heldRes v b { y with tgt := t })) (noticeHeld e v)))
  ∧ (∀ (s : State) (c : Cmd) (p : Params) (b : Nat), taken specBayQuery c s p = true → raw p 0 2 = some b → b < 2048 →
    (∀ y, tget s.bays b = some y → exec (.bayQuery c) s = .next (replied specBayQuery c s []
      (le 4 (byStatus (entered c s) b) ++ resBytes y.tgt (heldRes (entered c s) b y)) (entered c s)))
    ∧ (tget s.bays b = none →
      exec (.bayQuery c) s = .next (replied specBayQuery c s [] (List.replicate 60 0) (entered c s))))
  ∧ (∀ (s : State) (c : Cmd) (p : Params) (b d : Nat) (y : Bay), raw p 0 2 = some b → tget s.bays b = some y →
      (raw p 4 4).getD 1000 = d → 10 ≤ d → d ≤ 100000 →
    (taken specBayReset c s p = true → y.st = .active → exec (.bayReset c) s = .next
      (opened specBayReset c s (.bayReset b) [] [] (startReset b d 1 (entered c s))))
    ∧ (taken specBayRemove c s p = true → ownsLocked s b = false → exec (.bayRemove c) s = .next
      (opened specBayRemove c s (.bayRemove b) [] []
        (startReset b d 2 (abortOp (.bayRemove b) (abortOp (.bayReset b) (entered c s)))))))
  ∧ (∀ (s : State) (b : Nat) (y : Bay) (r : BayReset), live s = true → tget s.bays b = some y → y.rst = some r →
    (r.ended = false → bayWork s b = 0 → exec (.bayDrainEnd b) s = .next (teardown b s))
    ∧ (r.ended = false → exec (.drainLimitExpiry b) s = .next
      (let u := clockTo r.deadline s
       if bayWork u b = 0 then teardown b u else teardown b (squashBay b u)))
    ∧ (r.ended = true → bayWork s b = 0 → r.removal = false → exec (.bayResetComplete b) s = .next
      (endOp (.bayReset b) (if r.squashed = 0 then 0 else 0x02) (le 4 (drainedOf r) ++ le 4 r.squashed)
        (postNotices b (setBay b (fun y => { y with
          st := .active, rst := none, pendDone := some (y.cause, drainedOf r, r.squashed) }) s))))
    ∧ (r.ended = true → bayWork s b = 0 → r.removal = true → exec (.bayResetComplete b) s = .next
      (endOp (.bayRemove b) (if r.squashed = 0 then 0 else 0x02) (le 4 (drainedOf r) ++ le 4 r.squashed) (bayAbsent b s))))
  ∧ (∀ (s : State) (b h n tag : Nat) (y : Bay) (q : Port) (w : Wired), live s = true → tget s.bays b = some y →
    exec (.deviceNoticePost b) s = .next (postNotices b s)
    ∧ (bayReach s b = true → exec (.functionLevelReset b) s = .next (startReset b (flrLimit s y.hport) 3 s))
    ∧ (wiredReset s b = some w →
      exec (.wiredBayReset b) s = .next
        (let u := clockTo w.due (setAtr (fun a => { a with wired := a.wired.erase w }) s)
         startOwnReset b 5 u))
    ∧ (getPort s h = some q → pf0Reach s h = true → n < q.std.numVfs →
      exec (.vfEnableClear h n) s = .next (lowerVfs h n s))
    ∧ (getPort s h = some q →
      exec (.tagQuarantineRelease h tag) s = .next (setStd h (fun d => { d with quar := d.quar.filter (· != tag) }) s)))

/-- The FIFOs of an Alcove (R405 to R412): TX_DB pushes or refuses, a pop takes the head, a read of AL_RX_BUF returns the head's
word, a flush waits for a message in read, and AL_STATUS clears by ones what no
hardware sets in the same cycle. Where the spec leaves a point open it rests on the
model's choices in log 59. -/
def Obligations.AlcoveFifosFollowTheirRules : Prop :=
  ∀ (s : State) (x : Side) (b : Nat) (y : Bay), live s = true → tget s.bays b = some y → sideReach s x b = true →
    ((rxFifo (other x) y).length < 16 → unle (slice (staged (sideOf x y)) 0 2) < 0xFF00 → y.st = .active →
      exec (.alTxDb x b) s = .next (pushTo (other x) b (staged (sideOf x y)) s))
    ∧ ((16 ≤ (rxFifo (other x) y).length ∨ 0xFF00 ≤ unle (slice (staged (sideOf x y)) 0 2) ∨ y.st ≠ .active) →
      exec (.alTxDb x b) s = .next (noteSet (.al b x 16) (setSide x b (fun a => { a with refused := true }) s)))
    ∧ (∀ m l, rxFifo x y = m :: l →
      exec (.alRxPop x b) s = .next (setSide x b (fun a => { a with inRead := false, flushPend := false })
        (setRx x b (if (sideOf x y).flushPend then [] else l) s))
      ∧ ((sideOf x y).flushPend = true → exec (.fifoFlushTakeEffect x b) s = .next
        (setSide x b (fun a => { a with inRead := false, flushPend := false }) (setRx x b [] s)))
      ∧ (∀ n, n < 16 → exec (.alRxBufRead x b n) s = .next
        (emit (.readValue (rxWordAddr x b n) (unle (slice m (4 * n) 4)))
          (setSide x b (fun a => { a with lastRx := a.lastRx.set n (unle (slice m (4 * n) 4)), inRead := true }) s))))
    ∧ (rxFifo x y = [] →
      exec (.alRxPop x b) s = .next (noteSet (.al b x 13) (setSide x b (fun a => { a with underrun := true }) s))
      ∧ (∀ n, n < 16 → exec (.alRxBufRead x b n) s = .next
        (emit (.readValue (rxWordAddr x b n) ((sideOf x y).lastRx[n]?.getD 0))
          (noteSet (.al b x 13) (setSide x b (fun a => { a with underrun := true }) s)))))
    ∧ (∀ n, exec (.flushRx x b) s = .next
        (if (sideOf x y).inRead then setSide x b (fun a => { a with flushPend := true }) s else setRx x b [] s)
      ∧ exec (.alStatusWrite x b n) s = .next (setSide x b (fun a => { a with
          underrun := w1c s (.al b x 13) a.underrun (bit n 13), msg := w1c s (.al b x 14) a.msg (bit n 14),
          ptrReset := w1c s (.al b x 15) a.ptrReset (bit n 15), refused := w1c s (.al b x 16) a.refused (bit n 16) }) s))
    ∧ (x = .manager → exec (.flushTx x b) s = .next
        (if y.bside.inRead then setSide .bay b (fun a => { a with flushPend := true }) s else setRx .bay b [] s))
    ∧ exec (.flushTx .bay b) s = .next s
    ∧ exec (.fifoPointerReset (.toManager b)) s = .next (alcoveEvent 1 b (resetAlcove .manager b s))
    ∧ exec (.fifoPointerReset (.toBay b)) s = .next (postNotices b (alcoveEvent 2 b (resetAlcove .bay b s)))
    ∧ (∀ h k, isType s .h h = true →
      exec (.fifoPointerReset (.cmdRing h k)) s = .next (fire (srcCentral 8) 1 h noActor
        (setRings h (fun r => { r with cmdCons := k % 65536 }) s))
      ∧ exec (.fifoPointerReset (.rplRing h k)) s = .next (fire (srcCentral 8) 2 h noActor
        (setRings h (fun r => { r with rplProd := k % 65536 }) s)))
    ∧ (∀ h k n r, s.atr.ring = some r → s.boot.mgr = some h →
      exec (.fifoPointerReset (.evRing k n)) s = .next (fire (srcCentral 8) 3 h noActor
        (setAtr (fun a => { a with prod := k % 65536, ovHist := satAdd 16 a.ovHist n }) s)))

/-- Garnet (R443 to R455): shadow entries and windows are written, a commit makes them active with a new epoch, waits for
accesses of the old one or squashes them at COMMIT_WAIT; a violation report is read and cleared. Where the spec leaves a
point open it rests on the model's choices in logs 16, 22, 60. -/
def Obligations.GarnetRulesChangeUnderTheEpoch : Prop :=
  (∀ (s : State) (c : Cmd) (p : Params) (m e o f k b l : Nat), taken specMpuWrite c s p = true → raw p 0 2 = some m →
      mpuInUse s m = true → raw p 2 1 = some e → e < 64 → raw p 4 2 = some o → ownerOk s m o = true → raw p 6 1 = some f →
      raw p 7 1 = some k → k < 256 → raw p 8 8 = some b → b % 4096 = 0 → b < 2 ^ 52 → raw p 16 8 = some l →
      (l + 1) % 4096 = 0 → b ≤ l → l < 2 ^ 52 → commitNames s m = false → bayBusy s o = false →
      (getMpu s m).locks.contains e = false → tdiLocked s o = false →
      (∀ r, tget (getMpu s m).shadow e = some r → tdiLocked s r.owner = false) →
    exec (.mpuWrite c) s = .next
      (let r : Rgn := { owner := o, valid := bit f 0, read := bit f 1, write := bit f 2, key := k, base := b, limit := l }
       replied specMpuWrite c s [] [] (setMpu m (fun x => { x with shadow := tset x.shadow e r }) (entered c s))))
  ∧ (∀ (s : State) (c : Cmd) (p : Params) (w lg k b f o : Nat), taken specGarnetWindowSet c s p = true → raw p 0 2 = some w →
      w < 65536 → raw p 2 1 = some lg → 21 ≤ lg → lg ≤ 51 → raw p 3 1 = some k → 1 ≤ k → k ≤ 255 →
      (raw p 4 2).getD 0xFFFF = o →
      (o = 0xFFFF ∨ (tget s.bays o).isSome = true) → (raw p 6 1).getD 1 = f → raw p 8 8 = some b → b % 2 ^ lg = 0 → b < 2 ^ 52 →
      (bit f 0 = true → ∀ x ∈ s.gn.shadowW, x.1 ≠ w → x.2.valid = true →
        winOverlap x.2 { base := b, log := lg, colour := k, owner := o, valid := true } = false) →
      commitWindows s = false → bayBusy s o = false → tdiLocked s o = false →
      (o ≠ 0xFFFF → (∃ x, tget s.gn.shadowW w = some x ∧ x.owner = o)
        ∨ ∃ y, tget s.bays o = some y ∧ windowsHeld s o < y.tgt.windows) → bit s.sec.lock.toNat 5 = false →
      (match tget s.gn.shadowW w with | some x => tdiLocked s x.owner | none => tdiLocked s 0xFFFF) = false →
    exec (.garnetWindowSet c) s = .next
      (let x : Window := { base := b, log := lg, colour := k, owner := o, valid := bit f 0 }
       replied specGarnetWindowSet c s [] []
         (noticeHeld (entered c s) (setGn (fun g => { g with shadowW := tset g.shadowW w x }) (entered c s)))))
  ∧ (∀ (s : State) (c : Cmd) (p : Params) (m w : Nat), taken specGarnetCommit c s p = true → (raw p 0 2).getD 0xFFFF = m →
      m < 132 → (raw p 4 2).getD 50 = w → 1 ≤ w → w ≤ 10000 →
      (s.ops.any fun o => match o.kind with | .garnet k => k == m || k == 0xFFFF || m == 0xFFFF | _ => false) = false →
    (s.gn.acc.any (oldAccess (commitMpu (entered c s) m) m) = false →
      exec (.garnetCommit c) s = .next (replied specGarnetCommit c s [] (commitData (commitMpu (entered c s) m) m)
        (commitMpu (entered c s) m)))
    ∧ (s.gn.acc.any (oldAccess (commitMpu (entered c s) m) m) = true →
      exec (.garnetCommit c) s = .next (opened specGarnetCommit c s (.garnet m) []
        (commitData (setGn (fun g => { g with waits := tset g.waits m ((entered c s).dc + 2000 * w) })
          (setPend m true (commitMpu (entered c s) m))) m)
        (setGn (fun g => { g with waits := tset g.waits m ((entered c s).dc + 2000 * w) })
          (setPend m true (commitMpu (entered c s) m))))))
  ∧ (∀ (s : State) (c : Cmd) (p : Params) (w : Nat), taken specGarnetCommit c s p = true → (raw p 0 2).getD 0xFFFF = 0xFFFF →
      (raw p 4 2).getD 50 = w → 1 ≤ w → w ≤ 10000 →
      (s.ops.all fun o => match o.kind with | .garnet _ => false | _ => true) = true → s.gn.acc = [] →
    exec (.garnetCommit c) s = .next
      (let u := setGn (fun g => { g with activeW := g.shadowW, winPend := false }) ((List.range 132).foldl commitMpu (entered c s))
       replied specGarnetCommit c s [] (commitData u 0xFFFF) u))
  ∧ (∀ (s : State) (c : Cmd) (p : Params) (m f : Nat), taken specViolationRead c s p = true → (raw p 0 2).getD 0xFFFF = m →
      m < 132 → (raw p 2 1).getD 0 = f → f ≤ 1 →
    exec (.violationRead c) s = .next (replied specViolationRead c s [] (violRecord (entered c s) m)
      (if f = 1 then setMpu m (fun x => { x with rep := none, cnt := 0 }) (entered c s) else entered c s)))
  ∧ (∀ (s : State) (m : Nat) (o : Op), live s = true → findOp s (.garnet m) = some o → s.gn.acc.any (oldAccess s m) = false →
    exec (.oldEpochDrained m) s = .next (endCommit m s))
  ∧ (∀ (s : State) (m a : Nat), live s = true → tget s.gn.waits m = some a →
    exec (.commitWaitExpiry m) s = .next
      (let u := clockTo a s
       endCommit m ((u.gn.acc.filter (oldAccess u m)).foldl squashAccess u)))

/-- Sessions and SPDM (R415 to R418, R423, R426, R442): KEY_EXCHANGE opens a session within the limits, FINISH establishes or
ends it, requests of an established session act on it, a heartbeat that stays out ends it; anchors are enrolled. Where the
spec leaves a point open it rests on the model's choices in logs 3, 35, 36, 65. -/
def Obligations.SpdmSessionsOpenAndEnd : Prop :=
  (∀ (s : State) (a : Party) (i t : Nat) (r : Role) (o : Option Origin), partyRole s a = some (r, o) →
    (sessionRoom s r = false → exec (.keyExchange a i t) s = .next (emit (.spdm i 1) s))
    ∧ (sessionRoom s r = true → s.sec.identity = true → s.sec.drbg = true → 0 < i → i < 2 ^ 32 → findSession s i = none →
        1 ≤ t → t ≤ 600 →
      exec (.keyExchange a i t) s = .next (emit (.spdm i 0) (drbgUse (setSec (fun y => { y with sessions := y.sessions ++
        [{ id := i, role := r, origin := o, period := t, anchor := (match a with | .officer _ k => k | _ => 0), beatAt := s.dc,
           reqSecret := freeVal s % 2 ^ 384, rspSecret := freeVal (drawn s) % 2 ^ 384 }] }) (drawn (drawn s)))))))
  ∧ (∀ (s : State) (i : Nat) (x : Session), findSession s i = some x → x.done = false → s.boot.bedrock = true →
      s.boot.basalt = false →
    ((x.role ≠ .officer ∨ anchorOk s x.anchor = true) →
      exec (.spdmFinish i true) s = .next (emit (.spdm i 0) (modSession i (fun y => { y with done := true, beatAt := s.dc }) s)))
    ∧ exec (.spdmFinish i false) s = .next (emit (.spdm i 2) (dropSession i s)))
  ∧ (∀ (s : State) (o : Origin) (i : Nat) (x : Session), spdmOpen s o = true →
    (sessionOn s o i = some x →
      exec (.endSession o i) s = .next (emit (.spdm i 0) (dropSession i s))
      ∧ exec (.heartbeat o i) s = .next (emit (.spdm i 0) (modSession i (fun y => { y with beatAt := s.dc }) s))
      ∧ exec (.keyUpdate o i) s = .next (emit (.spdm i 0) (modSession i (fun y => { y with
          keyNo := y.keyNo + 1, reqSecret := nextSecret y.reqSecret, rspSecret := nextSecret y.rspSecret, cmds := 0, rsps := 0 }) s))
      ∧ (∀ k h, enrolOk s x k false = true →
        exec (.officerEnrol o i k false h) s = .next
          (let a := (some (h % 2 ^ 384), (s.nv.anchors[k]?.getD (none, false)).2)
           emit (.spdm i 0) (setNv (fun v => { v with anchors := v.anchors.set k a }) s)))
      ∧ (∀ k h, enrolOk s x k true = true →
        exec (.officerEnrol o i k true h) s = .next
          (let a := ((s.nv.anchors[k]?.getD (none, false)).1, true)
           emit (.spdm i 0) (setNv (fun v => { v with anchors := v.anchors.set k a }) s))))
    ∧ (sessionOn s o i = none →
      exec (.endSession o i) s = .next (emit (.spdm i 2) s) ∧ exec (.heartbeat o i) s = .next (emit (.spdm i 2) s)
      ∧ exec (.keyUpdate o i) s = .next (emit (.spdm i 2) s))
    ∧ (s.sec.identity = true → exec (.getMeasurements o) s = .next (emit (.measurements (measurements s)) s)))
  ∧ (∀ (s : State) (i : Nat) (x : Session), findSession s i = some x →
    exec (.heartbeatExpiry i) s = .next (dropSession i (clockTo (x.beatAt + x.period * 2000000000) s)))
  ∧ (∀ s : State, s.sec.drbg = true → exec .drbgReseed s = .next (setSec (fun x => { x with drbgReqs := 0 }) s))
  ∧ (∀ (s : State) (k : Nat) (b : Bool), live s = true →
    (anchorOk s k = true → s.boot.bedrock = true →
      exec (.debugToken k true) s = .next (setSec (fun x => { x with token := true }) s))
    ∧ exec (.debugToken k false) s = .next s
    ∧ ((s.sec.lock.getLsbD 1 = false ∨ s.sec.token = true) →
      exec (.debugHalt b) s = .next (setSec (fun x => { x with halted := b }) s))
    ∧ (s.sec.lock.getLsbD 1 = true → s.sec.token = false → exec (.debugHalt b) s = .next s))

/-- The commands of Bedrock; SELFTEST replies when its free time of at most 5 ms has passed, and an activated bundle applies
one command at a time (R77, R78, R89 to R92, R420 to R422, R434 to R441). Where the spec leaves a point open it rests on
the model's choices in logs 1, 11, 12, 18, 66, 67. -/
def Obligations.BedrockCommandsTakeEffect : Prop :=
  (∀ (s : State) (c : Cmd) (p : Params), let e := entered c s
    (taken specSessionEnd c s p = true →
      exec (.sessionEnd c) s =
        .next (replied specSessionEnd c s [] [] (modSession c.session (fun y => { y with ending := true }) e)))
    ∧ (taken specApprovedGet c s p = true → ∀ x, findSession e c.session = some x →
      exec (.approvedGet c) s = .next (replied specApprovedGet c s [] [b2n (approved e) + 2 * b2n x.lastApproved] e))
    ∧ (taken specDeviceInfo c s p = true →
      exec (.deviceInfo c) s = .next (replied specDeviceInfo c s [] (deviceInfoBytes e) e))
    ∧ (taken specSelftest c s p = true → exec (.selftest c) s = .next (opened specSelftest c s .selftest [] []
        (drawn (setSec (fun y => { y with testing := some (e.dc + 1 + freeVal e % 10000000, c.env.testsOk) }) e)))))
  ∧ (∀ (s u : State) (t : Nat) (ok : Bool), s.sec.testing = some (t, ok) → setSec (fun x => { x with testing := none }) s = u →
    (s.dc < t → endSelftest s = s)
    ∧ (t ≤ s.dc → ok = true → endSelftest s = endOp .selftest 0 (le 4 (bdStatus u)) u)
    ∧ (t ≤ s.dc → ok = false → endSelftest s = endOp .selftest 0 (le 4 (bdStatus (failTest 1 u))) (failTest 1 u)))
  ∧ (∀ (s : State) (k : Nat), live s = true → 1 ≤ k → k ≤ 4 → exec (.selfTestFailure k) s = .next (failTest k s))
  ∧ (∀ (s : State) (c : Cmd) (p : Params) (m es k : Nat), taken specLockSet c s p = true → let e := entered c s
    (raw p 0 1 = some 0 → (raw p 2 1).getD 0 = m → (raw p 4 4).getD 0 = k →
        ((BitVec.ofNat 6 k).getLsbD 0 = true ∨ (BitVec.ofNat 6 k).getLsbD 2 = true → raw p 16 4 = some 0x43455254) →
        ((BitVec.ofNat 6 k).getLsbD 0 = true → certified e = false →
          e.sec.testsOk = true ∧ (List.range 4).any (anchorIn e) = true) →
      exec (.lockSet c) s = .next (replied specLockSet c s [] [] (closeLocks (BitVec.ofNat 6 k) e)))
    ∧ (raw p 0 1 = some 1 → (raw p 2 1).getD 0 = m → m < 132 → (raw p 8 8).getD 0 = es → commitNames s m = false →
      exec (.lockSet c) s = .next (replied specLockSet c s [] [] (lockEntries m es e))))
  ∧ (∀ (s : State) (c : Cmd) (p : Params) (n : Nat), taken specZeroize c s p = true → raw p 4 4 = some 0x5A45524F →
      let e := entered c s
    (raw p 0 1 = some 0 → exec (.zeroize c) s = .next (replied specZeroize c s [] [] (zeroAll c.session e)))
    ∧ (raw p 0 1 = some 1 → (raw p 2 2).getD 0 = n → isType e .span n = true →
      (meetDown n (abortOp (.portDown n) e)).2 = false →
      exec (.zeroize c) s = .next (replied specZeroize c s [] [] (zeroPort e n)))
    ∧ (raw p 0 1 = some 2 → (raw p 2 2).getD 0 = n → (isType e .h n = true ∨ isType e .d n = true) →
      exec (.zeroize c) s = .next (replied specZeroize c s [] [] (zeroIde n e))))
  ∧ (∀ (s : State) (c : Cmd) (p : Params) (f : Nat), taken specFdidSet c s p = true → raw p 0 1 = some f → f < 256 →
      (∀ x ∈ (entered c s).ports, x.2.typ = .span → x.2.st ≠ .training ∧ x.2.st ≠ .up ∧ x.2.st ≠ .hold) →
    exec (.fdidSet c) s = .next (replied specFdidSet c s [] [] (setBoot (fun b => { b with fdid := f }) (entered c s))))
  ∧ (∀ (s : State) (c : Cmd) (p : Params) (k x y u v : Nat), taken specBundleKeySet c s p = true → raw p 0 1 = some k → k ≤ 3 →
      beVal (slice p.bytes 4 48) = x → beVal (slice p.bytes 52 48) = y → raw p 4 48 = some u → raw p 52 48 = some v →
      onP384 x y = true → (entered c s).sec.lock.getLsbD 3 = false →
    exec (.bundleKeySet c) s = .next (replied specBundleKeySet c s [] []
      (setNv (fun v => { v with bundleKeys := tset v.bundleKeys k (x, y) }) (entered c s))))
  ∧ (∀ (s : State) (c : Cmd) (p : Params) (off n a l : Nat), taken specBundleLoad c s p = true → (raw p 0 1).getD 0 = 1 →
      (raw p 1 1).getD 1 = l → l ≤ 1 → (raw p 4 4).getD 0 = off → off ≤ 1048576 → (raw p 8 8).getD 0 = a →
      raw p 16 4 = some n → off + n ≤ 1048576 →
      let b := stageWrite (if off = 0 then [] else s.stage.bytes) off (slice p.bytes 24 n)
    (l = 0 → exec (.bundleLoad c) s = .next (replied specBundleLoad c s [] [] { entered c s with stage := { bytes := b } }))
    ∧ (∀ v, l = 1 → verifyBundle (entered c s) b = .inr v →
      exec (.bundleLoad c) s = .next (replied specBundleLoad c s [] []
        { entered c s with stage := { bytes := b, verified := some v } }))
    ∧ (∀ st, l = 1 → verifyBundle (entered c s) b = .inl st → 0x10 ≤ st → exec (.bundleLoad c) s =
        .next (closed specBundleLoad c s (sendReply { baseReply 0x0104 c (c.session != 0) with status := st }
          { entered c s with stage := { bytes := b } }))))
  ∧ (∀ (s t : State) (c : Cmd) (p : Params) (n : Nat) (l : List Bytes), taken specBundleActivate c s p = true →
      s.stage.verified = some (n, l) → s.nv.bseq < n → bundleRun c 0 l (entered c s) = .ok t →
    exec (.bundleActivate c) s = .next (opened specBundleActivate c s .bundle []
      (le 4 l.length ++ le 4 0xFFFFFFFF ++ List.replicate 16 0)
      { entered c s with bundle := some { cmd := c, seq := n, pkts := l } }))
  ∧ (∀ (s : State) (r : BundleRun), s.bundle = some r →
    (∀ k t, r.pkts[r.next]? = some k → bundleCommand r.cmd k s = .ok t →
      bundleStep s = { t with bundle := t.bundle.map fun x => { x with next := r.next + 1 } })
    ∧ (∀ k e, r.pkts[r.next]? = some k → bundleCommand r.cmd k s = .error e →
      bundleStep s = endBundle stBundlePartial (le 4 r.next ++ le 4 r.next ++ failHeader k e) s)
    ∧ (r.pkts[r.next]? = none →
      bundleStep s = endBundle 0 (le 4 r.next ++ le 4 0xFFFFFFFF ++ List.replicate 16 0) s))
  ∧ (∀ (s : State) (c : Cmd) (p : Params) (a n : Nat), taken specFwUpdate c s p = true → raw p 0 8 = some a → a % 8 = 0 →
      raw p 8 4 = some n → n ≤ 6291456 → s.boot.mgr.isSome = true → (entered c s).sec.lock.getLsbD 4 = false →
      (imageOf (entered c s) (hostBytes c n)).ilen = n → imageFault (entered c s) (imageOf (entered c s) (hostBytes c n)) = 0 →
      c.env.readBackOk = true →
    exec (.fwUpdate c) s = .next (replied specFwUpdate c s []
      ([updateSlot (entered c s), 0, 0, 0] ++ le 4 (imageOf (entered c s) (hostBytes c n)).version)
      (setNv (fun v => { v with images := tset v.images (updateSlot (entered c s)) (imageOf (entered c s) (hostBytes c n)) })
        (entered c s))))
  ∧ (∀ (s : State) (c : Cmd) (p : Params) (k r : Nat), taken specFwSelect c s p = true → raw p 0 1 = some k → k ≤ 1 →
      (raw p 1 1).getD 0 = r → (entered c s).sec.lock.getLsbD 4 = false →
    (r = 0 → exec (.fwSelect c) s = .next (replied specFwSelect c s [] []
      (setNv (fun v => { v with select := some k }) (entered c s))))
    ∧ (r = 1 → ∀ i, slotAccepted (entered c s) k = some i → exec (.fwSelect c) s = .next (replied specFwSelect c s [] []
      (raiseFloor k (setNv (fun v => { v with select := some k }) (entered c s))))))

/-- Atrium's records (R459 to R471): a lane drains the pending source next after its pointer; the commands set reactions and the
event ring and read the first event and the history, which CLEAR empties; AT_INT_STATUS clears by ones what
no hardware sets in the same cycle. Detectors outside
the families (R28, R457, R458, R473, R474, R560): each fires its source with its cause; the wired BASALT reaction enters
Basalt. Where the spec leaves a point open it rests on the model's choices in logs 37, 42, 55. -/
def Obligations.AtriumRecordsAndDetectors : Prop :=
  ((∀ (s : State) (k : Nat) (e : Event), s.boot.por = false → s.boot.atr = true → s.atr.stopped = false → k < 8 →
         afterPtr (tgetD s.atr.lanePtr k 255) ((lanePend s k).filter fun e => decide (e.cyc < drainCycle s k (lanePend s k)))
           = some e →
       exec (.eventDrain k) s = .next (drained k e (clockTo (8 * drainCycle s k (lanePend s k)) s)))
     ∧ (∀ (s : State) (c : Cmd) (p : Params) (n r : Nat), taken specEventReactionSet c s p = true → raw p 0 2 = some n → n < 2048 →
         srcClass n ≠ 3 → srcFixed n = false → (raw p 2 1).getD (if srcClass n = 2 then 2 else 1) = r →
         (if srcClass n = 2 then 2 else 0) ≤ r → r ≤ 4 →
       exec (.eventReactionSet c) s = .next (replied specEventReactionSet c s [] [] (setAtr (fun a => { a with
         reactWas := tset a.reactWas n ((entered c s).dc / 8, reactNow (entered c s) n),
         react := if r = srcReset n then tdel a.react n else tset a.react n r }) (entered c s))))
     ∧ (∀ (s : State) (c : Cmd) (p : Params) (k : Nat), (raw p 0 1).getD 0 = k → k ≤ 1 → s.boot.basalt = false →
       (∀ e, taken specFirstEventRead c s p = true → s.atr.first = some e →
         exec (.firstEventRead c) s = .next (replied specFirstEventRead c s [] (1 :: entryBytes e)
           (if k = 1 then setAtr (fun a => { a with first := firstCleared (entered c s) }) (entered c s) else entered c s)))
       ∧ (taken specFirstEventRead c s p = true → s.atr.first = none →
         exec (.firstEventRead c) s = .next (replied specFirstEventRead c s [] (List.replicate 17 0)
           (if k = 1 then setAtr (fun a => { a with first := firstCleared (entered c s) }) (entered c s) else entered c s)))
       ∧ (taken specHistoryRead c s p = true →
         exec (.historyRead c) s = .next (replied specHistoryRead c s []
           ([s.atr.hist.length, 0] ++ le 2 s.atr.ovHist ++ le 2 s.atr.ovRing ++ s.atr.hist.flatMap entryBytes)
           (if k = 1 then setAtr (fun a => { a with hist := [], ovHist := 0, ovRing := 0, basaltRec := none }) (entered c s)
            else entered c s))))
     ∧ (∀ (s : State) (c : Cmd) (p : Params) (a n m : Nat), taken specEventRingSet c s p = true → raw p 0 8 = some a →
         a % 4096 = 0 → (raw p 8 2).getD 256 = n → slotsApp n = n → (raw p 10 1).getD 0 = m → m ≤ 3 →
       exec (.eventRingSet c) s = .next (replied specEventRingSet c s [] []
         (setAtr (fun x => { x with ring := if a = 0 then none else some (a, n, m), prod := 0, cons := 0 }) (entered c s))))
     ∧ (∀ (s : State) (v : Nat), mgrReach s = true →
       exec (.atEvrConsWrite v) s = .next (setAtr (fun a => { a with cons := v % 65536 }) s)
       ∧ exec (.atIntStatusWrite v) s = .next (setAtr (fun a => { a with
           event := w1c s .atEvent a.event (bit v 0), ringDrop := w1c s .atRingDrop a.ringDrop (bit v 1) }) (noteAlert s))))
  ∧ ((∀ (s : State) (k : Nat), s.boot.por = false → (k = 1 ∨ k = 2) →
       exec (.atriumSelf k) s = .next (fire (srcCentral 1) k 0 noActor s))
     ∧ (∀ (s : State) (w : Wired), live s = true → basaltNext s = some w →
       exec .basaltEntry s = .next (enterBasalt w.source (clockTo w.due s)))
     ∧ (∀ (s : State) (h k p mid : Nat) (x : Stored), s.boot.por = false → s.boot.pll = true →
       (h < 8 → exec (.hallLinkError h) s = .next (fire (srcHall h 232) 1 0 noActor s)
         ∧ exec (.uncorrectableMemoryError (.hallMem h)) s = .next (fire (srcHall h 231) 1 0 noActor s)
         ∧ exec (.uncorrectableMemoryError (.hallCorr h)) s = .next (fire (srcHall h 229) 1 0 noActor s))
       ∧ (1 ≤ k → k ≤ 3 → exec (.uncorrectableMemoryError (.centralMem k)) s = .next (fire (srcCentral 3) k 0 noActor s))
       ∧ (inUse s p = true → tget s.cells mid = some x →
         exec (.uncorrectableMemoryError (.cellData p mid)) s = .next
           (fireDegr p 15 { s with cells := tmod s.cells mid fun x => { x with msg := { x.msg with poison := true } } })))
     ∧ (∀ (s : State) (d : Nat) (t : Int), s.boot.por = false → s.boot.pll = true → d < 10 →
       (t ≤ warnAt s - 20 →
         exec (.thermalSample d t) s = .next (setAtr (fun a => { a with hot := a.hot.filter (· != d), warm := a.warm.filter (· != d) })
           { s with temps := tset s.temps d t }))
       ∧ (tripAt s ≤ t → s.atr.hot.contains d = false → s.atr.warm.contains d = true →
         exec (.thermalSample d t) s = .next (setAtr (fun a => { a with
           hot := if a.hot.contains d then a.hot else a.hot ++ [d], warm := if a.warm.contains d then a.warm else a.warm ++ [d] })
           (fire (srcCentral 4) 1 d noActor { s with temps := tset s.temps d t })))
       ∧ (warnAt s ≤ t → t < tripAt s → s.atr.warm.contains d = false →
         exec (.thermalSample d t) s = .next (setAtr (fun a => { a with
           hot := a.hot.filter (· != d), warm := if a.warm.contains d then a.warm else a.warm ++ [d] })
           (fire (srcCentral 5) 1 d noActor { s with temps := tset s.temps d t })))))

/-- Newel's commands and registers (R88, R237, R481, R482, R488, R493, R494, R501, R503, R506, R508 to R510): settings,
requests, power off through the associated port, in the order of R486 (`took`), status, and the registers that a channel takes in OFF, LOCKOUT and SHORT.
Where the spec leaves a point open it rests on the model's choices in logs 3, 51, 52, 92. -/
def Obligations.NewelCommandsSetChannels : Prop :=
  (∀ (s : State) (c : Cmd) (p : Params) (h il d t n f m r : Nat), taken specNewelConfig c s p = true → raw p 0 1 = some h →
      h < 32 → (raw p 2 2).getD 100 = il → 10 ≤ il → il ≤ 800 → (raw p 4 1).getD 20 = d → 5 ≤ d → d ≤ 200 →
      (raw p 8 2).getD 1000 = t → 100 ≤ t → t ≤ 60000 → (raw p 12 1).getD 3 = n → n ≤ 15 → (raw p 13 1).getD 0 = f → f ≤ 1 →
      (raw p 14 1).getD 0 = m → m ≤ 1 → (raw p 15 1).getD 0 = r → r ≤ 7 → chanBusy s h = false →
      (gateOn (getChan s h) = true → il = (getChan s h).ilimit ∧ m = (getChan s h).tempMode) →
    exec (.newelConfig c) s = .next (replied specNewelConfig c s [] [] (reselect h (setChan h (fun c => { c with
      ilimit := il, dead := d, retryTmr := t, retryCnt := n, feedPri := f, tempMode := m, prio := r }) (entered c s)))))
  ∧ (∀ (s : State) (c : Cmd) (p : Params) (h : Nat), raw p 0 1 = some h → h < 32 → chanBusy s h = false →
      let x := getChan s h
    (taken specNewelOn c s p = true → x.st ≠ .lockout → x.st ≠ .short → senseOk x = true →
      exec (.newelOn c) s = .next (replied specNewelOn c s [] [] (took h .on (requestChan h) (entered c s))))
    ∧ (taken specNewelClear c s p = true → x.st ≠ .short → exec (.newelClear c) s = .next (replied specNewelClear c s [] []
        (took h .clear (fun s => setChan h (fun c =>
          if c.st == .lockout then { c with st := .off, retries := 0, requested := false } else c) s) (entered c s))))
    ∧ (taken specNewelOff c s p = true → bit x.assoc.toNat 31 = false →
      exec (.newelOff c) s = .next (replied specNewelOff c s [] [] (took h .off (chanOff h) (entered c s))))
    ∧ (taken specNewelOff c s p = true → bit x.assoc.toNat 31 = true → isType (entered c s) .d (x.assoc.toNat % 512) = true →
      (portSt (entered c s) (x.assoc.toNat % 512) = some .up ∨ portSt (entered c s) (x.assoc.toNat % 512) = some .training) →
      exec (.newelOff c) s = .next (opened specNewelOff c s (.newelOff h (x.assoc.toNat % 512)) [] []
        (meetDown (x.assoc.toNat % 512) (entered c s)).1)))
  ∧ (∀ (s : State) (c : Cmd) (p : Params) (f n : Nat), taken specNewelStatus c s p = true → raw p 0 1 = some f → f < 32 →
      raw p 1 1 = some n → 1 ≤ n → n ≤ 32 - f →
    exec (.newelStatus c) s = .next (replied specNewelStatus c s []
      ((List.range n).flatMap fun k => chanRecord (entered c s) k (f + k)) { entered c s with freeN := s.freeN + 2 * n }))
  ∧ (∀ (s : State) (c : Cmd) (p : Params) (f b d : Nat), taken specStairwellSet c s p = true → raw p 0 1 = some f → f < 2 →
      (raw p 2 2).getD 40 = b → 1 ≤ b → b ≤ 400 → (raw p 4 2).getD 1100 = d → 1000 ≤ d → d ≤ 1200 →
    exec (.stairwellSet c) s = .next (replied specStairwellSet c s [] []
      (setFeed f (fun x => { x with budget := b, droop := d }) (entered c s))))
  ∧ (∀ (s : State) (h v : Nat), s.boot.por = false → s.boot.pll = true → h < 32 → mgrReach s = true →
      let u := clockTo (clkP s.dc) s
    exec (.nwChAssocWrite h v) s = .next (writeAssoc h v u)
    ∧ exec (.nwChBoardWrite h 0 v) s = .next (setChan h (fun c => if !chanOpen c then c else { c with board := BitVec.ofNat 32 (v % 2 ^ 27) }) u)
    ∧ exec (.nwChBoardWrite h 1 v) s = .next (setChan h (fun c => if !chanOpen c then c else { c with therm := BitVec.ofNat 32 v }) u))

/-- A channel's start (R484, R485, R491 to R497, R501, R530): WAIT to QUEUED 100 ms after the retry timer, admission by the
Stairwell, ON with PG, NW_PERST_N 100 ms later, retries cleared after 10 s of PG; a board's insertion and removal; the
events of one CLK_P cycle act in the order of R486 (`took`, `inTurn`). Where the
spec leaves a point open it rests on the model's choices in logs 51, 92. -/
def Obligations.ChannelsStartThroughTheStairwell : Prop :=
  ∀ (s : State) (h : Nat), s.boot.por = false → s.boot.pll = true → h < 32 →
    let u := clockTo (clkP s.dc) s
    let x := getChan s h
    (∀ t, mayQueue s x = true → x.expAt = some t →
      exec (.waitToQueued h) s = .next (took h .eligible (queueChan h) (clockTo (clkP (t + 200000000)) u)))
    ∧ (mayQueue s x = true → x.expAt = none → exec (.waitToQueued h) s = .next (took h .eligible (queueChan h) u))
    ∧ (∀ v, mayQueue v (getChan v h) = true → (∀ t, (getChan v h).expAt = some t → t + 200000000 ≤ v.dc) →
      queueChan h v = setChan h (fun c => { c with st := .queued, front := false }) v)
    ∧ (∀ f, f < 2 → (getFeed s f).good = true → (getFeed s f).droopy = false → s.nw.under = false → s.boot.basalt = false →
        stairCandidate u f = some (h, x) → (chargedTo u f + inrush x ≤ (getFeed s f).budget ∨ chargedTo u f = 0) →
        (getFeed s f).lastAdm ≠ some (clkP s.dc) →
      exec (.stairwellAdmission f) s =
        .next (took h (.admitted f) (rampChan h f) (setFeed f (fun x => { x with lastAdm := some u.dc }) u)))
    ∧ (∀ v f, (getChan v h).st = .queued → feedFor v (getChan v h) = some f →
      rampChan h f v = emit (.newelGate h true) (setChan h (fun c => { c with
        st := .ramp, feed := f, closed := true, front := false, admitAt := v.dc }) v))
    ∧ (∀ v e f, doneNow v = [] → took h e f v = f (noteEv h e v))
    ∧ (gateOn x = true → x.pg = false →
      exec (.pgAssert h) s = .next (reselect h (setChan h (fun c => { c with st := .on, pg := true, pgAt := u.dc }) u)))
    ∧ (x.st = .on → x.pg = true → exec (.nwPerstNRise h) s = .next
      (setChan h (fun c => { c with perst := true }) (clockTo (clkP (x.pgAt + 200000000)) u)))
    ∧ (x.pg = true → exec (.pgHold10s h) s = .next
      (setChan h (fun c => { c with retries := 0 }) (clockTo (clkP (x.pgAt + 20000000000)) u)))
    ∧ (presEn x = true → x.present = false → exec (.boardInsertion h) s = .next
      (fireNewel h 10 (took h .inserted (seatBoard h) u)))
    ∧ (∀ v, seatBoard h v = setChan h (fun c => { c with present := true, retries := 0 }) v)
    ∧ (presEn x = true → x.present = true → exec (.boardRemoval h) s = .next
      (fireNewel h 7 (noteSet (.nw h 17) (inTurn 3 h (unseatBoard h) u))))
    ∧ (∀ v, v.boot.basalt = false → gateOn (getChan v h) = true → unseatBoard h v =
      setChan h (fun c => { c with st := .wait }) (startRetry h (gateOff h
        (setChan h (fun c => { c with present := false, removed := true }) v))))
    ∧ (∀ t, x.timer = some t → exec (.retryTimerExpiry h) s = .next
      (took h .expiry (fun s => setChan h (fun c => { c with timer := none, expAt := some s.dc }) s) (clockTo (clkP t) u)))
    ∧ (∀ a b d, exec (.diodeMeasure h a b d) s = .next (setChan h (fun c =>
        if c.tempMode != 0 then c
        else { c with
          sensor := c.sensor || (a == .bad || b == .bad || d == .bad),
          tj := match [a, b, d].filterMap (diodeTemp c) with | [] => c.tj | t :: r => degC (r.foldl max t) })
        (if (a == .bad || b == .bad || d == .bad) && x.tempMode == 0 then noteSet (.nw h 18) u else u)))
    ∧ (∀ v i, exec (.thermalModelUpdate h v i) s = .next (setChan h (fun c =>
        if c.tempMode = 1 && c.st != .off then { c with tj := modelStep c v i } else c) u))

/-- Faults of channels and feeds (R487 to R490, R494, R498 to R500, R504, R507, R512): each is taken in a CLK_P cycle; a fault
stops the gate, counts a retry and goes to WAIT or LOCKOUT; a feed that fails hands its channels over. Where the spec leaves
a point open it rests on the model's choices in logs 34, 51, 52, 92. -/
def Obligations.ChannelAndFeedFaults : Prop :=
  (∀ (s : State) (h : Nat), s.boot.por = false → s.boot.pll = true → h < 32 →
    let u := clockTo (clkP s.dc) s
    let x := getChan s h
    let w := clockTo ((s.dc / 32 + 1) * 32) s
    exec (.fastTrip h) s = .next (inTurn 2 h (chanFault h 1) w)
    ∧ ((x.st = .ramp ∨ x.st = .on) → s.boot.basalt = false → x.retries < x.retryCnt → x.retryCnt ≤ 15 → doneNow w = [] →
      ∃ y, exec (.fastTrip h) s = .next y ∧ (getChan y h).st = .wait ∧ (getChan y h).trip = true
        ∧ (getChan y h).retries = x.retries + 1 ∧ (getChan y h).timer.isSome = true)
    ∧ exec (.ocTimeout h) s = .next (inTurn 2 h (fun s => if gateOn (getChan s h) then chanFault h 2 s else s) u)
    ∧ (x.st = .ramp → exec (.startTimeout h) s = .next (inTurn 2 h (fun s =>
        if (getChan s h).st == .ramp && decide (rampEnd (getChan s h) ≤ s.dc) then chanFault h 3 s else s)
        (clockTo (clkP (x.admitAt + 576000000 / 2 ^ slewCode x + 10000000)) u)))
    ∧ exec (.overTemperature h) s = .next (inTurn 2 h (fun s =>
        if gateOn (getChan s h) && decide (degC (otTrip (getChan s h)) ≤ (getChan s h).tj) then chanFault h 4 s else s) u)
    ∧ (∀ v r f, doneNow v = [] → inTurn r h f v = f v)
    ∧ exec (.pgLoss h) s = .next (losePg h u)
    ∧ (gateOn x = false → x.st ≠ .short → exec (.fetShort h) s = .next
      (inTurn 1 h (shortChan h) (clockTo (clkP (x.offAt + 200400000)) u)))
    ∧ (∀ v, bit (getChan v h).assoc.toNat 31 = false → shortChan h v =
      fireNewel h 5 (setChan h (fun c => { c with st := .short, fetShort := true, closed := false, front := false }) v))
    ∧ (∀ f, x.moving = some f → exec (.deadTimeExpiry h) s = .next
      (let t := clockTo (clkP (x.moveAt + 2000 * x.dead)) u
       setChan h (fun c => { c with feed := (feedFor t c).getD f, closed := true, moving := none }) t))
    ∧ (∀ v, x.blank = true → exec (.pgBlankingEnd h v) s = .next
      (let t := setChan h (fun c => { c with blank := false }) (clockTo (clkP (x.moveAt + 2000 * (x.dead + 50))) u)
       if v < 10200 then losePg h t else t)))
  ∧ (∀ (s : State) (f v : Nat), s.boot.por = false → s.boot.pll = true → f < 2 →
    let u := clockTo (clkP s.dc) s
    ((v < 1020 ∨ 1380 < v) → exec (.feedBad f v) s = .next ((List.range 32).foldl (feedLost f (decide (1380 < v)))
      (setFeed f (fun x => { x with good := false, volt := v, ov := decide (1380 < v) }) u)))
    ∧ (1050 ≤ v → v ≤ 1350 → exec (.feedGood f v) s = .next ((List.range 32).foldl (fun s h => reselect h s)
      (setFeed f (fun x => { x with good := true, volt := v, ov := false }) u)))
    ∧ (v < (getFeed s f).droop → (getFeed s f).droopy = false → exec (.feedDroop f v) s = .next
      (fire (srcCentral (48 + f)) 1 f noActor (setFeed f (fun x => { x with droopy := true, volt := v }) u)))
    ∧ ((getFeed s f).droop + 20 < v → exec (.feedDroopEnd f v) s = .next
      (setFeed f (fun x => { x with droopy := false, volt := v }) u)))
  ∧ (∀ s : State, s.boot.por = false → s.boot.pll = true →
    let u := clockTo (clkP s.dc) s
    exec .vnewelUndervoltage s = .next
      (let t := (List.range 32).foldl (fun s h => inTurn 2 h (fun s => if gateOn (getChan s h) then chanFault h 11 s else s) s)
         { u with nw := { u.nw with under := true } }
       { t with nw := { t.nw with chs := tmap t.nw.chs fun _ c => { c with closed := false, moving := none } } })
    ∧ exec .vnewelRestored s = .next { u with nw := { u.nw with under := false } })

/-- Register accesses and the reads of the management commands (R12, R14, R16 to R20, R89, R311, R540, R543): a read answers the
word and clears an RC register, a word that is not there reads 0, only whole words are written. Where the spec leaves a
point open it rests on the model's choices in logs 3, 39. -/
def Obligations.RegistersAreReadAndWritten : Prop :=
  (∀ (s : State) (v a k i o : Nat), live s = true → target s v a = some (.reg k i o) → (k = 14 → inWords o 0x80 16 = false) →
    exec (.rcCounterRead v a) s = .next (emit (.readValue a (readAt k i o s).1) (readAt k i o s).2)
    ∧ (∀ w, exec (.registerWrite v a w 15) s = .next (writeReg k i o (lo32 w) s)
      ∧ exec (.registerWrite v a w 7) s = .next s)
    ∧ (∀ w, k = 15 → o = 0 → exec (.registerWrite v a w 15) s = .next (setStd i (fun d => { d with flrDrain := lo32 w % 65536 }) s)))
  ∧ (∀ (s : State) (v a : Nat), live s = true → target s v a = none → v < 512 → pf0Reach s v = true →
    exec (.rcCounterRead v a) s = .next (emit (.readValue a 0) s))
  ∧ (∀ s : State, mgrReach s = true →
    exec (.latchedLoRead .tmTime) s = .next (emit (.readValue 0x40000 (readAt 9 0 0 s).1) (readAt 9 0 0 s).2)
    ∧ exec (.latchedLoRead .tmPtm) s = .next (emit (.readValue 0x40010 (readAt 9 0 0x10 s).1) (readAt 9 0 0x10 s).2)
    ∧ exec (.latchedLoRead .tmPtmAt) s = .next (emit (.readValue 0x40018 (readAt 9 0 0x18 s).1) (readAt 9 0 0x18 s).2)
    ∧ exec (.latchedLoRead .atFirstTs) s = .next (emit (.readValue 0x62004 (readAt 7 0 0x2004 s).1) (readAt 7 0 0x2004 s).2))
  ∧ (∀ (s : State) (c : Cmd) (p : Params) (k l i o n : Nat), taken specCountersRead c s p = true → raw p 0 1 = some k → k ≤ 9 →
      (raw p 1 1).getD 0 = l → l ≤ 1 → raw p 2 2 = some i → instOk (entered c s) k i = true → raw p 4 4 = some o →
      o % 4 = 0 → o < blkSize k i → (raw p 8 2).getD 1 = n → 1 ≤ n → n ≤ 1000 →
    exec (.countersRead c) s = .next (replied specCountersRead c s [] (readWords k i (l == 1) n o (entered c s)).1
      (readWords k i (l == 1) n o (entered c s)).2))
  ∧ (∀ (s : State) (c : Cmd) (p : Params), taken specSensorsRead c s p = true →
    exec (.sensorsRead c) s = .next (replied specSensorsRead c s []
      (((List.range 10).flatMap fun d => le 2 (unsigned 2 (tgetD s.temps d 0)))
        ++ ((List.range 12).flatMap fun k => le 2 (Config.analog (s.freeN + k)))
        ++ le 2 (getFeed s 0).volt ++ le 2 (getFeed s 1).volt)
      { entered c s with freeN := s.freeN + 12 }))

/-- Rings, MCTP packets and telemetry (R50 to R53, R56, R97, R549, R550): doorbells move the indices, ENABLE starts the rings at
0, a packet, on MCTP assembled from its transmission units, runs as the command its opcode names, streams are set and run. Where the spec leaves a point open it rests on
the model's choices in logs 6, 37, 39, 40. -/
def Obligations.RingsAndPacketsCarryCommands : Prop :=
  (∀ (s : State) (n v : Nat) (q : Port), live s = true → pf0Reach s n = true → getPort s n = some q →
    (ringOcc (v % 65536) q.std.rings.cmdCons ≤ 2 ^ ringLog q.std.rings →
      exec (.cmdDoorbell n v) s = .next (setRings n (fun r => { r with cmdProd := v % 65536 }) s))
    ∧ (2 ^ ringLog q.std.rings < ringOcc (v % 65536) q.std.rings.cmdCons →
      exec (.cmdDoorbell n v) s = .next (fire (srcCentral 9) 1 n noActor s))
    ∧ exec (.rplConsWrite n v) s = .next (setRings n (fun r => { r with rplCons := v % 65536, sent := false }) s)
    ∧ (q.std.rings.enable = false → bit (v ||| 16) 4 = true → exec (.ringEnable n v) s = .next
      (setRings n (fun r => { r with enable := true, cmdProd := 0, cmdCons := 0, rplProd := 0, rplCons := 0, resv := 0 })
        (setRings n (fun r => { r with log := (v ||| 16) % 16, stopped := w1c s (.ring n) r.stopped (bit (v ||| 16) 5) }) s)))
    ∧ (q.std.rings.enable = false → bit v 4 = false → exec (.ringStop n v) s = .next
      (setRings n (fun r => { r with log := v % 16, stopped := w1c s (.ring n) r.stopped (bit v 5) }) s))
    ∧ (q.std.rings.enable = true → bit v 4 = false → exec (.ringStop n v) s = .next
      (setRings n (fun r => { r with stopped := w1c s (.ring n) q.std.rings.stopped (bit v 5) })
        (stopRings n (setRings n (fun r => { r with stopped := w1c s (.ring n) r.stopped (bit v 5) }) s)))))
  ∧ (∀ (s : State) (o : Origin) (us : List Bytes) (b : Bytes) (e : Env) (sp : OpSpec), 16 ≤ b.length → b.length ≤ 4096 →
      specIn (specBundleActivate :: opTable) (unle (slice b 0 2)) = some sp →
    (assembled (mctpUnit s o) us = some b → (∀ n, o ≠ .ring n) → ∃ t, exec (.mctpCommandReceive o us e) s = .next t
      ∧ command sp (packetCmd o b b.length e) s = .next t)
    ∧ (∀ n, ∃ t, exec (.ringCommandFetch n b e) s = .next t
      ∧ command sp (packetCmd (.ring n) b (16 + unle (slice b 4 2)) e) s = .next t))
  ∧ (∀ (s : State) (c : Cmd) (p : Params) (k l i o n m : Nat), taken specTelemetryStream c s p = true → raw p 0 1 = some k →
      k ≤ 15 → raw p 1 1 = some l → l ≤ 9 → raw p 2 2 = some i → instOk (entered c s) l i = true → raw p 4 4 = some o →
      o % 4 = 0 → o < blkSize l i → (raw p 8 1).getD 1 = n → 1 ≤ n → n ≤ 64 → (raw p 10 2).getD 0 = m → m ≤ 10000 →
    (m = 0 → exec (.telemetryStream c) s = .next (replied specTelemetryStream c s [] []
      { entered c s with tele := tdel s.tele k }))
    ∧ (m ≠ 0 → s.atr.ring.isSome = true → exec (.telemetryStream c) s = .next
      (let t : Tele := { block := l, inst := i, offset := o, count := n, period := m, at_ := (entered c s).dc }
       replied specTelemetryStream c s [] [] { entered c s with tele := tset s.tele k t })))
  ∧ (∀ (s : State) (k : Nat) (x : Tele), live s = true → tget s.tele k = some x →
    exec (.telemetryPeriod k) s = .next
      (let u := clockTo (x.at_ + 2000000 * x.period) s
       let v := { u with tele := tset s.tele k { x with at_ := x.at_ + 2000000 * x.period } }
       if mezzRuns s then (List.range x.count).foldl (teleWord k) v else v))
end

