-- ==== Sys2Proof/Laws/State.lean ====
section
/-! SUPPORT. Every field of the state after every update of one component. -/

namespace Sys2Proof.Machine

open Sys2Proof

@[simp] theorem setPort_dc (p : Nat) (f : Port → Port) (s : State) : (setPort p f s).dc = s.dc := rfl
@[simp] theorem setPort_ft (p : Nat) (f : Port → Port) (s : State) : (setPort p f s).ft = s.ft := rfl
@[simp] theorem setPort_boot (p : Nat) (f : Port → Port) (s : State) : (setPort p f s).boot = s.boot := rfl
@[simp] theorem setPort_nv (p : Nat) (f : Port → Port) (s : State) : (setPort p f s).nv = s.nv := rfl
@[simp] theorem setPort_ports (p : Nat) (f : Port → Port) (s : State) : (setPort p f s).ports = tmod s.ports p f := rfl
@[simp] theorem setPort_lanes (p : Nat) (f : Port → Port) (s : State) : (setPort p f s).lanes = s.lanes := rfl
@[simp] theorem setPort_halls (p : Nat) (f : Port → Port) (s : State) : (setPort p f s).halls = s.halls := rfl
@[simp] theorem setPort_cells (p : Nat) (f : Port → Port) (s : State) : (setPort p f s).cells = s.cells := rfl
@[simp] theorem setPort_nextMid (p : Nat) (f : Port → Port) (s : State) : (setPort p f s).nextMid = s.nextMid := rfl
@[simp] theorem setPort_routes (p : Nat) (f : Port → Port) (s : State) : (setPort p f s).routes = s.routes := rfl
@[simp] theorem setPort_groups (p : Nat) (f : Port → Port) (s : State) : (setPort p f s).groups = s.groups := rfl
@[simp] theorem setPort_coreQ (p : Nat) (f : Port → Port) (s : State) : (setPort p f s).coreQ = s.coreQ := rfl
@[simp] theorem setPort_undrained (p : Nat) (f : Port → Port) (s : State) : (setPort p f s).undrained = s.undrained := rfl
@[simp] theorem setPort_mcast (p : Nat) (f : Port → Port) (s : State) : (setPort p f s).mcast = s.mcast := rfl
@[simp] theorem setPort_tree (p : Nat) (f : Port → Port) (s : State) : (setPort p f s).tree = s.tree := rfl
@[simp] theorem setPort_qps (p : Nat) (f : Port → Port) (s : State) : (setPort p f s).qps = s.qps := rfl
@[simp] theorem setPort_places (p : Nat) (f : Port → Port) (s : State) : (setPort p f s).places = s.places := rfl
@[simp] theorem setPort_qcls (p : Nat) (f : Port → Port) (s : State) : (setPort p f s).qcls = s.qcls := rfl
@[simp] theorem setPort_bays (p : Nat) (f : Port → Port) (s : State) : (setPort p f s).bays = s.bays := rfl
@[simp] theorem setPort_sec (p : Nat) (f : Port → Port) (s : State) : (setPort p f s).sec = s.sec := rfl
@[simp] theorem setPort_gn (p : Nat) (f : Port → Port) (s : State) : (setPort p f s).gn = s.gn := rfl
@[simp] theorem setPort_stage (p : Nat) (f : Port → Port) (s : State) : (setPort p f s).stage = s.stage := rfl
@[simp] theorem setPort_atr (p : Nat) (f : Port → Port) (s : State) : (setPort p f s).atr = s.atr := rfl
@[simp] theorem setPort_nw (p : Nat) (f : Port → Port) (s : State) : (setPort p f s).nw = s.nw := rfl
@[simp] theorem setPort_ops (p : Nat) (f : Port → Port) (s : State) : (setPort p f s).ops = s.ops := rfl
@[simp] theorem setPort_tele (p : Nat) (f : Port → Port) (s : State) : (setPort p f s).tele = s.tele := rfl
@[simp] theorem setPort_temps (p : Nat) (f : Port → Port) (s : State) : (setPort p f s).temps = s.temps := rfl
@[simp] theorem setPort_freeN (p : Nat) (f : Port → Port) (s : State) : (setPort p f s).freeN = s.freeN := rfl
@[simp] theorem setPort_out (p : Nat) (f : Port → Port) (s : State) : (setPort p f s).out = s.out := rfl
@[simp] theorem setPort_pending (p : Nat) (f : Port → Port) (s : State) : (setPort p f s).pending = s.pending := rfl
@[simp] theorem setPort_links (p : Nat) (f : Port → Port) (s : State) : (setPort p f s).links = s.links := rfl
@[simp] theorem setPort_bundle (p : Nat) (f : Port → Port) (s : State) : (setPort p f s).bundle = s.bundle := rfl
@[simp] theorem setPort_lastCmd (p : Nat) (f : Port → Port) (s : State) : (setPort p f s).lastCmd = s.lastCmd := rfl
@[simp] theorem setPort_rot (p : Nat) (f : Port → Port) (s : State) : (setPort p f s).rot = s.rot := rfl
@[simp] theorem setPort_hwSet (p : Nat) (f : Port → Port) (s : State) : (setPort p f s).hwSet = s.hwSet := rfl
@[simp] theorem setPort_incNow (p : Nat) (f : Port → Port) (s : State) : (setPort p f s).incNow = s.incNow := rfl

@[simp] theorem setSpan_dc (p : Nat) (f : Span → Span) (s : State) : (setSpan p f s).dc = s.dc := rfl
@[simp] theorem setSpan_ft (p : Nat) (f : Span → Span) (s : State) : (setSpan p f s).ft = s.ft := rfl
@[simp] theorem setSpan_boot (p : Nat) (f : Span → Span) (s : State) : (setSpan p f s).boot = s.boot := rfl
@[simp] theorem setSpan_nv (p : Nat) (f : Span → Span) (s : State) : (setSpan p f s).nv = s.nv := rfl
@[simp] theorem setSpan_ports (p : Nat) (f : Span → Span) (s : State) : (setSpan p f s).ports = tmod s.ports p fun q => { q with span := f q.span } := rfl
@[simp] theorem setSpan_lanes (p : Nat) (f : Span → Span) (s : State) : (setSpan p f s).lanes = s.lanes := rfl
@[simp] theorem setSpan_halls (p : Nat) (f : Span → Span) (s : State) : (setSpan p f s).halls = s.halls := rfl
@[simp] theorem setSpan_cells (p : Nat) (f : Span → Span) (s : State) : (setSpan p f s).cells = s.cells := rfl
@[simp] theorem setSpan_nextMid (p : Nat) (f : Span → Span) (s : State) : (setSpan p f s).nextMid = s.nextMid := rfl
@[simp] theorem setSpan_routes (p : Nat) (f : Span → Span) (s : State) : (setSpan p f s).routes = s.routes := rfl
@[simp] theorem setSpan_groups (p : Nat) (f : Span → Span) (s : State) : (setSpan p f s).groups = s.groups := rfl
@[simp] theorem setSpan_coreQ (p : Nat) (f : Span → Span) (s : State) : (setSpan p f s).coreQ = s.coreQ := rfl
@[simp] theorem setSpan_undrained (p : Nat) (f : Span → Span) (s : State) : (setSpan p f s).undrained = s.undrained := rfl
@[simp] theorem setSpan_mcast (p : Nat) (f : Span → Span) (s : State) : (setSpan p f s).mcast = s.mcast := rfl
@[simp] theorem setSpan_tree (p : Nat) (f : Span → Span) (s : State) : (setSpan p f s).tree = s.tree := rfl
@[simp] theorem setSpan_qps (p : Nat) (f : Span → Span) (s : State) : (setSpan p f s).qps = s.qps := rfl
@[simp] theorem setSpan_places (p : Nat) (f : Span → Span) (s : State) : (setSpan p f s).places = s.places := rfl
@[simp] theorem setSpan_qcls (p : Nat) (f : Span → Span) (s : State) : (setSpan p f s).qcls = s.qcls := rfl
@[simp] theorem setSpan_bays (p : Nat) (f : Span → Span) (s : State) : (setSpan p f s).bays = s.bays := rfl
@[simp] theorem setSpan_sec (p : Nat) (f : Span → Span) (s : State) : (setSpan p f s).sec = s.sec := rfl
@[simp] theorem setSpan_gn (p : Nat) (f : Span → Span) (s : State) : (setSpan p f s).gn = s.gn := rfl
@[simp] theorem setSpan_stage (p : Nat) (f : Span → Span) (s : State) : (setSpan p f s).stage = s.stage := rfl
@[simp] theorem setSpan_atr (p : Nat) (f : Span → Span) (s : State) : (setSpan p f s).atr = s.atr := rfl
@[simp] theorem setSpan_nw (p : Nat) (f : Span → Span) (s : State) : (setSpan p f s).nw = s.nw := rfl
@[simp] theorem setSpan_ops (p : Nat) (f : Span → Span) (s : State) : (setSpan p f s).ops = s.ops := rfl
@[simp] theorem setSpan_tele (p : Nat) (f : Span → Span) (s : State) : (setSpan p f s).tele = s.tele := rfl
@[simp] theorem setSpan_temps (p : Nat) (f : Span → Span) (s : State) : (setSpan p f s).temps = s.temps := rfl
@[simp] theorem setSpan_freeN (p : Nat) (f : Span → Span) (s : State) : (setSpan p f s).freeN = s.freeN := rfl
@[simp] theorem setSpan_out (p : Nat) (f : Span → Span) (s : State) : (setSpan p f s).out = s.out := rfl
@[simp] theorem setSpan_pending (p : Nat) (f : Span → Span) (s : State) : (setSpan p f s).pending = s.pending := rfl
@[simp] theorem setSpan_links (p : Nat) (f : Span → Span) (s : State) : (setSpan p f s).links = s.links := rfl
@[simp] theorem setSpan_bundle (p : Nat) (f : Span → Span) (s : State) : (setSpan p f s).bundle = s.bundle := rfl
@[simp] theorem setSpan_lastCmd (p : Nat) (f : Span → Span) (s : State) : (setSpan p f s).lastCmd = s.lastCmd := rfl
@[simp] theorem setSpan_rot (p : Nat) (f : Span → Span) (s : State) : (setSpan p f s).rot = s.rot := rfl
@[simp] theorem setSpan_hwSet (p : Nat) (f : Span → Span) (s : State) : (setSpan p f s).hwSet = s.hwSet := rfl
@[simp] theorem setSpan_incNow (p : Nat) (f : Span → Span) (s : State) : (setSpan p f s).incNow = s.incNow := rfl

@[simp] theorem setScfg_dc (p : Nat) (f : SpanCfg → SpanCfg) (s : State) : (setScfg p f s).dc = s.dc := rfl
@[simp] theorem setScfg_ft (p : Nat) (f : SpanCfg → SpanCfg) (s : State) : (setScfg p f s).ft = s.ft := rfl
@[simp] theorem setScfg_boot (p : Nat) (f : SpanCfg → SpanCfg) (s : State) : (setScfg p f s).boot = s.boot := rfl
@[simp] theorem setScfg_nv (p : Nat) (f : SpanCfg → SpanCfg) (s : State) : (setScfg p f s).nv = s.nv := rfl
@[simp] theorem setScfg_ports (p : Nat) (f : SpanCfg → SpanCfg) (s : State) : (setScfg p f s).ports = tmod s.ports p fun q => { q with scfg := f q.scfg } := rfl
@[simp] theorem setScfg_lanes (p : Nat) (f : SpanCfg → SpanCfg) (s : State) : (setScfg p f s).lanes = s.lanes := rfl
@[simp] theorem setScfg_halls (p : Nat) (f : SpanCfg → SpanCfg) (s : State) : (setScfg p f s).halls = s.halls := rfl
@[simp] theorem setScfg_cells (p : Nat) (f : SpanCfg → SpanCfg) (s : State) : (setScfg p f s).cells = s.cells := rfl
@[simp] theorem setScfg_nextMid (p : Nat) (f : SpanCfg → SpanCfg) (s : State) : (setScfg p f s).nextMid = s.nextMid := rfl
@[simp] theorem setScfg_routes (p : Nat) (f : SpanCfg → SpanCfg) (s : State) : (setScfg p f s).routes = s.routes := rfl
@[simp] theorem setScfg_groups (p : Nat) (f : SpanCfg → SpanCfg) (s : State) : (setScfg p f s).groups = s.groups := rfl
@[simp] theorem setScfg_coreQ (p : Nat) (f : SpanCfg → SpanCfg) (s : State) : (setScfg p f s).coreQ = s.coreQ := rfl
@[simp] theorem setScfg_undrained (p : Nat) (f : SpanCfg → SpanCfg) (s : State) : (setScfg p f s).undrained = s.undrained := rfl
@[simp] theorem setScfg_mcast (p : Nat) (f : SpanCfg → SpanCfg) (s : State) : (setScfg p f s).mcast = s.mcast := rfl
@[simp] theorem setScfg_tree (p : Nat) (f : SpanCfg → SpanCfg) (s : State) : (setScfg p f s).tree = s.tree := rfl
@[simp] theorem setScfg_qps (p : Nat) (f : SpanCfg → SpanCfg) (s : State) : (setScfg p f s).qps = s.qps := rfl
@[simp] theorem setScfg_places (p : Nat) (f : SpanCfg → SpanCfg) (s : State) : (setScfg p f s).places = s.places := rfl
@[simp] theorem setScfg_qcls (p : Nat) (f : SpanCfg → SpanCfg) (s : State) : (setScfg p f s).qcls = s.qcls := rfl
@[simp] theorem setScfg_bays (p : Nat) (f : SpanCfg → SpanCfg) (s : State) : (setScfg p f s).bays = s.bays := rfl
@[simp] theorem setScfg_sec (p : Nat) (f : SpanCfg → SpanCfg) (s : State) : (setScfg p f s).sec = s.sec := rfl
@[simp] theorem setScfg_gn (p : Nat) (f : SpanCfg → SpanCfg) (s : State) : (setScfg p f s).gn = s.gn := rfl
@[simp] theorem setScfg_stage (p : Nat) (f : SpanCfg → SpanCfg) (s : State) : (setScfg p f s).stage = s.stage := rfl
@[simp] theorem setScfg_atr (p : Nat) (f : SpanCfg → SpanCfg) (s : State) : (setScfg p f s).atr = s.atr := rfl
@[simp] theorem setScfg_nw (p : Nat) (f : SpanCfg → SpanCfg) (s : State) : (setScfg p f s).nw = s.nw := rfl
@[simp] theorem setScfg_ops (p : Nat) (f : SpanCfg → SpanCfg) (s : State) : (setScfg p f s).ops = s.ops := rfl
@[simp] theorem setScfg_tele (p : Nat) (f : SpanCfg → SpanCfg) (s : State) : (setScfg p f s).tele = s.tele := rfl
@[simp] theorem setScfg_temps (p : Nat) (f : SpanCfg → SpanCfg) (s : State) : (setScfg p f s).temps = s.temps := rfl
@[simp] theorem setScfg_freeN (p : Nat) (f : SpanCfg → SpanCfg) (s : State) : (setScfg p f s).freeN = s.freeN := rfl
@[simp] theorem setScfg_out (p : Nat) (f : SpanCfg → SpanCfg) (s : State) : (setScfg p f s).out = s.out := rfl
@[simp] theorem setScfg_pending (p : Nat) (f : SpanCfg → SpanCfg) (s : State) : (setScfg p f s).pending = s.pending := rfl
@[simp] theorem setScfg_links (p : Nat) (f : SpanCfg → SpanCfg) (s : State) : (setScfg p f s).links = s.links := rfl
@[simp] theorem setScfg_bundle (p : Nat) (f : SpanCfg → SpanCfg) (s : State) : (setScfg p f s).bundle = s.bundle := rfl
@[simp] theorem setScfg_lastCmd (p : Nat) (f : SpanCfg → SpanCfg) (s : State) : (setScfg p f s).lastCmd = s.lastCmd := rfl
@[simp] theorem setScfg_rot (p : Nat) (f : SpanCfg → SpanCfg) (s : State) : (setScfg p f s).rot = s.rot := rfl
@[simp] theorem setScfg_hwSet (p : Nat) (f : SpanCfg → SpanCfg) (s : State) : (setScfg p f s).hwSet = s.hwSet := rfl
@[simp] theorem setScfg_incNow (p : Nat) (f : SpanCfg → SpanCfg) (s : State) : (setScfg p f s).incNow = s.incNow := rfl

@[simp] theorem setStd_dc (p : Nat) (f : Std → Std) (s : State) : (setStd p f s).dc = s.dc := rfl
@[simp] theorem setStd_ft (p : Nat) (f : Std → Std) (s : State) : (setStd p f s).ft = s.ft := rfl
@[simp] theorem setStd_boot (p : Nat) (f : Std → Std) (s : State) : (setStd p f s).boot = s.boot := rfl
@[simp] theorem setStd_nv (p : Nat) (f : Std → Std) (s : State) : (setStd p f s).nv = s.nv := rfl
@[simp] theorem setStd_ports (p : Nat) (f : Std → Std) (s : State) : (setStd p f s).ports = tmod s.ports p fun q => { q with std := f q.std } := rfl
@[simp] theorem setStd_lanes (p : Nat) (f : Std → Std) (s : State) : (setStd p f s).lanes = s.lanes := rfl
@[simp] theorem setStd_halls (p : Nat) (f : Std → Std) (s : State) : (setStd p f s).halls = s.halls := rfl
@[simp] theorem setStd_cells (p : Nat) (f : Std → Std) (s : State) : (setStd p f s).cells = s.cells := rfl
@[simp] theorem setStd_nextMid (p : Nat) (f : Std → Std) (s : State) : (setStd p f s).nextMid = s.nextMid := rfl
@[simp] theorem setStd_routes (p : Nat) (f : Std → Std) (s : State) : (setStd p f s).routes = s.routes := rfl
@[simp] theorem setStd_groups (p : Nat) (f : Std → Std) (s : State) : (setStd p f s).groups = s.groups := rfl
@[simp] theorem setStd_coreQ (p : Nat) (f : Std → Std) (s : State) : (setStd p f s).coreQ = s.coreQ := rfl
@[simp] theorem setStd_undrained (p : Nat) (f : Std → Std) (s : State) : (setStd p f s).undrained = s.undrained := rfl
@[simp] theorem setStd_mcast (p : Nat) (f : Std → Std) (s : State) : (setStd p f s).mcast = s.mcast := rfl
@[simp] theorem setStd_tree (p : Nat) (f : Std → Std) (s : State) : (setStd p f s).tree = s.tree := rfl
@[simp] theorem setStd_qps (p : Nat) (f : Std → Std) (s : State) : (setStd p f s).qps = s.qps := rfl
@[simp] theorem setStd_places (p : Nat) (f : Std → Std) (s : State) : (setStd p f s).places = s.places := rfl
@[simp] theorem setStd_qcls (p : Nat) (f : Std → Std) (s : State) : (setStd p f s).qcls = s.qcls := rfl
@[simp] theorem setStd_bays (p : Nat) (f : Std → Std) (s : State) : (setStd p f s).bays = s.bays := rfl
@[simp] theorem setStd_sec (p : Nat) (f : Std → Std) (s : State) : (setStd p f s).sec = s.sec := rfl
@[simp] theorem setStd_gn (p : Nat) (f : Std → Std) (s : State) : (setStd p f s).gn = s.gn := rfl
@[simp] theorem setStd_stage (p : Nat) (f : Std → Std) (s : State) : (setStd p f s).stage = s.stage := rfl
@[simp] theorem setStd_atr (p : Nat) (f : Std → Std) (s : State) : (setStd p f s).atr = s.atr := rfl
@[simp] theorem setStd_nw (p : Nat) (f : Std → Std) (s : State) : (setStd p f s).nw = s.nw := rfl
@[simp] theorem setStd_ops (p : Nat) (f : Std → Std) (s : State) : (setStd p f s).ops = s.ops := rfl
@[simp] theorem setStd_tele (p : Nat) (f : Std → Std) (s : State) : (setStd p f s).tele = s.tele := rfl
@[simp] theorem setStd_temps (p : Nat) (f : Std → Std) (s : State) : (setStd p f s).temps = s.temps := rfl
@[simp] theorem setStd_freeN (p : Nat) (f : Std → Std) (s : State) : (setStd p f s).freeN = s.freeN := rfl
@[simp] theorem setStd_out (p : Nat) (f : Std → Std) (s : State) : (setStd p f s).out = s.out := rfl
@[simp] theorem setStd_pending (p : Nat) (f : Std → Std) (s : State) : (setStd p f s).pending = s.pending := rfl
@[simp] theorem setStd_links (p : Nat) (f : Std → Std) (s : State) : (setStd p f s).links = s.links := rfl
@[simp] theorem setStd_bundle (p : Nat) (f : Std → Std) (s : State) : (setStd p f s).bundle = s.bundle := rfl
@[simp] theorem setStd_lastCmd (p : Nat) (f : Std → Std) (s : State) : (setStd p f s).lastCmd = s.lastCmd := rfl
@[simp] theorem setStd_rot (p : Nat) (f : Std → Std) (s : State) : (setStd p f s).rot = s.rot := rfl
@[simp] theorem setStd_hwSet (p : Nat) (f : Std → Std) (s : State) : (setStd p f s).hwSet = s.hwSet := rfl
@[simp] theorem setStd_incNow (p : Nat) (f : Std → Std) (s : State) : (setStd p f s).incNow = s.incNow := rfl

@[simp] theorem setSched_dc (p : Nat) (f : Sched → Sched) (s : State) : (setSched p f s).dc = s.dc := rfl
@[simp] theorem setSched_ft (p : Nat) (f : Sched → Sched) (s : State) : (setSched p f s).ft = s.ft := rfl
@[simp] theorem setSched_boot (p : Nat) (f : Sched → Sched) (s : State) : (setSched p f s).boot = s.boot := rfl
@[simp] theorem setSched_nv (p : Nat) (f : Sched → Sched) (s : State) : (setSched p f s).nv = s.nv := rfl
@[simp] theorem setSched_ports (p : Nat) (f : Sched → Sched) (s : State) : (setSched p f s).ports = tmod s.ports p fun q => { q with sched := f q.sched } := rfl
@[simp] theorem setSched_lanes (p : Nat) (f : Sched → Sched) (s : State) : (setSched p f s).lanes = s.lanes := rfl
@[simp] theorem setSched_halls (p : Nat) (f : Sched → Sched) (s : State) : (setSched p f s).halls = s.halls := rfl
@[simp] theorem setSched_cells (p : Nat) (f : Sched → Sched) (s : State) : (setSched p f s).cells = s.cells := rfl
@[simp] theorem setSched_nextMid (p : Nat) (f : Sched → Sched) (s : State) : (setSched p f s).nextMid = s.nextMid := rfl
@[simp] theorem setSched_routes (p : Nat) (f : Sched → Sched) (s : State) : (setSched p f s).routes = s.routes := rfl
@[simp] theorem setSched_groups (p : Nat) (f : Sched → Sched) (s : State) : (setSched p f s).groups = s.groups := rfl
@[simp] theorem setSched_coreQ (p : Nat) (f : Sched → Sched) (s : State) : (setSched p f s).coreQ = s.coreQ := rfl
@[simp] theorem setSched_undrained (p : Nat) (f : Sched → Sched) (s : State) : (setSched p f s).undrained = s.undrained := rfl
@[simp] theorem setSched_mcast (p : Nat) (f : Sched → Sched) (s : State) : (setSched p f s).mcast = s.mcast := rfl
@[simp] theorem setSched_tree (p : Nat) (f : Sched → Sched) (s : State) : (setSched p f s).tree = s.tree := rfl
@[simp] theorem setSched_qps (p : Nat) (f : Sched → Sched) (s : State) : (setSched p f s).qps = s.qps := rfl
@[simp] theorem setSched_places (p : Nat) (f : Sched → Sched) (s : State) : (setSched p f s).places = s.places := rfl
@[simp] theorem setSched_qcls (p : Nat) (f : Sched → Sched) (s : State) : (setSched p f s).qcls = s.qcls := rfl
@[simp] theorem setSched_bays (p : Nat) (f : Sched → Sched) (s : State) : (setSched p f s).bays = s.bays := rfl
@[simp] theorem setSched_sec (p : Nat) (f : Sched → Sched) (s : State) : (setSched p f s).sec = s.sec := rfl
@[simp] theorem setSched_gn (p : Nat) (f : Sched → Sched) (s : State) : (setSched p f s).gn = s.gn := rfl
@[simp] theorem setSched_stage (p : Nat) (f : Sched → Sched) (s : State) : (setSched p f s).stage = s.stage := rfl
@[simp] theorem setSched_atr (p : Nat) (f : Sched → Sched) (s : State) : (setSched p f s).atr = s.atr := rfl
@[simp] theorem setSched_nw (p : Nat) (f : Sched → Sched) (s : State) : (setSched p f s).nw = s.nw := rfl
@[simp] theorem setSched_ops (p : Nat) (f : Sched → Sched) (s : State) : (setSched p f s).ops = s.ops := rfl
@[simp] theorem setSched_tele (p : Nat) (f : Sched → Sched) (s : State) : (setSched p f s).tele = s.tele := rfl
@[simp] theorem setSched_temps (p : Nat) (f : Sched → Sched) (s : State) : (setSched p f s).temps = s.temps := rfl
@[simp] theorem setSched_freeN (p : Nat) (f : Sched → Sched) (s : State) : (setSched p f s).freeN = s.freeN := rfl
@[simp] theorem setSched_out (p : Nat) (f : Sched → Sched) (s : State) : (setSched p f s).out = s.out := rfl
@[simp] theorem setSched_pending (p : Nat) (f : Sched → Sched) (s : State) : (setSched p f s).pending = s.pending := rfl
@[simp] theorem setSched_links (p : Nat) (f : Sched → Sched) (s : State) : (setSched p f s).links = s.links := rfl
@[simp] theorem setSched_bundle (p : Nat) (f : Sched → Sched) (s : State) : (setSched p f s).bundle = s.bundle := rfl
@[simp] theorem setSched_lastCmd (p : Nat) (f : Sched → Sched) (s : State) : (setSched p f s).lastCmd = s.lastCmd := rfl
@[simp] theorem setSched_rot (p : Nat) (f : Sched → Sched) (s : State) : (setSched p f s).rot = s.rot := rfl
@[simp] theorem setSched_hwSet (p : Nat) (f : Sched → Sched) (s : State) : (setSched p f s).hwSet = s.hwSet := rfl
@[simp] theorem setSched_incNow (p : Nat) (f : Sched → Sched) (s : State) : (setSched p f s).incNow = s.incNow := rfl

@[simp] theorem setLane_dc (l : Nat) (f : Lane → Lane) (s : State) : (setLane l f s).dc = s.dc := rfl
@[simp] theorem setLane_ft (l : Nat) (f : Lane → Lane) (s : State) : (setLane l f s).ft = s.ft := rfl
@[simp] theorem setLane_boot (l : Nat) (f : Lane → Lane) (s : State) : (setLane l f s).boot = s.boot := rfl
@[simp] theorem setLane_nv (l : Nat) (f : Lane → Lane) (s : State) : (setLane l f s).nv = s.nv := rfl
@[simp] theorem setLane_ports (l : Nat) (f : Lane → Lane) (s : State) : (setLane l f s).ports = s.ports := rfl
@[simp] theorem setLane_lanes (l : Nat) (f : Lane → Lane) (s : State) : (setLane l f s).lanes = tset s.lanes l (f (getLane s l)) := rfl
@[simp] theorem setLane_halls (l : Nat) (f : Lane → Lane) (s : State) : (setLane l f s).halls = s.halls := rfl
@[simp] theorem setLane_cells (l : Nat) (f : Lane → Lane) (s : State) : (setLane l f s).cells = s.cells := rfl
@[simp] theorem setLane_nextMid (l : Nat) (f : Lane → Lane) (s : State) : (setLane l f s).nextMid = s.nextMid := rfl
@[simp] theorem setLane_routes (l : Nat) (f : Lane → Lane) (s : State) : (setLane l f s).routes = s.routes := rfl
@[simp] theorem setLane_groups (l : Nat) (f : Lane → Lane) (s : State) : (setLane l f s).groups = s.groups := rfl
@[simp] theorem setLane_coreQ (l : Nat) (f : Lane → Lane) (s : State) : (setLane l f s).coreQ = s.coreQ := rfl
@[simp] theorem setLane_undrained (l : Nat) (f : Lane → Lane) (s : State) : (setLane l f s).undrained = s.undrained := rfl
@[simp] theorem setLane_mcast (l : Nat) (f : Lane → Lane) (s : State) : (setLane l f s).mcast = s.mcast := rfl
@[simp] theorem setLane_tree (l : Nat) (f : Lane → Lane) (s : State) : (setLane l f s).tree = s.tree := rfl
@[simp] theorem setLane_qps (l : Nat) (f : Lane → Lane) (s : State) : (setLane l f s).qps = s.qps := rfl
@[simp] theorem setLane_places (l : Nat) (f : Lane → Lane) (s : State) : (setLane l f s).places = s.places := rfl
@[simp] theorem setLane_qcls (l : Nat) (f : Lane → Lane) (s : State) : (setLane l f s).qcls = s.qcls := rfl
@[simp] theorem setLane_bays (l : Nat) (f : Lane → Lane) (s : State) : (setLane l f s).bays = s.bays := rfl
@[simp] theorem setLane_sec (l : Nat) (f : Lane → Lane) (s : State) : (setLane l f s).sec = s.sec := rfl
@[simp] theorem setLane_gn (l : Nat) (f : Lane → Lane) (s : State) : (setLane l f s).gn = s.gn := rfl
@[simp] theorem setLane_stage (l : Nat) (f : Lane → Lane) (s : State) : (setLane l f s).stage = s.stage := rfl
@[simp] theorem setLane_atr (l : Nat) (f : Lane → Lane) (s : State) : (setLane l f s).atr = s.atr := rfl
@[simp] theorem setLane_nw (l : Nat) (f : Lane → Lane) (s : State) : (setLane l f s).nw = s.nw := rfl
@[simp] theorem setLane_ops (l : Nat) (f : Lane → Lane) (s : State) : (setLane l f s).ops = s.ops := rfl
@[simp] theorem setLane_tele (l : Nat) (f : Lane → Lane) (s : State) : (setLane l f s).tele = s.tele := rfl
@[simp] theorem setLane_temps (l : Nat) (f : Lane → Lane) (s : State) : (setLane l f s).temps = s.temps := rfl
@[simp] theorem setLane_freeN (l : Nat) (f : Lane → Lane) (s : State) : (setLane l f s).freeN = s.freeN := rfl
@[simp] theorem setLane_out (l : Nat) (f : Lane → Lane) (s : State) : (setLane l f s).out = s.out := rfl
@[simp] theorem setLane_pending (l : Nat) (f : Lane → Lane) (s : State) : (setLane l f s).pending = s.pending := rfl
@[simp] theorem setLane_links (l : Nat) (f : Lane → Lane) (s : State) : (setLane l f s).links = s.links := rfl
@[simp] theorem setLane_bundle (l : Nat) (f : Lane → Lane) (s : State) : (setLane l f s).bundle = s.bundle := rfl
@[simp] theorem setLane_lastCmd (l : Nat) (f : Lane → Lane) (s : State) : (setLane l f s).lastCmd = s.lastCmd := rfl
@[simp] theorem setLane_rot (l : Nat) (f : Lane → Lane) (s : State) : (setLane l f s).rot = s.rot := rfl
@[simp] theorem setLane_hwSet (l : Nat) (f : Lane → Lane) (s : State) : (setLane l f s).hwSet = s.hwSet := rfl
@[simp] theorem setLane_incNow (l : Nat) (f : Lane → Lane) (s : State) : (setLane l f s).incNow = s.incNow := rfl

@[simp] theorem setHall_dc (h : Nat) (f : Hall → Hall) (s : State) : (setHall h f s).dc = s.dc := rfl
@[simp] theorem setHall_ft (h : Nat) (f : Hall → Hall) (s : State) : (setHall h f s).ft = s.ft := rfl
@[simp] theorem setHall_boot (h : Nat) (f : Hall → Hall) (s : State) : (setHall h f s).boot = s.boot := rfl
@[simp] theorem setHall_nv (h : Nat) (f : Hall → Hall) (s : State) : (setHall h f s).nv = s.nv := rfl
@[simp] theorem setHall_ports (h : Nat) (f : Hall → Hall) (s : State) : (setHall h f s).ports = s.ports := rfl
@[simp] theorem setHall_lanes (h : Nat) (f : Hall → Hall) (s : State) : (setHall h f s).lanes = s.lanes := rfl
@[simp] theorem setHall_halls (h : Nat) (f : Hall → Hall) (s : State) : (setHall h f s).halls = tset s.halls h (f (getHall s h)) := rfl
@[simp] theorem setHall_cells (h : Nat) (f : Hall → Hall) (s : State) : (setHall h f s).cells = s.cells := rfl
@[simp] theorem setHall_nextMid (h : Nat) (f : Hall → Hall) (s : State) : (setHall h f s).nextMid = s.nextMid := rfl
@[simp] theorem setHall_routes (h : Nat) (f : Hall → Hall) (s : State) : (setHall h f s).routes = s.routes := rfl
@[simp] theorem setHall_groups (h : Nat) (f : Hall → Hall) (s : State) : (setHall h f s).groups = s.groups := rfl
@[simp] theorem setHall_coreQ (h : Nat) (f : Hall → Hall) (s : State) : (setHall h f s).coreQ = s.coreQ := rfl
@[simp] theorem setHall_undrained (h : Nat) (f : Hall → Hall) (s : State) : (setHall h f s).undrained = s.undrained := rfl
@[simp] theorem setHall_mcast (h : Nat) (f : Hall → Hall) (s : State) : (setHall h f s).mcast = s.mcast := rfl
@[simp] theorem setHall_tree (h : Nat) (f : Hall → Hall) (s : State) : (setHall h f s).tree = s.tree := rfl
@[simp] theorem setHall_qps (h : Nat) (f : Hall → Hall) (s : State) : (setHall h f s).qps = s.qps := rfl
@[simp] theorem setHall_places (h : Nat) (f : Hall → Hall) (s : State) : (setHall h f s).places = s.places := rfl
@[simp] theorem setHall_qcls (h : Nat) (f : Hall → Hall) (s : State) : (setHall h f s).qcls = s.qcls := rfl
@[simp] theorem setHall_bays (h : Nat) (f : Hall → Hall) (s : State) : (setHall h f s).bays = s.bays := rfl
@[simp] theorem setHall_sec (h : Nat) (f : Hall → Hall) (s : State) : (setHall h f s).sec = s.sec := rfl
@[simp] theorem setHall_gn (h : Nat) (f : Hall → Hall) (s : State) : (setHall h f s).gn = s.gn := rfl
@[simp] theorem setHall_stage (h : Nat) (f : Hall → Hall) (s : State) : (setHall h f s).stage = s.stage := rfl
@[simp] theorem setHall_atr (h : Nat) (f : Hall → Hall) (s : State) : (setHall h f s).atr = s.atr := rfl
@[simp] theorem setHall_nw (h : Nat) (f : Hall → Hall) (s : State) : (setHall h f s).nw = s.nw := rfl
@[simp] theorem setHall_ops (h : Nat) (f : Hall → Hall) (s : State) : (setHall h f s).ops = s.ops := rfl
@[simp] theorem setHall_tele (h : Nat) (f : Hall → Hall) (s : State) : (setHall h f s).tele = s.tele := rfl
@[simp] theorem setHall_temps (h : Nat) (f : Hall → Hall) (s : State) : (setHall h f s).temps = s.temps := rfl
@[simp] theorem setHall_freeN (h : Nat) (f : Hall → Hall) (s : State) : (setHall h f s).freeN = s.freeN := rfl
@[simp] theorem setHall_out (h : Nat) (f : Hall → Hall) (s : State) : (setHall h f s).out = s.out := rfl
@[simp] theorem setHall_pending (h : Nat) (f : Hall → Hall) (s : State) : (setHall h f s).pending = s.pending := rfl
@[simp] theorem setHall_links (h : Nat) (f : Hall → Hall) (s : State) : (setHall h f s).links = s.links := rfl
@[simp] theorem setHall_bundle (h : Nat) (f : Hall → Hall) (s : State) : (setHall h f s).bundle = s.bundle := rfl
@[simp] theorem setHall_lastCmd (h : Nat) (f : Hall → Hall) (s : State) : (setHall h f s).lastCmd = s.lastCmd := rfl
@[simp] theorem setHall_rot (h : Nat) (f : Hall → Hall) (s : State) : (setHall h f s).rot = s.rot := rfl
@[simp] theorem setHall_hwSet (h : Nat) (f : Hall → Hall) (s : State) : (setHall h f s).hwSet = s.hwSet := rfl
@[simp] theorem setHall_incNow (h : Nat) (f : Hall → Hall) (s : State) : (setHall h f s).incNow = s.incNow := rfl

@[simp] theorem setBay_dc (b : Nat) (f : Bay → Bay) (s : State) : (setBay b f s).dc = s.dc := rfl
@[simp] theorem setBay_ft (b : Nat) (f : Bay → Bay) (s : State) : (setBay b f s).ft = s.ft := rfl
@[simp] theorem setBay_boot (b : Nat) (f : Bay → Bay) (s : State) : (setBay b f s).boot = s.boot := rfl
@[simp] theorem setBay_nv (b : Nat) (f : Bay → Bay) (s : State) : (setBay b f s).nv = s.nv := rfl
@[simp] theorem setBay_ports (b : Nat) (f : Bay → Bay) (s : State) : (setBay b f s).ports = s.ports := rfl
@[simp] theorem setBay_lanes (b : Nat) (f : Bay → Bay) (s : State) : (setBay b f s).lanes = s.lanes := rfl
@[simp] theorem setBay_halls (b : Nat) (f : Bay → Bay) (s : State) : (setBay b f s).halls = s.halls := rfl
@[simp] theorem setBay_cells (b : Nat) (f : Bay → Bay) (s : State) : (setBay b f s).cells = s.cells := rfl
@[simp] theorem setBay_nextMid (b : Nat) (f : Bay → Bay) (s : State) : (setBay b f s).nextMid = s.nextMid := rfl
@[simp] theorem setBay_routes (b : Nat) (f : Bay → Bay) (s : State) : (setBay b f s).routes = s.routes := rfl
@[simp] theorem setBay_groups (b : Nat) (f : Bay → Bay) (s : State) : (setBay b f s).groups = s.groups := rfl
@[simp] theorem setBay_coreQ (b : Nat) (f : Bay → Bay) (s : State) : (setBay b f s).coreQ = s.coreQ := rfl
@[simp] theorem setBay_undrained (b : Nat) (f : Bay → Bay) (s : State) : (setBay b f s).undrained = s.undrained := rfl
@[simp] theorem setBay_mcast (b : Nat) (f : Bay → Bay) (s : State) : (setBay b f s).mcast = s.mcast := rfl
@[simp] theorem setBay_tree (b : Nat) (f : Bay → Bay) (s : State) : (setBay b f s).tree = s.tree := rfl
@[simp] theorem setBay_qps (b : Nat) (f : Bay → Bay) (s : State) : (setBay b f s).qps = s.qps := rfl
@[simp] theorem setBay_places (b : Nat) (f : Bay → Bay) (s : State) : (setBay b f s).places = s.places := rfl
@[simp] theorem setBay_qcls (b : Nat) (f : Bay → Bay) (s : State) : (setBay b f s).qcls = s.qcls := rfl
@[simp] theorem setBay_bays (b : Nat) (f : Bay → Bay) (s : State) : (setBay b f s).bays = tmod s.bays b f := rfl
@[simp] theorem setBay_sec (b : Nat) (f : Bay → Bay) (s : State) : (setBay b f s).sec = s.sec := rfl
@[simp] theorem setBay_gn (b : Nat) (f : Bay → Bay) (s : State) : (setBay b f s).gn = s.gn := rfl
@[simp] theorem setBay_stage (b : Nat) (f : Bay → Bay) (s : State) : (setBay b f s).stage = s.stage := rfl
@[simp] theorem setBay_atr (b : Nat) (f : Bay → Bay) (s : State) : (setBay b f s).atr = s.atr := rfl
@[simp] theorem setBay_nw (b : Nat) (f : Bay → Bay) (s : State) : (setBay b f s).nw = s.nw := rfl
@[simp] theorem setBay_ops (b : Nat) (f : Bay → Bay) (s : State) : (setBay b f s).ops = s.ops := rfl
@[simp] theorem setBay_tele (b : Nat) (f : Bay → Bay) (s : State) : (setBay b f s).tele = s.tele := rfl
@[simp] theorem setBay_temps (b : Nat) (f : Bay → Bay) (s : State) : (setBay b f s).temps = s.temps := rfl
@[simp] theorem setBay_freeN (b : Nat) (f : Bay → Bay) (s : State) : (setBay b f s).freeN = s.freeN := rfl
@[simp] theorem setBay_out (b : Nat) (f : Bay → Bay) (s : State) : (setBay b f s).out = s.out := rfl
@[simp] theorem setBay_pending (b : Nat) (f : Bay → Bay) (s : State) : (setBay b f s).pending = s.pending := rfl
@[simp] theorem setBay_links (b : Nat) (f : Bay → Bay) (s : State) : (setBay b f s).links = s.links := rfl
@[simp] theorem setBay_bundle (b : Nat) (f : Bay → Bay) (s : State) : (setBay b f s).bundle = s.bundle := rfl
@[simp] theorem setBay_lastCmd (b : Nat) (f : Bay → Bay) (s : State) : (setBay b f s).lastCmd = s.lastCmd := rfl
@[simp] theorem setBay_rot (b : Nat) (f : Bay → Bay) (s : State) : (setBay b f s).rot = s.rot := rfl
@[simp] theorem setBay_hwSet (b : Nat) (f : Bay → Bay) (s : State) : (setBay b f s).hwSet = s.hwSet := rfl
@[simp] theorem setBay_incNow (b : Nat) (f : Bay → Bay) (s : State) : (setBay b f s).incNow = s.incNow := rfl

@[simp] theorem setQp_dc (n : Nat) (f : Qp → Qp) (s : State) : (setQp n f s).dc = s.dc := rfl
@[simp] theorem setQp_ft (n : Nat) (f : Qp → Qp) (s : State) : (setQp n f s).ft = s.ft := rfl
@[simp] theorem setQp_boot (n : Nat) (f : Qp → Qp) (s : State) : (setQp n f s).boot = s.boot := rfl
@[simp] theorem setQp_nv (n : Nat) (f : Qp → Qp) (s : State) : (setQp n f s).nv = s.nv := rfl
@[simp] theorem setQp_ports (n : Nat) (f : Qp → Qp) (s : State) : (setQp n f s).ports = s.ports := rfl
@[simp] theorem setQp_lanes (n : Nat) (f : Qp → Qp) (s : State) : (setQp n f s).lanes = s.lanes := rfl
@[simp] theorem setQp_halls (n : Nat) (f : Qp → Qp) (s : State) : (setQp n f s).halls = s.halls := rfl
@[simp] theorem setQp_cells (n : Nat) (f : Qp → Qp) (s : State) : (setQp n f s).cells = s.cells := rfl
@[simp] theorem setQp_nextMid (n : Nat) (f : Qp → Qp) (s : State) : (setQp n f s).nextMid = s.nextMid := rfl
@[simp] theorem setQp_routes (n : Nat) (f : Qp → Qp) (s : State) : (setQp n f s).routes = s.routes := rfl
@[simp] theorem setQp_groups (n : Nat) (f : Qp → Qp) (s : State) : (setQp n f s).groups = s.groups := rfl
@[simp] theorem setQp_coreQ (n : Nat) (f : Qp → Qp) (s : State) : (setQp n f s).coreQ = s.coreQ := rfl
@[simp] theorem setQp_undrained (n : Nat) (f : Qp → Qp) (s : State) : (setQp n f s).undrained = s.undrained := rfl
@[simp] theorem setQp_mcast (n : Nat) (f : Qp → Qp) (s : State) : (setQp n f s).mcast = s.mcast := rfl
@[simp] theorem setQp_tree (n : Nat) (f : Qp → Qp) (s : State) : (setQp n f s).tree = s.tree := rfl
@[simp] theorem setQp_qps (n : Nat) (f : Qp → Qp) (s : State) : (setQp n f s).qps = tmod s.qps n f := rfl
@[simp] theorem setQp_places (n : Nat) (f : Qp → Qp) (s : State) : (setQp n f s).places = s.places := rfl
@[simp] theorem setQp_qcls (n : Nat) (f : Qp → Qp) (s : State) : (setQp n f s).qcls = s.qcls := rfl
@[simp] theorem setQp_bays (n : Nat) (f : Qp → Qp) (s : State) : (setQp n f s).bays = s.bays := rfl
@[simp] theorem setQp_sec (n : Nat) (f : Qp → Qp) (s : State) : (setQp n f s).sec = s.sec := rfl
@[simp] theorem setQp_gn (n : Nat) (f : Qp → Qp) (s : State) : (setQp n f s).gn = s.gn := rfl
@[simp] theorem setQp_stage (n : Nat) (f : Qp → Qp) (s : State) : (setQp n f s).stage = s.stage := rfl
@[simp] theorem setQp_atr (n : Nat) (f : Qp → Qp) (s : State) : (setQp n f s).atr = s.atr := rfl
@[simp] theorem setQp_nw (n : Nat) (f : Qp → Qp) (s : State) : (setQp n f s).nw = s.nw := rfl
@[simp] theorem setQp_ops (n : Nat) (f : Qp → Qp) (s : State) : (setQp n f s).ops = s.ops := rfl
@[simp] theorem setQp_tele (n : Nat) (f : Qp → Qp) (s : State) : (setQp n f s).tele = s.tele := rfl
@[simp] theorem setQp_temps (n : Nat) (f : Qp → Qp) (s : State) : (setQp n f s).temps = s.temps := rfl
@[simp] theorem setQp_freeN (n : Nat) (f : Qp → Qp) (s : State) : (setQp n f s).freeN = s.freeN := rfl
@[simp] theorem setQp_out (n : Nat) (f : Qp → Qp) (s : State) : (setQp n f s).out = s.out := rfl
@[simp] theorem setQp_pending (n : Nat) (f : Qp → Qp) (s : State) : (setQp n f s).pending = s.pending := rfl
@[simp] theorem setQp_links (n : Nat) (f : Qp → Qp) (s : State) : (setQp n f s).links = s.links := rfl
@[simp] theorem setQp_bundle (n : Nat) (f : Qp → Qp) (s : State) : (setQp n f s).bundle = s.bundle := rfl
@[simp] theorem setQp_lastCmd (n : Nat) (f : Qp → Qp) (s : State) : (setQp n f s).lastCmd = s.lastCmd := rfl
@[simp] theorem setQp_rot (n : Nat) (f : Qp → Qp) (s : State) : (setQp n f s).rot = s.rot := rfl
@[simp] theorem setQp_hwSet (n : Nat) (f : Qp → Qp) (s : State) : (setQp n f s).hwSet = s.hwSet := rfl
@[simp] theorem setQp_incNow (n : Nat) (f : Qp → Qp) (s : State) : (setQp n f s).incNow = s.incNow := rfl

@[simp] theorem setGroup_dc (g : Nat) (f : Group → Group) (s : State) : (setGroup g f s).dc = s.dc := rfl
@[simp] theorem setGroup_ft (g : Nat) (f : Group → Group) (s : State) : (setGroup g f s).ft = s.ft := rfl
@[simp] theorem setGroup_boot (g : Nat) (f : Group → Group) (s : State) : (setGroup g f s).boot = s.boot := rfl
@[simp] theorem setGroup_nv (g : Nat) (f : Group → Group) (s : State) : (setGroup g f s).nv = s.nv := rfl
@[simp] theorem setGroup_ports (g : Nat) (f : Group → Group) (s : State) : (setGroup g f s).ports = s.ports := rfl
@[simp] theorem setGroup_lanes (g : Nat) (f : Group → Group) (s : State) : (setGroup g f s).lanes = s.lanes := rfl
@[simp] theorem setGroup_halls (g : Nat) (f : Group → Group) (s : State) : (setGroup g f s).halls = s.halls := rfl
@[simp] theorem setGroup_cells (g : Nat) (f : Group → Group) (s : State) : (setGroup g f s).cells = s.cells := rfl
@[simp] theorem setGroup_nextMid (g : Nat) (f : Group → Group) (s : State) : (setGroup g f s).nextMid = s.nextMid := rfl
@[simp] theorem setGroup_routes (g : Nat) (f : Group → Group) (s : State) : (setGroup g f s).routes = s.routes := rfl
@[simp] theorem setGroup_groups (g : Nat) (f : Group → Group) (s : State) : (setGroup g f s).groups = tmod s.groups g f := rfl
@[simp] theorem setGroup_coreQ (g : Nat) (f : Group → Group) (s : State) : (setGroup g f s).coreQ = s.coreQ := rfl
@[simp] theorem setGroup_undrained (g : Nat) (f : Group → Group) (s : State) : (setGroup g f s).undrained = s.undrained := rfl
@[simp] theorem setGroup_mcast (g : Nat) (f : Group → Group) (s : State) : (setGroup g f s).mcast = s.mcast := rfl
@[simp] theorem setGroup_tree (g : Nat) (f : Group → Group) (s : State) : (setGroup g f s).tree = s.tree := rfl
@[simp] theorem setGroup_qps (g : Nat) (f : Group → Group) (s : State) : (setGroup g f s).qps = s.qps := rfl
@[simp] theorem setGroup_places (g : Nat) (f : Group → Group) (s : State) : (setGroup g f s).places = s.places := rfl
@[simp] theorem setGroup_qcls (g : Nat) (f : Group → Group) (s : State) : (setGroup g f s).qcls = s.qcls := rfl
@[simp] theorem setGroup_bays (g : Nat) (f : Group → Group) (s : State) : (setGroup g f s).bays = s.bays := rfl
@[simp] theorem setGroup_sec (g : Nat) (f : Group → Group) (s : State) : (setGroup g f s).sec = s.sec := rfl
@[simp] theorem setGroup_gn (g : Nat) (f : Group → Group) (s : State) : (setGroup g f s).gn = s.gn := rfl
@[simp] theorem setGroup_stage (g : Nat) (f : Group → Group) (s : State) : (setGroup g f s).stage = s.stage := rfl
@[simp] theorem setGroup_atr (g : Nat) (f : Group → Group) (s : State) : (setGroup g f s).atr = s.atr := rfl
@[simp] theorem setGroup_nw (g : Nat) (f : Group → Group) (s : State) : (setGroup g f s).nw = s.nw := rfl
@[simp] theorem setGroup_ops (g : Nat) (f : Group → Group) (s : State) : (setGroup g f s).ops = s.ops := rfl
@[simp] theorem setGroup_tele (g : Nat) (f : Group → Group) (s : State) : (setGroup g f s).tele = s.tele := rfl
@[simp] theorem setGroup_temps (g : Nat) (f : Group → Group) (s : State) : (setGroup g f s).temps = s.temps := rfl
@[simp] theorem setGroup_freeN (g : Nat) (f : Group → Group) (s : State) : (setGroup g f s).freeN = s.freeN := rfl
@[simp] theorem setGroup_out (g : Nat) (f : Group → Group) (s : State) : (setGroup g f s).out = s.out := rfl
@[simp] theorem setGroup_pending (g : Nat) (f : Group → Group) (s : State) : (setGroup g f s).pending = s.pending := rfl
@[simp] theorem setGroup_links (g : Nat) (f : Group → Group) (s : State) : (setGroup g f s).links = s.links := rfl
@[simp] theorem setGroup_bundle (g : Nat) (f : Group → Group) (s : State) : (setGroup g f s).bundle = s.bundle := rfl
@[simp] theorem setGroup_lastCmd (g : Nat) (f : Group → Group) (s : State) : (setGroup g f s).lastCmd = s.lastCmd := rfl
@[simp] theorem setGroup_rot (g : Nat) (f : Group → Group) (s : State) : (setGroup g f s).rot = s.rot := rfl
@[simp] theorem setGroup_hwSet (g : Nat) (f : Group → Group) (s : State) : (setGroup g f s).hwSet = s.hwSet := rfl
@[simp] theorem setGroup_incNow (g : Nat) (f : Group → Group) (s : State) : (setGroup g f s).incNow = s.incNow := rfl

@[simp] theorem setMpu_dc (m : Nat) (f : Mpu → Mpu) (s : State) : (setMpu m f s).dc = s.dc := rfl
@[simp] theorem setMpu_ft (m : Nat) (f : Mpu → Mpu) (s : State) : (setMpu m f s).ft = s.ft := rfl
@[simp] theorem setMpu_boot (m : Nat) (f : Mpu → Mpu) (s : State) : (setMpu m f s).boot = s.boot := rfl
@[simp] theorem setMpu_nv (m : Nat) (f : Mpu → Mpu) (s : State) : (setMpu m f s).nv = s.nv := rfl
@[simp] theorem setMpu_ports (m : Nat) (f : Mpu → Mpu) (s : State) : (setMpu m f s).ports = s.ports := rfl
@[simp] theorem setMpu_lanes (m : Nat) (f : Mpu → Mpu) (s : State) : (setMpu m f s).lanes = s.lanes := rfl
@[simp] theorem setMpu_halls (m : Nat) (f : Mpu → Mpu) (s : State) : (setMpu m f s).halls = s.halls := rfl
@[simp] theorem setMpu_cells (m : Nat) (f : Mpu → Mpu) (s : State) : (setMpu m f s).cells = s.cells := rfl
@[simp] theorem setMpu_nextMid (m : Nat) (f : Mpu → Mpu) (s : State) : (setMpu m f s).nextMid = s.nextMid := rfl
@[simp] theorem setMpu_routes (m : Nat) (f : Mpu → Mpu) (s : State) : (setMpu m f s).routes = s.routes := rfl
@[simp] theorem setMpu_groups (m : Nat) (f : Mpu → Mpu) (s : State) : (setMpu m f s).groups = s.groups := rfl
@[simp] theorem setMpu_coreQ (m : Nat) (f : Mpu → Mpu) (s : State) : (setMpu m f s).coreQ = s.coreQ := rfl
@[simp] theorem setMpu_undrained (m : Nat) (f : Mpu → Mpu) (s : State) : (setMpu m f s).undrained = s.undrained := rfl
@[simp] theorem setMpu_mcast (m : Nat) (f : Mpu → Mpu) (s : State) : (setMpu m f s).mcast = s.mcast := rfl
@[simp] theorem setMpu_tree (m : Nat) (f : Mpu → Mpu) (s : State) : (setMpu m f s).tree = s.tree := rfl
@[simp] theorem setMpu_qps (m : Nat) (f : Mpu → Mpu) (s : State) : (setMpu m f s).qps = s.qps := rfl
@[simp] theorem setMpu_places (m : Nat) (f : Mpu → Mpu) (s : State) : (setMpu m f s).places = s.places := rfl
@[simp] theorem setMpu_qcls (m : Nat) (f : Mpu → Mpu) (s : State) : (setMpu m f s).qcls = s.qcls := rfl
@[simp] theorem setMpu_bays (m : Nat) (f : Mpu → Mpu) (s : State) : (setMpu m f s).bays = s.bays := rfl
@[simp] theorem setMpu_sec (m : Nat) (f : Mpu → Mpu) (s : State) : (setMpu m f s).sec = s.sec := rfl
@[simp] theorem setMpu_gn (m : Nat) (f : Mpu → Mpu) (s : State) : (setMpu m f s).gn = { s.gn with mpus := tset s.gn.mpus m (f (getMpu s m)) } := rfl
@[simp] theorem setMpu_stage (m : Nat) (f : Mpu → Mpu) (s : State) : (setMpu m f s).stage = s.stage := rfl
@[simp] theorem setMpu_atr (m : Nat) (f : Mpu → Mpu) (s : State) : (setMpu m f s).atr = s.atr := rfl
@[simp] theorem setMpu_nw (m : Nat) (f : Mpu → Mpu) (s : State) : (setMpu m f s).nw = s.nw := rfl
@[simp] theorem setMpu_ops (m : Nat) (f : Mpu → Mpu) (s : State) : (setMpu m f s).ops = s.ops := rfl
@[simp] theorem setMpu_tele (m : Nat) (f : Mpu → Mpu) (s : State) : (setMpu m f s).tele = s.tele := rfl
@[simp] theorem setMpu_temps (m : Nat) (f : Mpu → Mpu) (s : State) : (setMpu m f s).temps = s.temps := rfl
@[simp] theorem setMpu_freeN (m : Nat) (f : Mpu → Mpu) (s : State) : (setMpu m f s).freeN = s.freeN := rfl
@[simp] theorem setMpu_out (m : Nat) (f : Mpu → Mpu) (s : State) : (setMpu m f s).out = s.out := rfl
@[simp] theorem setMpu_pending (m : Nat) (f : Mpu → Mpu) (s : State) : (setMpu m f s).pending = s.pending := rfl
@[simp] theorem setMpu_links (m : Nat) (f : Mpu → Mpu) (s : State) : (setMpu m f s).links = s.links := rfl
@[simp] theorem setMpu_bundle (m : Nat) (f : Mpu → Mpu) (s : State) : (setMpu m f s).bundle = s.bundle := rfl
@[simp] theorem setMpu_lastCmd (m : Nat) (f : Mpu → Mpu) (s : State) : (setMpu m f s).lastCmd = s.lastCmd := rfl
@[simp] theorem setMpu_rot (m : Nat) (f : Mpu → Mpu) (s : State) : (setMpu m f s).rot = s.rot := rfl
@[simp] theorem setMpu_hwSet (m : Nat) (f : Mpu → Mpu) (s : State) : (setMpu m f s).hwSet = s.hwSet := rfl
@[simp] theorem setMpu_incNow (m : Nat) (f : Mpu → Mpu) (s : State) : (setMpu m f s).incNow = s.incNow := rfl

@[simp] theorem setChan_dc (c : Nat) (f : Chan → Chan) (s : State) : (setChan c f s).dc = s.dc := rfl
@[simp] theorem setChan_ft (c : Nat) (f : Chan → Chan) (s : State) : (setChan c f s).ft = s.ft := rfl
@[simp] theorem setChan_boot (c : Nat) (f : Chan → Chan) (s : State) : (setChan c f s).boot = s.boot := rfl
@[simp] theorem setChan_nv (c : Nat) (f : Chan → Chan) (s : State) : (setChan c f s).nv = s.nv := rfl
@[simp] theorem setChan_ports (c : Nat) (f : Chan → Chan) (s : State) : (setChan c f s).ports = s.ports := rfl
@[simp] theorem setChan_lanes (c : Nat) (f : Chan → Chan) (s : State) : (setChan c f s).lanes = s.lanes := rfl
@[simp] theorem setChan_halls (c : Nat) (f : Chan → Chan) (s : State) : (setChan c f s).halls = s.halls := rfl
@[simp] theorem setChan_cells (c : Nat) (f : Chan → Chan) (s : State) : (setChan c f s).cells = s.cells := rfl
@[simp] theorem setChan_nextMid (c : Nat) (f : Chan → Chan) (s : State) : (setChan c f s).nextMid = s.nextMid := rfl
@[simp] theorem setChan_routes (c : Nat) (f : Chan → Chan) (s : State) : (setChan c f s).routes = s.routes := rfl
@[simp] theorem setChan_groups (c : Nat) (f : Chan → Chan) (s : State) : (setChan c f s).groups = s.groups := rfl
@[simp] theorem setChan_coreQ (c : Nat) (f : Chan → Chan) (s : State) : (setChan c f s).coreQ = s.coreQ := rfl
@[simp] theorem setChan_undrained (c : Nat) (f : Chan → Chan) (s : State) : (setChan c f s).undrained = s.undrained := rfl
@[simp] theorem setChan_mcast (c : Nat) (f : Chan → Chan) (s : State) : (setChan c f s).mcast = s.mcast := rfl
@[simp] theorem setChan_tree (c : Nat) (f : Chan → Chan) (s : State) : (setChan c f s).tree = s.tree := rfl
@[simp] theorem setChan_qps (c : Nat) (f : Chan → Chan) (s : State) : (setChan c f s).qps = s.qps := rfl
@[simp] theorem setChan_places (c : Nat) (f : Chan → Chan) (s : State) : (setChan c f s).places = s.places := rfl
@[simp] theorem setChan_qcls (c : Nat) (f : Chan → Chan) (s : State) : (setChan c f s).qcls = s.qcls := rfl
@[simp] theorem setChan_bays (c : Nat) (f : Chan → Chan) (s : State) : (setChan c f s).bays = s.bays := rfl
@[simp] theorem setChan_sec (c : Nat) (f : Chan → Chan) (s : State) : (setChan c f s).sec = s.sec := rfl
@[simp] theorem setChan_gn (c : Nat) (f : Chan → Chan) (s : State) : (setChan c f s).gn = s.gn := rfl
@[simp] theorem setChan_stage (c : Nat) (f : Chan → Chan) (s : State) : (setChan c f s).stage = s.stage := rfl
@[simp] theorem setChan_atr (c : Nat) (f : Chan → Chan) (s : State) : (setChan c f s).atr = s.atr := rfl
@[simp] theorem setChan_nw (c : Nat) (f : Chan → Chan) (s : State) : (setChan c f s).nw = { s.nw with chs := tset s.nw.chs c (f (getChan s c)) } := rfl
@[simp] theorem setChan_ops (c : Nat) (f : Chan → Chan) (s : State) : (setChan c f s).ops = s.ops := rfl
@[simp] theorem setChan_tele (c : Nat) (f : Chan → Chan) (s : State) : (setChan c f s).tele = s.tele := rfl
@[simp] theorem setChan_temps (c : Nat) (f : Chan → Chan) (s : State) : (setChan c f s).temps = s.temps := rfl
@[simp] theorem setChan_freeN (c : Nat) (f : Chan → Chan) (s : State) : (setChan c f s).freeN = s.freeN := rfl
@[simp] theorem setChan_out (c : Nat) (f : Chan → Chan) (s : State) : (setChan c f s).out = s.out := rfl
@[simp] theorem setChan_pending (c : Nat) (f : Chan → Chan) (s : State) : (setChan c f s).pending = s.pending := rfl
@[simp] theorem setChan_links (c : Nat) (f : Chan → Chan) (s : State) : (setChan c f s).links = s.links := rfl
@[simp] theorem setChan_bundle (c : Nat) (f : Chan → Chan) (s : State) : (setChan c f s).bundle = s.bundle := rfl
@[simp] theorem setChan_lastCmd (c : Nat) (f : Chan → Chan) (s : State) : (setChan c f s).lastCmd = s.lastCmd := rfl
@[simp] theorem setChan_rot (c : Nat) (f : Chan → Chan) (s : State) : (setChan c f s).rot = s.rot := rfl
@[simp] theorem setChan_hwSet (c : Nat) (f : Chan → Chan) (s : State) : (setChan c f s).hwSet = s.hwSet := rfl
@[simp] theorem setChan_incNow (c : Nat) (f : Chan → Chan) (s : State) : (setChan c f s).incNow = s.incNow := rfl

@[simp] theorem setFeed_dc (k : Nat) (f : Feed → Feed) (s : State) : (setFeed k f s).dc = s.dc := rfl
@[simp] theorem setFeed_ft (k : Nat) (f : Feed → Feed) (s : State) : (setFeed k f s).ft = s.ft := rfl
@[simp] theorem setFeed_boot (k : Nat) (f : Feed → Feed) (s : State) : (setFeed k f s).boot = s.boot := rfl
@[simp] theorem setFeed_nv (k : Nat) (f : Feed → Feed) (s : State) : (setFeed k f s).nv = s.nv := rfl
@[simp] theorem setFeed_ports (k : Nat) (f : Feed → Feed) (s : State) : (setFeed k f s).ports = s.ports := rfl
@[simp] theorem setFeed_lanes (k : Nat) (f : Feed → Feed) (s : State) : (setFeed k f s).lanes = s.lanes := rfl
@[simp] theorem setFeed_halls (k : Nat) (f : Feed → Feed) (s : State) : (setFeed k f s).halls = s.halls := rfl
@[simp] theorem setFeed_cells (k : Nat) (f : Feed → Feed) (s : State) : (setFeed k f s).cells = s.cells := rfl
@[simp] theorem setFeed_nextMid (k : Nat) (f : Feed → Feed) (s : State) : (setFeed k f s).nextMid = s.nextMid := rfl
@[simp] theorem setFeed_routes (k : Nat) (f : Feed → Feed) (s : State) : (setFeed k f s).routes = s.routes := rfl
@[simp] theorem setFeed_groups (k : Nat) (f : Feed → Feed) (s : State) : (setFeed k f s).groups = s.groups := rfl
@[simp] theorem setFeed_coreQ (k : Nat) (f : Feed → Feed) (s : State) : (setFeed k f s).coreQ = s.coreQ := rfl
@[simp] theorem setFeed_undrained (k : Nat) (f : Feed → Feed) (s : State) : (setFeed k f s).undrained = s.undrained := rfl
@[simp] theorem setFeed_mcast (k : Nat) (f : Feed → Feed) (s : State) : (setFeed k f s).mcast = s.mcast := rfl
@[simp] theorem setFeed_tree (k : Nat) (f : Feed → Feed) (s : State) : (setFeed k f s).tree = s.tree := rfl
@[simp] theorem setFeed_qps (k : Nat) (f : Feed → Feed) (s : State) : (setFeed k f s).qps = s.qps := rfl
@[simp] theorem setFeed_places (k : Nat) (f : Feed → Feed) (s : State) : (setFeed k f s).places = s.places := rfl
@[simp] theorem setFeed_qcls (k : Nat) (f : Feed → Feed) (s : State) : (setFeed k f s).qcls = s.qcls := rfl
@[simp] theorem setFeed_bays (k : Nat) (f : Feed → Feed) (s : State) : (setFeed k f s).bays = s.bays := rfl
@[simp] theorem setFeed_sec (k : Nat) (f : Feed → Feed) (s : State) : (setFeed k f s).sec = s.sec := rfl
@[simp] theorem setFeed_gn (k : Nat) (f : Feed → Feed) (s : State) : (setFeed k f s).gn = s.gn := rfl
@[simp] theorem setFeed_stage (k : Nat) (f : Feed → Feed) (s : State) : (setFeed k f s).stage = s.stage := rfl
@[simp] theorem setFeed_atr (k : Nat) (f : Feed → Feed) (s : State) : (setFeed k f s).atr = s.atr := rfl
@[simp] theorem setFeed_nw (k : Nat) (f : Feed → Feed) (s : State) : (setFeed k f s).nw = { s.nw with feeds := tset s.nw.feeds k (f (getFeed s k)) } := rfl
@[simp] theorem setFeed_ops (k : Nat) (f : Feed → Feed) (s : State) : (setFeed k f s).ops = s.ops := rfl
@[simp] theorem setFeed_tele (k : Nat) (f : Feed → Feed) (s : State) : (setFeed k f s).tele = s.tele := rfl
@[simp] theorem setFeed_temps (k : Nat) (f : Feed → Feed) (s : State) : (setFeed k f s).temps = s.temps := rfl
@[simp] theorem setFeed_freeN (k : Nat) (f : Feed → Feed) (s : State) : (setFeed k f s).freeN = s.freeN := rfl
@[simp] theorem setFeed_out (k : Nat) (f : Feed → Feed) (s : State) : (setFeed k f s).out = s.out := rfl
@[simp] theorem setFeed_pending (k : Nat) (f : Feed → Feed) (s : State) : (setFeed k f s).pending = s.pending := rfl
@[simp] theorem setFeed_links (k : Nat) (f : Feed → Feed) (s : State) : (setFeed k f s).links = s.links := rfl
@[simp] theorem setFeed_bundle (k : Nat) (f : Feed → Feed) (s : State) : (setFeed k f s).bundle = s.bundle := rfl
@[simp] theorem setFeed_lastCmd (k : Nat) (f : Feed → Feed) (s : State) : (setFeed k f s).lastCmd = s.lastCmd := rfl
@[simp] theorem setFeed_rot (k : Nat) (f : Feed → Feed) (s : State) : (setFeed k f s).rot = s.rot := rfl
@[simp] theorem setFeed_hwSet (k : Nat) (f : Feed → Feed) (s : State) : (setFeed k f s).hwSet = s.hwSet := rfl
@[simp] theorem setFeed_incNow (k : Nat) (f : Feed → Feed) (s : State) : (setFeed k f s).incNow = s.incNow := rfl

@[simp] theorem setBoot_dc (f : Boot → Boot) (s : State) : (setBoot f s).dc = s.dc := rfl
@[simp] theorem setBoot_ft (f : Boot → Boot) (s : State) : (setBoot f s).ft = s.ft := rfl
@[simp] theorem setBoot_boot (f : Boot → Boot) (s : State) : (setBoot f s).boot = f s.boot := rfl
@[simp] theorem setBoot_nv (f : Boot → Boot) (s : State) : (setBoot f s).nv = s.nv := rfl
@[simp] theorem setBoot_ports (f : Boot → Boot) (s : State) : (setBoot f s).ports = s.ports := rfl
@[simp] theorem setBoot_lanes (f : Boot → Boot) (s : State) : (setBoot f s).lanes = s.lanes := rfl
@[simp] theorem setBoot_halls (f : Boot → Boot) (s : State) : (setBoot f s).halls = s.halls := rfl
@[simp] theorem setBoot_cells (f : Boot → Boot) (s : State) : (setBoot f s).cells = s.cells := rfl
@[simp] theorem setBoot_nextMid (f : Boot → Boot) (s : State) : (setBoot f s).nextMid = s.nextMid := rfl
@[simp] theorem setBoot_routes (f : Boot → Boot) (s : State) : (setBoot f s).routes = s.routes := rfl
@[simp] theorem setBoot_groups (f : Boot → Boot) (s : State) : (setBoot f s).groups = s.groups := rfl
@[simp] theorem setBoot_coreQ (f : Boot → Boot) (s : State) : (setBoot f s).coreQ = s.coreQ := rfl
@[simp] theorem setBoot_undrained (f : Boot → Boot) (s : State) : (setBoot f s).undrained = s.undrained := rfl
@[simp] theorem setBoot_mcast (f : Boot → Boot) (s : State) : (setBoot f s).mcast = s.mcast := rfl
@[simp] theorem setBoot_tree (f : Boot → Boot) (s : State) : (setBoot f s).tree = s.tree := rfl
@[simp] theorem setBoot_qps (f : Boot → Boot) (s : State) : (setBoot f s).qps = s.qps := rfl
@[simp] theorem setBoot_places (f : Boot → Boot) (s : State) : (setBoot f s).places = s.places := rfl
@[simp] theorem setBoot_qcls (f : Boot → Boot) (s : State) : (setBoot f s).qcls = s.qcls := rfl
@[simp] theorem setBoot_bays (f : Boot → Boot) (s : State) : (setBoot f s).bays = s.bays := rfl
@[simp] theorem setBoot_sec (f : Boot → Boot) (s : State) : (setBoot f s).sec = s.sec := rfl
@[simp] theorem setBoot_gn (f : Boot → Boot) (s : State) : (setBoot f s).gn = s.gn := rfl
@[simp] theorem setBoot_stage (f : Boot → Boot) (s : State) : (setBoot f s).stage = s.stage := rfl
@[simp] theorem setBoot_atr (f : Boot → Boot) (s : State) : (setBoot f s).atr = s.atr := rfl
@[simp] theorem setBoot_nw (f : Boot → Boot) (s : State) : (setBoot f s).nw = s.nw := rfl
@[simp] theorem setBoot_ops (f : Boot → Boot) (s : State) : (setBoot f s).ops = s.ops := rfl
@[simp] theorem setBoot_tele (f : Boot → Boot) (s : State) : (setBoot f s).tele = s.tele := rfl
@[simp] theorem setBoot_temps (f : Boot → Boot) (s : State) : (setBoot f s).temps = s.temps := rfl
@[simp] theorem setBoot_freeN (f : Boot → Boot) (s : State) : (setBoot f s).freeN = s.freeN := rfl
@[simp] theorem setBoot_out (f : Boot → Boot) (s : State) : (setBoot f s).out = s.out := rfl
@[simp] theorem setBoot_pending (f : Boot → Boot) (s : State) : (setBoot f s).pending = s.pending := rfl
@[simp] theorem setBoot_links (f : Boot → Boot) (s : State) : (setBoot f s).links = s.links := rfl
@[simp] theorem setBoot_bundle (f : Boot → Boot) (s : State) : (setBoot f s).bundle = s.bundle := rfl
@[simp] theorem setBoot_lastCmd (f : Boot → Boot) (s : State) : (setBoot f s).lastCmd = s.lastCmd := rfl
@[simp] theorem setBoot_rot (f : Boot → Boot) (s : State) : (setBoot f s).rot = s.rot := rfl
@[simp] theorem setBoot_hwSet (f : Boot → Boot) (s : State) : (setBoot f s).hwSet = s.hwSet := rfl
@[simp] theorem setBoot_incNow (f : Boot → Boot) (s : State) : (setBoot f s).incNow = s.incNow := rfl

@[simp] theorem setNv_dc (f : Nv → Nv) (s : State) : (setNv f s).dc = s.dc := rfl
@[simp] theorem setNv_ft (f : Nv → Nv) (s : State) : (setNv f s).ft = s.ft := rfl
@[simp] theorem setNv_boot (f : Nv → Nv) (s : State) : (setNv f s).boot = s.boot := rfl
@[simp] theorem setNv_nv (f : Nv → Nv) (s : State) : (setNv f s).nv = f s.nv := rfl
@[simp] theorem setNv_ports (f : Nv → Nv) (s : State) : (setNv f s).ports = s.ports := rfl
@[simp] theorem setNv_lanes (f : Nv → Nv) (s : State) : (setNv f s).lanes = s.lanes := rfl
@[simp] theorem setNv_halls (f : Nv → Nv) (s : State) : (setNv f s).halls = s.halls := rfl
@[simp] theorem setNv_cells (f : Nv → Nv) (s : State) : (setNv f s).cells = s.cells := rfl
@[simp] theorem setNv_nextMid (f : Nv → Nv) (s : State) : (setNv f s).nextMid = s.nextMid := rfl
@[simp] theorem setNv_routes (f : Nv → Nv) (s : State) : (setNv f s).routes = s.routes := rfl
@[simp] theorem setNv_groups (f : Nv → Nv) (s : State) : (setNv f s).groups = s.groups := rfl
@[simp] theorem setNv_coreQ (f : Nv → Nv) (s : State) : (setNv f s).coreQ = s.coreQ := rfl
@[simp] theorem setNv_undrained (f : Nv → Nv) (s : State) : (setNv f s).undrained = s.undrained := rfl
@[simp] theorem setNv_mcast (f : Nv → Nv) (s : State) : (setNv f s).mcast = s.mcast := rfl
@[simp] theorem setNv_tree (f : Nv → Nv) (s : State) : (setNv f s).tree = s.tree := rfl
@[simp] theorem setNv_qps (f : Nv → Nv) (s : State) : (setNv f s).qps = s.qps := rfl
@[simp] theorem setNv_places (f : Nv → Nv) (s : State) : (setNv f s).places = s.places := rfl
@[simp] theorem setNv_qcls (f : Nv → Nv) (s : State) : (setNv f s).qcls = s.qcls := rfl
@[simp] theorem setNv_bays (f : Nv → Nv) (s : State) : (setNv f s).bays = s.bays := rfl
@[simp] theorem setNv_sec (f : Nv → Nv) (s : State) : (setNv f s).sec = s.sec := rfl
@[simp] theorem setNv_gn (f : Nv → Nv) (s : State) : (setNv f s).gn = s.gn := rfl
@[simp] theorem setNv_stage (f : Nv → Nv) (s : State) : (setNv f s).stage = s.stage := rfl
@[simp] theorem setNv_atr (f : Nv → Nv) (s : State) : (setNv f s).atr = s.atr := rfl
@[simp] theorem setNv_nw (f : Nv → Nv) (s : State) : (setNv f s).nw = s.nw := rfl
@[simp] theorem setNv_ops (f : Nv → Nv) (s : State) : (setNv f s).ops = s.ops := rfl
@[simp] theorem setNv_tele (f : Nv → Nv) (s : State) : (setNv f s).tele = s.tele := rfl
@[simp] theorem setNv_temps (f : Nv → Nv) (s : State) : (setNv f s).temps = s.temps := rfl
@[simp] theorem setNv_freeN (f : Nv → Nv) (s : State) : (setNv f s).freeN = s.freeN := rfl
@[simp] theorem setNv_out (f : Nv → Nv) (s : State) : (setNv f s).out = s.out := rfl
@[simp] theorem setNv_pending (f : Nv → Nv) (s : State) : (setNv f s).pending = s.pending := rfl
@[simp] theorem setNv_links (f : Nv → Nv) (s : State) : (setNv f s).links = s.links := rfl
@[simp] theorem setNv_bundle (f : Nv → Nv) (s : State) : (setNv f s).bundle = s.bundle := rfl
@[simp] theorem setNv_lastCmd (f : Nv → Nv) (s : State) : (setNv f s).lastCmd = s.lastCmd := rfl
@[simp] theorem setNv_rot (f : Nv → Nv) (s : State) : (setNv f s).rot = s.rot := rfl
@[simp] theorem setNv_hwSet (f : Nv → Nv) (s : State) : (setNv f s).hwSet = s.hwSet := rfl
@[simp] theorem setNv_incNow (f : Nv → Nv) (s : State) : (setNv f s).incNow = s.incNow := rfl

@[simp] theorem setSec_dc (f : Sec → Sec) (s : State) : (setSec f s).dc = s.dc := rfl
@[simp] theorem setSec_ft (f : Sec → Sec) (s : State) : (setSec f s).ft = s.ft := rfl
@[simp] theorem setSec_boot (f : Sec → Sec) (s : State) : (setSec f s).boot = s.boot := rfl
@[simp] theorem setSec_nv (f : Sec → Sec) (s : State) : (setSec f s).nv = s.nv := rfl
@[simp] theorem setSec_ports (f : Sec → Sec) (s : State) : (setSec f s).ports = s.ports := rfl
@[simp] theorem setSec_lanes (f : Sec → Sec) (s : State) : (setSec f s).lanes = s.lanes := rfl
@[simp] theorem setSec_halls (f : Sec → Sec) (s : State) : (setSec f s).halls = s.halls := rfl
@[simp] theorem setSec_cells (f : Sec → Sec) (s : State) : (setSec f s).cells = s.cells := rfl
@[simp] theorem setSec_nextMid (f : Sec → Sec) (s : State) : (setSec f s).nextMid = s.nextMid := rfl
@[simp] theorem setSec_routes (f : Sec → Sec) (s : State) : (setSec f s).routes = s.routes := rfl
@[simp] theorem setSec_groups (f : Sec → Sec) (s : State) : (setSec f s).groups = s.groups := rfl
@[simp] theorem setSec_coreQ (f : Sec → Sec) (s : State) : (setSec f s).coreQ = s.coreQ := rfl
@[simp] theorem setSec_undrained (f : Sec → Sec) (s : State) : (setSec f s).undrained = s.undrained := rfl
@[simp] theorem setSec_mcast (f : Sec → Sec) (s : State) : (setSec f s).mcast = s.mcast := rfl
@[simp] theorem setSec_tree (f : Sec → Sec) (s : State) : (setSec f s).tree = s.tree := rfl
@[simp] theorem setSec_qps (f : Sec → Sec) (s : State) : (setSec f s).qps = s.qps := rfl
@[simp] theorem setSec_places (f : Sec → Sec) (s : State) : (setSec f s).places = s.places := rfl
@[simp] theorem setSec_qcls (f : Sec → Sec) (s : State) : (setSec f s).qcls = s.qcls := rfl
@[simp] theorem setSec_bays (f : Sec → Sec) (s : State) : (setSec f s).bays = s.bays := rfl
@[simp] theorem setSec_sec (f : Sec → Sec) (s : State) : (setSec f s).sec = f s.sec := rfl
@[simp] theorem setSec_gn (f : Sec → Sec) (s : State) : (setSec f s).gn = s.gn := rfl
@[simp] theorem setSec_stage (f : Sec → Sec) (s : State) : (setSec f s).stage = s.stage := rfl
@[simp] theorem setSec_atr (f : Sec → Sec) (s : State) : (setSec f s).atr = s.atr := rfl
@[simp] theorem setSec_nw (f : Sec → Sec) (s : State) : (setSec f s).nw = s.nw := rfl
@[simp] theorem setSec_ops (f : Sec → Sec) (s : State) : (setSec f s).ops = s.ops := rfl
@[simp] theorem setSec_tele (f : Sec → Sec) (s : State) : (setSec f s).tele = s.tele := rfl
@[simp] theorem setSec_temps (f : Sec → Sec) (s : State) : (setSec f s).temps = s.temps := rfl
@[simp] theorem setSec_freeN (f : Sec → Sec) (s : State) : (setSec f s).freeN = s.freeN := rfl
@[simp] theorem setSec_out (f : Sec → Sec) (s : State) : (setSec f s).out = s.out := rfl
@[simp] theorem setSec_pending (f : Sec → Sec) (s : State) : (setSec f s).pending = s.pending := rfl
@[simp] theorem setSec_links (f : Sec → Sec) (s : State) : (setSec f s).links = s.links := rfl
@[simp] theorem setSec_bundle (f : Sec → Sec) (s : State) : (setSec f s).bundle = s.bundle := rfl
@[simp] theorem setSec_lastCmd (f : Sec → Sec) (s : State) : (setSec f s).lastCmd = s.lastCmd := rfl
@[simp] theorem setSec_rot (f : Sec → Sec) (s : State) : (setSec f s).rot = s.rot := rfl
@[simp] theorem setSec_hwSet (f : Sec → Sec) (s : State) : (setSec f s).hwSet = s.hwSet := rfl
@[simp] theorem setSec_incNow (f : Sec → Sec) (s : State) : (setSec f s).incNow = s.incNow := rfl

@[simp] theorem setGn_dc (f : Garnet → Garnet) (s : State) : (setGn f s).dc = s.dc := rfl
@[simp] theorem setGn_ft (f : Garnet → Garnet) (s : State) : (setGn f s).ft = s.ft := rfl
@[simp] theorem setGn_boot (f : Garnet → Garnet) (s : State) : (setGn f s).boot = s.boot := rfl
@[simp] theorem setGn_nv (f : Garnet → Garnet) (s : State) : (setGn f s).nv = s.nv := rfl
@[simp] theorem setGn_ports (f : Garnet → Garnet) (s : State) : (setGn f s).ports = s.ports := rfl
@[simp] theorem setGn_lanes (f : Garnet → Garnet) (s : State) : (setGn f s).lanes = s.lanes := rfl
@[simp] theorem setGn_halls (f : Garnet → Garnet) (s : State) : (setGn f s).halls = s.halls := rfl
@[simp] theorem setGn_cells (f : Garnet → Garnet) (s : State) : (setGn f s).cells = s.cells := rfl
@[simp] theorem setGn_nextMid (f : Garnet → Garnet) (s : State) : (setGn f s).nextMid = s.nextMid := rfl
@[simp] theorem setGn_routes (f : Garnet → Garnet) (s : State) : (setGn f s).routes = s.routes := rfl
@[simp] theorem setGn_groups (f : Garnet → Garnet) (s : State) : (setGn f s).groups = s.groups := rfl
@[simp] theorem setGn_coreQ (f : Garnet → Garnet) (s : State) : (setGn f s).coreQ = s.coreQ := rfl
@[simp] theorem setGn_undrained (f : Garnet → Garnet) (s : State) : (setGn f s).undrained = s.undrained := rfl
@[simp] theorem setGn_mcast (f : Garnet → Garnet) (s : State) : (setGn f s).mcast = s.mcast := rfl
@[simp] theorem setGn_tree (f : Garnet → Garnet) (s : State) : (setGn f s).tree = s.tree := rfl
@[simp] theorem setGn_qps (f : Garnet → Garnet) (s : State) : (setGn f s).qps = s.qps := rfl
@[simp] theorem setGn_places (f : Garnet → Garnet) (s : State) : (setGn f s).places = s.places := rfl
@[simp] theorem setGn_qcls (f : Garnet → Garnet) (s : State) : (setGn f s).qcls = s.qcls := rfl
@[simp] theorem setGn_bays (f : Garnet → Garnet) (s : State) : (setGn f s).bays = s.bays := rfl
@[simp] theorem setGn_sec (f : Garnet → Garnet) (s : State) : (setGn f s).sec = s.sec := rfl
@[simp] theorem setGn_gn (f : Garnet → Garnet) (s : State) : (setGn f s).gn = f s.gn := rfl
@[simp] theorem setGn_stage (f : Garnet → Garnet) (s : State) : (setGn f s).stage = s.stage := rfl
@[simp] theorem setGn_atr (f : Garnet → Garnet) (s : State) : (setGn f s).atr = s.atr := rfl
@[simp] theorem setGn_nw (f : Garnet → Garnet) (s : State) : (setGn f s).nw = s.nw := rfl
@[simp] theorem setGn_ops (f : Garnet → Garnet) (s : State) : (setGn f s).ops = s.ops := rfl
@[simp] theorem setGn_tele (f : Garnet → Garnet) (s : State) : (setGn f s).tele = s.tele := rfl
@[simp] theorem setGn_temps (f : Garnet → Garnet) (s : State) : (setGn f s).temps = s.temps := rfl
@[simp] theorem setGn_freeN (f : Garnet → Garnet) (s : State) : (setGn f s).freeN = s.freeN := rfl
@[simp] theorem setGn_out (f : Garnet → Garnet) (s : State) : (setGn f s).out = s.out := rfl
@[simp] theorem setGn_pending (f : Garnet → Garnet) (s : State) : (setGn f s).pending = s.pending := rfl
@[simp] theorem setGn_links (f : Garnet → Garnet) (s : State) : (setGn f s).links = s.links := rfl
@[simp] theorem setGn_bundle (f : Garnet → Garnet) (s : State) : (setGn f s).bundle = s.bundle := rfl
@[simp] theorem setGn_lastCmd (f : Garnet → Garnet) (s : State) : (setGn f s).lastCmd = s.lastCmd := rfl
@[simp] theorem setGn_rot (f : Garnet → Garnet) (s : State) : (setGn f s).rot = s.rot := rfl
@[simp] theorem setGn_hwSet (f : Garnet → Garnet) (s : State) : (setGn f s).hwSet = s.hwSet := rfl
@[simp] theorem setGn_incNow (f : Garnet → Garnet) (s : State) : (setGn f s).incNow = s.incNow := rfl

@[simp] theorem setAtr_dc (f : Atrium → Atrium) (s : State) : (setAtr f s).dc = s.dc := rfl
@[simp] theorem setAtr_ft (f : Atrium → Atrium) (s : State) : (setAtr f s).ft = s.ft := rfl
@[simp] theorem setAtr_boot (f : Atrium → Atrium) (s : State) : (setAtr f s).boot = s.boot := rfl
@[simp] theorem setAtr_nv (f : Atrium → Atrium) (s : State) : (setAtr f s).nv = s.nv := rfl
@[simp] theorem setAtr_ports (f : Atrium → Atrium) (s : State) : (setAtr f s).ports = s.ports := rfl
@[simp] theorem setAtr_lanes (f : Atrium → Atrium) (s : State) : (setAtr f s).lanes = s.lanes := rfl
@[simp] theorem setAtr_halls (f : Atrium → Atrium) (s : State) : (setAtr f s).halls = s.halls := rfl
@[simp] theorem setAtr_cells (f : Atrium → Atrium) (s : State) : (setAtr f s).cells = s.cells := rfl
@[simp] theorem setAtr_nextMid (f : Atrium → Atrium) (s : State) : (setAtr f s).nextMid = s.nextMid := rfl
@[simp] theorem setAtr_routes (f : Atrium → Atrium) (s : State) : (setAtr f s).routes = s.routes := rfl
@[simp] theorem setAtr_groups (f : Atrium → Atrium) (s : State) : (setAtr f s).groups = s.groups := rfl
@[simp] theorem setAtr_coreQ (f : Atrium → Atrium) (s : State) : (setAtr f s).coreQ = s.coreQ := rfl
@[simp] theorem setAtr_undrained (f : Atrium → Atrium) (s : State) : (setAtr f s).undrained = s.undrained := rfl
@[simp] theorem setAtr_mcast (f : Atrium → Atrium) (s : State) : (setAtr f s).mcast = s.mcast := rfl
@[simp] theorem setAtr_tree (f : Atrium → Atrium) (s : State) : (setAtr f s).tree = s.tree := rfl
@[simp] theorem setAtr_qps (f : Atrium → Atrium) (s : State) : (setAtr f s).qps = s.qps := rfl
@[simp] theorem setAtr_places (f : Atrium → Atrium) (s : State) : (setAtr f s).places = s.places := rfl
@[simp] theorem setAtr_qcls (f : Atrium → Atrium) (s : State) : (setAtr f s).qcls = s.qcls := rfl
@[simp] theorem setAtr_bays (f : Atrium → Atrium) (s : State) : (setAtr f s).bays = s.bays := rfl
@[simp] theorem setAtr_sec (f : Atrium → Atrium) (s : State) : (setAtr f s).sec = s.sec := rfl
@[simp] theorem setAtr_gn (f : Atrium → Atrium) (s : State) : (setAtr f s).gn = s.gn := rfl
@[simp] theorem setAtr_stage (f : Atrium → Atrium) (s : State) : (setAtr f s).stage = s.stage := rfl
@[simp] theorem setAtr_atr (f : Atrium → Atrium) (s : State) : (setAtr f s).atr = f s.atr := rfl
@[simp] theorem setAtr_nw (f : Atrium → Atrium) (s : State) : (setAtr f s).nw = s.nw := rfl
@[simp] theorem setAtr_ops (f : Atrium → Atrium) (s : State) : (setAtr f s).ops = s.ops := rfl
@[simp] theorem setAtr_tele (f : Atrium → Atrium) (s : State) : (setAtr f s).tele = s.tele := rfl
@[simp] theorem setAtr_temps (f : Atrium → Atrium) (s : State) : (setAtr f s).temps = s.temps := rfl
@[simp] theorem setAtr_freeN (f : Atrium → Atrium) (s : State) : (setAtr f s).freeN = s.freeN := rfl
@[simp] theorem setAtr_out (f : Atrium → Atrium) (s : State) : (setAtr f s).out = s.out := rfl
@[simp] theorem setAtr_pending (f : Atrium → Atrium) (s : State) : (setAtr f s).pending = s.pending := rfl
@[simp] theorem setAtr_links (f : Atrium → Atrium) (s : State) : (setAtr f s).links = s.links := rfl
@[simp] theorem setAtr_bundle (f : Atrium → Atrium) (s : State) : (setAtr f s).bundle = s.bundle := rfl
@[simp] theorem setAtr_lastCmd (f : Atrium → Atrium) (s : State) : (setAtr f s).lastCmd = s.lastCmd := rfl
@[simp] theorem setAtr_rot (f : Atrium → Atrium) (s : State) : (setAtr f s).rot = s.rot := rfl
@[simp] theorem setAtr_hwSet (f : Atrium → Atrium) (s : State) : (setAtr f s).hwSet = s.hwSet := rfl
@[simp] theorem setAtr_incNow (f : Atrium → Atrium) (s : State) : (setAtr f s).incNow = s.incNow := rfl

@[simp] theorem setFt_dc (f : FTime → FTime) (s : State) : (setFt f s).dc = s.dc := rfl
@[simp] theorem setFt_ft (f : FTime → FTime) (s : State) : (setFt f s).ft = f s.ft := rfl
@[simp] theorem setFt_boot (f : FTime → FTime) (s : State) : (setFt f s).boot = s.boot := rfl
@[simp] theorem setFt_nv (f : FTime → FTime) (s : State) : (setFt f s).nv = s.nv := rfl
@[simp] theorem setFt_ports (f : FTime → FTime) (s : State) : (setFt f s).ports = s.ports := rfl
@[simp] theorem setFt_lanes (f : FTime → FTime) (s : State) : (setFt f s).lanes = s.lanes := rfl
@[simp] theorem setFt_halls (f : FTime → FTime) (s : State) : (setFt f s).halls = s.halls := rfl
@[simp] theorem setFt_cells (f : FTime → FTime) (s : State) : (setFt f s).cells = s.cells := rfl
@[simp] theorem setFt_nextMid (f : FTime → FTime) (s : State) : (setFt f s).nextMid = s.nextMid := rfl
@[simp] theorem setFt_routes (f : FTime → FTime) (s : State) : (setFt f s).routes = s.routes := rfl
@[simp] theorem setFt_groups (f : FTime → FTime) (s : State) : (setFt f s).groups = s.groups := rfl
@[simp] theorem setFt_coreQ (f : FTime → FTime) (s : State) : (setFt f s).coreQ = s.coreQ := rfl
@[simp] theorem setFt_undrained (f : FTime → FTime) (s : State) : (setFt f s).undrained = s.undrained := rfl
@[simp] theorem setFt_mcast (f : FTime → FTime) (s : State) : (setFt f s).mcast = s.mcast := rfl
@[simp] theorem setFt_tree (f : FTime → FTime) (s : State) : (setFt f s).tree = s.tree := rfl
@[simp] theorem setFt_qps (f : FTime → FTime) (s : State) : (setFt f s).qps = s.qps := rfl
@[simp] theorem setFt_places (f : FTime → FTime) (s : State) : (setFt f s).places = s.places := rfl
@[simp] theorem setFt_qcls (f : FTime → FTime) (s : State) : (setFt f s).qcls = s.qcls := rfl
@[simp] theorem setFt_bays (f : FTime → FTime) (s : State) : (setFt f s).bays = s.bays := rfl
@[simp] theorem setFt_sec (f : FTime → FTime) (s : State) : (setFt f s).sec = s.sec := rfl
@[simp] theorem setFt_gn (f : FTime → FTime) (s : State) : (setFt f s).gn = s.gn := rfl
@[simp] theorem setFt_stage (f : FTime → FTime) (s : State) : (setFt f s).stage = s.stage := rfl
@[simp] theorem setFt_atr (f : FTime → FTime) (s : State) : (setFt f s).atr = s.atr := rfl
@[simp] theorem setFt_nw (f : FTime → FTime) (s : State) : (setFt f s).nw = s.nw := rfl
@[simp] theorem setFt_ops (f : FTime → FTime) (s : State) : (setFt f s).ops = s.ops := rfl
@[simp] theorem setFt_tele (f : FTime → FTime) (s : State) : (setFt f s).tele = s.tele := rfl
@[simp] theorem setFt_temps (f : FTime → FTime) (s : State) : (setFt f s).temps = s.temps := rfl
@[simp] theorem setFt_freeN (f : FTime → FTime) (s : State) : (setFt f s).freeN = s.freeN := rfl
@[simp] theorem setFt_out (f : FTime → FTime) (s : State) : (setFt f s).out = s.out := rfl
@[simp] theorem setFt_pending (f : FTime → FTime) (s : State) : (setFt f s).pending = s.pending := rfl
@[simp] theorem setFt_links (f : FTime → FTime) (s : State) : (setFt f s).links = s.links := rfl
@[simp] theorem setFt_bundle (f : FTime → FTime) (s : State) : (setFt f s).bundle = s.bundle := rfl
@[simp] theorem setFt_lastCmd (f : FTime → FTime) (s : State) : (setFt f s).lastCmd = s.lastCmd := rfl
@[simp] theorem setFt_rot (f : FTime → FTime) (s : State) : (setFt f s).rot = s.rot := rfl
@[simp] theorem setFt_hwSet (f : FTime → FTime) (s : State) : (setFt f s).hwSet = s.hwSet := rfl
@[simp] theorem setFt_incNow (f : FTime → FTime) (s : State) : (setFt f s).incNow = s.incNow := rfl

@[simp] theorem emit_dc (o : Output) (s : State) : (emit o s).dc = s.dc := rfl
@[simp] theorem emit_ft (o : Output) (s : State) : (emit o s).ft = s.ft := rfl
@[simp] theorem emit_boot (o : Output) (s : State) : (emit o s).boot = s.boot := rfl
@[simp] theorem emit_nv (o : Output) (s : State) : (emit o s).nv = s.nv := rfl
@[simp] theorem emit_ports (o : Output) (s : State) : (emit o s).ports = s.ports := rfl
@[simp] theorem emit_lanes (o : Output) (s : State) : (emit o s).lanes = s.lanes := rfl
@[simp] theorem emit_halls (o : Output) (s : State) : (emit o s).halls = s.halls := rfl
@[simp] theorem emit_cells (o : Output) (s : State) : (emit o s).cells = s.cells := rfl
@[simp] theorem emit_nextMid (o : Output) (s : State) : (emit o s).nextMid = s.nextMid := rfl
@[simp] theorem emit_routes (o : Output) (s : State) : (emit o s).routes = s.routes := rfl
@[simp] theorem emit_groups (o : Output) (s : State) : (emit o s).groups = s.groups := rfl
@[simp] theorem emit_coreQ (o : Output) (s : State) : (emit o s).coreQ = s.coreQ := rfl
@[simp] theorem emit_undrained (o : Output) (s : State) : (emit o s).undrained = s.undrained := rfl
@[simp] theorem emit_mcast (o : Output) (s : State) : (emit o s).mcast = s.mcast := rfl
@[simp] theorem emit_tree (o : Output) (s : State) : (emit o s).tree = s.tree := rfl
@[simp] theorem emit_qps (o : Output) (s : State) : (emit o s).qps = s.qps := rfl
@[simp] theorem emit_places (o : Output) (s : State) : (emit o s).places = s.places := rfl
@[simp] theorem emit_qcls (o : Output) (s : State) : (emit o s).qcls = s.qcls := rfl
@[simp] theorem emit_bays (o : Output) (s : State) : (emit o s).bays = s.bays := rfl
@[simp] theorem emit_sec (o : Output) (s : State) : (emit o s).sec = s.sec := rfl
@[simp] theorem emit_gn (o : Output) (s : State) : (emit o s).gn = s.gn := rfl
@[simp] theorem emit_stage (o : Output) (s : State) : (emit o s).stage = s.stage := rfl
@[simp] theorem emit_atr (o : Output) (s : State) : (emit o s).atr = s.atr := rfl
@[simp] theorem emit_nw (o : Output) (s : State) : (emit o s).nw = s.nw := rfl
@[simp] theorem emit_ops (o : Output) (s : State) : (emit o s).ops = s.ops := rfl
@[simp] theorem emit_tele (o : Output) (s : State) : (emit o s).tele = s.tele := rfl
@[simp] theorem emit_temps (o : Output) (s : State) : (emit o s).temps = s.temps := rfl
@[simp] theorem emit_freeN (o : Output) (s : State) : (emit o s).freeN = s.freeN := rfl
@[simp] theorem emit_out (o : Output) (s : State) : (emit o s).out = o :: s.out := rfl
@[simp] theorem emit_pending (o : Output) (s : State) : (emit o s).pending = s.pending := rfl
@[simp] theorem emit_links (o : Output) (s : State) : (emit o s).links = s.links := rfl
@[simp] theorem emit_bundle (o : Output) (s : State) : (emit o s).bundle = s.bundle := rfl
@[simp] theorem emit_lastCmd (o : Output) (s : State) : (emit o s).lastCmd = s.lastCmd := rfl
@[simp] theorem emit_rot (o : Output) (s : State) : (emit o s).rot = s.rot := rfl
@[simp] theorem emit_hwSet (o : Output) (s : State) : (emit o s).hwSet = s.hwSet := rfl
@[simp] theorem emit_incNow (o : Output) (s : State) : (emit o s).incNow = s.incNow := rfl

@[simp] theorem drawn_dc (s : State) : (drawn s).dc = s.dc := rfl
@[simp] theorem drawn_ft (s : State) : (drawn s).ft = s.ft := rfl
@[simp] theorem drawn_boot (s : State) : (drawn s).boot = s.boot := rfl
@[simp] theorem drawn_nv (s : State) : (drawn s).nv = s.nv := rfl
@[simp] theorem drawn_ports (s : State) : (drawn s).ports = s.ports := rfl
@[simp] theorem drawn_lanes (s : State) : (drawn s).lanes = s.lanes := rfl
@[simp] theorem drawn_halls (s : State) : (drawn s).halls = s.halls := rfl
@[simp] theorem drawn_cells (s : State) : (drawn s).cells = s.cells := rfl
@[simp] theorem drawn_nextMid (s : State) : (drawn s).nextMid = s.nextMid := rfl
@[simp] theorem drawn_routes (s : State) : (drawn s).routes = s.routes := rfl
@[simp] theorem drawn_groups (s : State) : (drawn s).groups = s.groups := rfl
@[simp] theorem drawn_coreQ (s : State) : (drawn s).coreQ = s.coreQ := rfl
@[simp] theorem drawn_undrained (s : State) : (drawn s).undrained = s.undrained := rfl
@[simp] theorem drawn_mcast (s : State) : (drawn s).mcast = s.mcast := rfl
@[simp] theorem drawn_tree (s : State) : (drawn s).tree = s.tree := rfl
@[simp] theorem drawn_qps (s : State) : (drawn s).qps = s.qps := rfl
@[simp] theorem drawn_places (s : State) : (drawn s).places = s.places := rfl
@[simp] theorem drawn_qcls (s : State) : (drawn s).qcls = s.qcls := rfl
@[simp] theorem drawn_bays (s : State) : (drawn s).bays = s.bays := rfl
@[simp] theorem drawn_sec (s : State) : (drawn s).sec = s.sec := rfl
@[simp] theorem drawn_gn (s : State) : (drawn s).gn = s.gn := rfl
@[simp] theorem drawn_stage (s : State) : (drawn s).stage = s.stage := rfl
@[simp] theorem drawn_atr (s : State) : (drawn s).atr = s.atr := rfl
@[simp] theorem drawn_nw (s : State) : (drawn s).nw = s.nw := rfl
@[simp] theorem drawn_ops (s : State) : (drawn s).ops = s.ops := rfl
@[simp] theorem drawn_tele (s : State) : (drawn s).tele = s.tele := rfl
@[simp] theorem drawn_temps (s : State) : (drawn s).temps = s.temps := rfl
@[simp] theorem drawn_freeN (s : State) : (drawn s).freeN = s.freeN + 1 := rfl
@[simp] theorem drawn_out (s : State) : (drawn s).out = s.out := rfl
@[simp] theorem drawn_pending (s : State) : (drawn s).pending = s.pending := rfl
@[simp] theorem drawn_links (s : State) : (drawn s).links = s.links := rfl
@[simp] theorem drawn_bundle (s : State) : (drawn s).bundle = s.bundle := rfl
@[simp] theorem drawn_lastCmd (s : State) : (drawn s).lastCmd = s.lastCmd := rfl
@[simp] theorem drawn_rot (s : State) : (drawn s).rot = s.rot := rfl
@[simp] theorem drawn_hwSet (s : State) : (drawn s).hwSet = s.hwSet := rfl
@[simp] theorem drawn_incNow (s : State) : (drawn s).incNow = s.incNow := rfl

end Sys2Proof.Machine
end

