-- ==== Sys2Proof/Laws/Tab.lean ====
section
/-! SUPPORT. The laws of sparse tables: read after write, and the canonical form that every table operation keeps. -/

namespace Sys2Proof.Machine

open Sys2Proof

variable {α : Type}

@[simp] theorem tget_nil (k : Nat) : tget ([] : Tab α) k = none := rfl

theorem tget_tset (t : Tab α) (k j : Nat) (v : α) : tget (tset t k v) j = if k = j then some v else tget t j := by
  induction t with
  | nil => simp [tset, tget]
  | cons e r ih =>
    obtain ⟨i, w⟩ := e
    unfold tset
    split
    · simp [tget]
    · split
      · subst k; simp only [tget]; split <;> simp_all
      · simp only [tget]
        split <;> split <;> simp_all

@[simp] theorem tget_tset_self (t : Tab α) (k : Nat) (v : α) : tget (tset t k v) k = some v := by simp [tget_tset]

theorem tget_tset_ne (t : Tab α) {k j : Nat} (v : α) (h : k ≠ j) : tget (tset t k v) j = tget t j := by
  simp [tget_tset, h]

theorem tget_tdel (t : Tab α) (k j : Nat) : tget (tdel t k) j = if k = j then none else tget t j := by
  unfold tdel
  induction t with
  | nil => simp [tget]
  | cons e r ih =>
    obtain ⟨i, w⟩ := e
    by_cases h : i = k
    · subst h; simp only [List.filter, bne_self_eq_false, ih, tget]; split <;> simp_all
    · have hb : (i != k) = true := by simp [h]
      simp only [List.filter, hb, tget, ih]
      split <;> split <;> simp_all

@[simp] theorem tget_tdel_self (t : Tab α) (k : Nat) : tget (tdel t k) k = none := by simp [tget_tdel]

theorem tget_tmod (t : Tab α) (k j : Nat) (f : α → α) :
    tget (tmod t k f) j = if k = j then (tget t k).map f else tget t j := by
  unfold tmod
  cases h : tget t k with
  | none => simp only [Option.map_none]; split <;> simp_all
  | some v => simp [tget_tset]

@[simp] theorem tget_tmod_self (t : Tab α) (k : Nat) (f : α → α) : tget (tmod t k f) k = (tget t k).map f := by
  simp [tget_tmod]

theorem tget_tmod_ne (t : Tab α) {k j : Nat} (f : α → α) (h : k ≠ j) : tget (tmod t k f) j = tget t j := by
  simp [tget_tmod, h]

/-- What an entry of a table may be read as by its number. -/
theorem tget_mem {t : Tab α} {k : Nat} {v : α} (h : tget t k = some v) : (k, v) ∈ t := by
  induction t with
  | nil => simp at h
  | cons e r ih =>
    obtain ⟨i, w⟩ := e
    unfold tget at h
    split at h
    · simp_all
    · exact List.mem_cons_of_mem _ (ih h)

/-- The first number of a canonical table is below the numbers after it. -/
theorem tabWf_head {k : Nat} {v : α} {r : Tab α} (h : tabWf ((k, v) :: r) = true) : ∀ e ∈ r, k < e.1 := by
  induction r generalizing k v with
  | nil => simp
  | cons e r ih =>
    obtain ⟨j, w⟩ := e
    simp only [tabWf, Bool.and_eq_true, decide_eq_true_eq] at h
    intro e he
    rcases List.mem_cons.1 he with rfl | he
    · exact h.1
    · exact Nat.lt_trans h.1 (ih h.2 e he)

theorem tabWf_tail {e : Nat × α} {r : Tab α} (h : tabWf (e :: r) = true) : tabWf r = true := by
  cases r with
  | nil => rfl
  | cons b r => obtain ⟨i, w⟩ := b; obtain ⟨j, v⟩ := e; simp_all [tabWf]

theorem tabWf_cons {k : Nat} {v : α} {r : Tab α} (hr : tabWf r = true) (h : ∀ e ∈ r, k < e.1) :
    tabWf ((k, v) :: r) = true := by
  cases r with
  | nil => rfl
  | cons e r => obtain ⟨j, w⟩ := e; simp [tabWf, hr, h (j, w) (by simp)]

theorem tset_mem {t : Tab α} {k : Nat} {v : α} {e : Nat × α} (h : e ∈ tset t k v) : e = (k, v) ∨ e ∈ t := by
  induction t with
  | nil => simpa [tset] using h
  | cons b r ih =>
    obtain ⟨j, w⟩ := b
    unfold tset at h
    split at h
    · simpa using h
    · split at h
      · rcases List.mem_cons.1 h with h | h
        · exact .inl h
        · exact .inr (List.mem_cons_of_mem _ h)
      · rcases List.mem_cons.1 h with h | h
        · exact .inr (by simp [h])
        · exact (ih h).imp id (List.mem_cons_of_mem _)

theorem tabWf_tset {t : Tab α} (k : Nat) (v : α) (h : tabWf t = true) : tabWf (tset t k v) = true := by
  induction t with
  | nil => rfl
  | cons b r ih =>
    obtain ⟨j, w⟩ := b
    unfold tset
    split
    · rename_i hk
      exact tabWf_cons h fun e he => by
        rcases List.mem_cons.1 he with rfl | he
        · exact hk
        · exact Nat.lt_trans hk (tabWf_head h e he)
    · split
      · subst k; exact tabWf_cons (tabWf_tail h) (tabWf_head h)
      · rename_i h1 h2
        exact tabWf_cons (ih (tabWf_tail h)) fun e he => by
          rcases tset_mem he with rfl | he
          · show j < k
            omega
          · exact tabWf_head h e he

theorem tabWf_filter {t : Tab α} (f : Nat × α → Bool) (h : tabWf t = true) : tabWf (t.filter f) = true := by
  induction t with
  | nil => rfl
  | cons b r ih =>
    obtain ⟨j, w⟩ := b
    simp only [List.filter]
    split
    · exact tabWf_cons (ih (tabWf_tail h)) fun e he => tabWf_head h e (List.mem_of_mem_filter he)
    · exact ih (tabWf_tail h)

theorem tabWf_tdel {t : Tab α} (k : Nat) (h : tabWf t = true) : tabWf (tdel t k) = true := tabWf_filter _ h
theorem tabWf_tfilter {t : Tab α} (f : Nat → α → Bool) (h : tabWf t = true) : tabWf (tfilter t f) = true := tabWf_filter _ h

theorem tabWf_tmod {t : Tab α} (k : Nat) (f : α → α) (h : tabWf t = true) : tabWf (tmod t k f) = true := by
  unfold tmod; split
  · exact tabWf_tset k _ h
  · exact h

theorem tabWf_tmap {β : Type} {t : Tab α} (f : Nat → α → β) (h : tabWf t = true) : tabWf (tmap t f) = true := by
  unfold tmap
  induction t with
  | nil => rfl
  | cons b r ih =>
    obtain ⟨j, w⟩ := b
    simp only [List.map_cons]
    refine tabWf_cons (ih (tabWf_tail h)) fun e he => ?_
    obtain ⟨x, hx, rfl⟩ := List.mem_map.1 he
    exact tabWf_head h x hx

theorem tabWf_tbump {t : Tab Nat} (k n : Nat) (h : tabWf t = true) : tabWf (tbump t k n) = true := tabWf_tset k _ h

theorem tget_tmap {β : Type} (t : Tab α) (f : Nat → α → β) (k : Nat) : tget (tmap t f) k = (tget t k).map (f k) := by
  unfold tmap
  induction t with
  | nil => rfl
  | cons e r ih =>
    obtain ⟨j, w⟩ := e
    simp only [List.map_cons, tget, ih]
    split
    · subst j; rfl
    · rfl

end Sys2Proof.Machine
end

