-- ==== Sys2Proof/Laws/Ops.lean ====
section
/-! SUPPORT. What each shared operation leaves unchanged, and what it writes. -/

namespace Sys2Proof.Machine

open Sys2Proof

theorem act_live {s : State} (h : live s = true) (f : State → State) : act s f = .next (f s) := by simp [act, h]
theorem act_idle {s : State} (h : live s = false) (f : State → State) : act s f = .next s := by simp [act, h]

theorem live_boot {s : State} (h : live s = true) :
    s.boot.por = false ∧ s.boot.pll = true ∧ s.boot.atr = true ∧ s.boot.basalt = false := by
  simpa [live, and_assoc] using h

theorem getPort_setPort (s : State) (p j : Nat) (f : Port → Port) :
    getPort (setPort p f s) j = if p = j then (getPort s p).map f else getPort s j := by
  simp [getPort, tget_tmod]
@[simp] theorem getPort_setPort_self (s : State) (p : Nat) (f : Port → Port) :
    getPort (setPort p f s) p = (getPort s p).map f := by simp [getPort]
@[simp] theorem getPort_setStd_self (s : State) (p : Nat) (f : Std → Std) :
    getPort (setStd p f s) p = (getPort s p).map fun q => { q with std := f q.std } := by simp [setStd]
@[simp] theorem getPort_setSpan_self (s : State) (p : Nat) (f : Span → Span) :
    getPort (setSpan p f s) p = (getPort s p).map fun q => { q with span := f q.span } := by simp [setSpan]
@[simp] theorem getPort_setScfg_self (s : State) (p : Nat) (f : SpanCfg → SpanCfg) :
    getPort (setScfg p f s) p = (getPort s p).map fun q => { q with scfg := f q.scfg } := by simp [setScfg]
@[simp] theorem getPort_setSched_self (s : State) (p : Nat) (f : Sched → Sched) :
    getPort (setSched p f s) p = (getPort s p).map fun q => { q with sched := f q.sched } := by simp [setSched]

@[simp] theorem getLane_setLane_self (s : State) (l : Nat) (f : Lane → Lane) :
    getLane (setLane l f s) l = f (getLane s l) := by simp [getLane, setLane, tgetD]
@[simp] theorem getHall_setHall_self (s : State) (h : Nat) (f : Hall → Hall) :
    getHall (setHall h f s) h = f (getHall s h) := by simp [getHall, setHall, tgetD]
@[simp] theorem leafQ_setLeafQ_self (h l : Nat) (x : List QItem) (s : State) : leafQ (setLeafQ h l x s) h l = x := by
  unfold leafQ setLeafQ
  simp only [getHall_setHall_self]
  split
  · simp_all [tgetD]
  · simp [tgetD]
@[simp] theorem getEngine_setEngine_self (s : State) (e : Nat) (f : Engine → Engine) :
    getEngine (setEngine e f s) e = f (getEngine s e) := by simp [getEngine, setEngine, tgetD]
@[simp] theorem getMpu_setMpu_self (s : State) (m : Nat) (f : Mpu → Mpu) :
    getMpu (setMpu m f s) m = f (getMpu s m) := by simp [getMpu, setMpu, tgetD]
@[simp] theorem getChan_setChan_self (s : State) (c : Nat) (f : Chan → Chan) :
    getChan (setChan c f s) c = f (getChan s c) := by simp [getChan, setChan, tgetD]
@[simp] theorem getFeed_setFeed_self (s : State) (k : Nat) (f : Feed → Feed) :
    getFeed (setFeed k f s) k = f (getFeed s k) := by simp [getFeed, setFeed, tgetD]
@[simp] theorem bays_setBay_self (s : State) (b : Nat) (f : Bay → Bay) :
    tget (setBay b f s).bays b = (tget s.bays b).map f := by simp
@[simp] theorem qps_setQp_self (s : State) (n : Nat) (f : Qp → Qp) :
    tget (setQp n f s).qps n = (tget s.qps n).map f := by simp

@[simp] theorem fire_dc (a c b d : Nat) (s : State) : (fire a c b d s).dc = s.dc := by unfold fire; split <;> rfl
@[simp] theorem fire_ft (a c b d : Nat) (s : State) : (fire a c b d s).ft = s.ft := by unfold fire; split <;> rfl
@[simp] theorem fire_boot (a c b d : Nat) (s : State) : (fire a c b d s).boot = s.boot := by unfold fire; split <;> rfl
@[simp] theorem fire_nv (a c b d : Nat) (s : State) : (fire a c b d s).nv = s.nv := by unfold fire; split <;> rfl
@[simp] theorem fire_ports (a c b d : Nat) (s : State) : (fire a c b d s).ports = s.ports := by unfold fire; split <;> rfl
@[simp] theorem fire_lanes (a c b d : Nat) (s : State) : (fire a c b d s).lanes = s.lanes := by unfold fire; split <;> rfl
@[simp] theorem fire_halls (a c b d : Nat) (s : State) : (fire a c b d s).halls = s.halls := by unfold fire; split <;> rfl
@[simp] theorem fire_cells (a c b d : Nat) (s : State) : (fire a c b d s).cells = s.cells := by unfold fire; split <;> rfl
@[simp] theorem fire_nextMid (a c b d : Nat) (s : State) : (fire a c b d s).nextMid = s.nextMid := by unfold fire; split <;> rfl
@[simp] theorem fire_routes (a c b d : Nat) (s : State) : (fire a c b d s).routes = s.routes := by unfold fire; split <;> rfl
@[simp] theorem fire_groups (a c b d : Nat) (s : State) : (fire a c b d s).groups = s.groups := by unfold fire; split <;> rfl
@[simp] theorem fire_coreQ (a c b d : Nat) (s : State) : (fire a c b d s).coreQ = s.coreQ := by unfold fire; split <;> rfl
@[simp] theorem fire_undrained (a c b d : Nat) (s : State) : (fire a c b d s).undrained = s.undrained := by unfold fire; split <;> rfl
@[simp] theorem fire_mcast (a c b d : Nat) (s : State) : (fire a c b d s).mcast = s.mcast := by unfold fire; split <;> rfl
@[simp] theorem fire_tree (a c b d : Nat) (s : State) : (fire a c b d s).tree = s.tree := by unfold fire; split <;> rfl
@[simp] theorem fire_qps (a c b d : Nat) (s : State) : (fire a c b d s).qps = s.qps := by unfold fire; split <;> rfl
@[simp] theorem fire_places (a c b d : Nat) (s : State) : (fire a c b d s).places = s.places := by unfold fire; split <;> rfl
@[simp] theorem fire_qcls (a c b d : Nat) (s : State) : (fire a c b d s).qcls = s.qcls := by unfold fire; split <;> rfl
@[simp] theorem fire_bays (a c b d : Nat) (s : State) : (fire a c b d s).bays = s.bays := by unfold fire; split <;> rfl
@[simp] theorem fire_sec (a c b d : Nat) (s : State) : (fire a c b d s).sec = s.sec := by unfold fire; split <;> rfl
@[simp] theorem fire_gn (a c b d : Nat) (s : State) : (fire a c b d s).gn = s.gn := by unfold fire; split <;> rfl
@[simp] theorem fire_stage (a c b d : Nat) (s : State) : (fire a c b d s).stage = s.stage := by unfold fire; split <;> rfl
@[simp] theorem fire_nw (a c b d : Nat) (s : State) : (fire a c b d s).nw = s.nw := by unfold fire; split <;> rfl
@[simp] theorem fire_ops (a c b d : Nat) (s : State) : (fire a c b d s).ops = s.ops := by unfold fire; split <;> rfl
@[simp] theorem fire_tele (a c b d : Nat) (s : State) : (fire a c b d s).tele = s.tele := by unfold fire; split <;> rfl
@[simp] theorem fire_temps (a c b d : Nat) (s : State) : (fire a c b d s).temps = s.temps := by unfold fire; split <;> rfl
@[simp] theorem fire_freeN (a c b d : Nat) (s : State) : (fire a c b d s).freeN = s.freeN := by unfold fire; split <;> rfl
@[simp] theorem fire_out (a c b d : Nat) (s : State) : (fire a c b d s).out = s.out := by unfold fire; split <;> rfl
@[simp] theorem fire_pending (a c b d : Nat) (s : State) : (fire a c b d s).pending = s.pending := by unfold fire; split <;> rfl
@[simp] theorem fire_links (a c b d : Nat) (s : State) : (fire a c b d s).links = s.links := by unfold fire; split <;> rfl
@[simp] theorem fire_bundle (a c b d : Nat) (s : State) : (fire a c b d s).bundle = s.bundle := by unfold fire; split <;> rfl
@[simp] theorem fire_lastCmd (a c b d : Nat) (s : State) : (fire a c b d s).lastCmd = s.lastCmd := by unfold fire; split <;> rfl
@[simp] theorem fire_rot (a c b d : Nat) (s : State) : (fire a c b d s).rot = s.rot := by unfold fire; split <;> rfl
@[simp] theorem fire_hwSet (a c b d : Nat) (s : State) : (fire a c b d s).hwSet = s.hwSet := by unfold fire; split <;> rfl
@[simp] theorem fire_incNow (a c b d : Nat) (s : State) : (fire a c b d s).incNow = s.incNow := by unfold fire; split <;> rfl

@[simp] theorem clockTo_boot (d : Nat) (s : State) : (clockTo d s).boot = s.boot := by unfold clockTo; split <;> rfl
@[simp] theorem clockTo_nv (d : Nat) (s : State) : (clockTo d s).nv = s.nv := by unfold clockTo; split <;> rfl
@[simp] theorem clockTo_ports (d : Nat) (s : State) : (clockTo d s).ports = s.ports := by unfold clockTo; split <;> rfl
@[simp] theorem clockTo_lanes (d : Nat) (s : State) : (clockTo d s).lanes = s.lanes := by unfold clockTo; split <;> rfl
@[simp] theorem clockTo_halls (d : Nat) (s : State) : (clockTo d s).halls = s.halls := by unfold clockTo; split <;> rfl
@[simp] theorem clockTo_cells (d : Nat) (s : State) : (clockTo d s).cells = s.cells := by unfold clockTo; split <;> rfl
@[simp] theorem clockTo_nextMid (d : Nat) (s : State) : (clockTo d s).nextMid = s.nextMid := by unfold clockTo; split <;> rfl
@[simp] theorem clockTo_routes (d : Nat) (s : State) : (clockTo d s).routes = s.routes := by unfold clockTo; split <;> rfl
@[simp] theorem clockTo_groups (d : Nat) (s : State) : (clockTo d s).groups = s.groups := by unfold clockTo; split <;> rfl
@[simp] theorem clockTo_coreQ (d : Nat) (s : State) : (clockTo d s).coreQ = s.coreQ := by unfold clockTo; split <;> rfl
@[simp] theorem clockTo_undrained (d : Nat) (s : State) : (clockTo d s).undrained = s.undrained := by unfold clockTo; split <;> rfl
@[simp] theorem clockTo_mcast (d : Nat) (s : State) : (clockTo d s).mcast = s.mcast := by unfold clockTo; split <;> rfl
@[simp] theorem clockTo_tree (d : Nat) (s : State) : (clockTo d s).tree = s.tree := by unfold clockTo; split <;> rfl
@[simp] theorem clockTo_qps (d : Nat) (s : State) : (clockTo d s).qps = s.qps := by unfold clockTo; split <;> rfl
@[simp] theorem clockTo_places (d : Nat) (s : State) : (clockTo d s).places = s.places := by unfold clockTo; split <;> rfl
@[simp] theorem clockTo_qcls (d : Nat) (s : State) : (clockTo d s).qcls = s.qcls := by unfold clockTo; split <;> rfl
@[simp] theorem clockTo_bays (d : Nat) (s : State) : (clockTo d s).bays = s.bays := by unfold clockTo; split <;> rfl
@[simp] theorem clockTo_sec (d : Nat) (s : State) : (clockTo d s).sec = s.sec := by unfold clockTo; split <;> rfl
@[simp] theorem clockTo_gn (d : Nat) (s : State) : (clockTo d s).gn = s.gn := by unfold clockTo; split <;> rfl
@[simp] theorem clockTo_stage (d : Nat) (s : State) : (clockTo d s).stage = s.stage := by unfold clockTo; split <;> rfl
@[simp] theorem clockTo_atr (d : Nat) (s : State) : (clockTo d s).atr = s.atr := by unfold clockTo; split <;> rfl
@[simp] theorem clockTo_nw (d : Nat) (s : State) : (clockTo d s).nw = s.nw := by unfold clockTo; split <;> rfl
@[simp] theorem clockTo_ops (d : Nat) (s : State) : (clockTo d s).ops = s.ops := by unfold clockTo; split <;> rfl
@[simp] theorem clockTo_tele (d : Nat) (s : State) : (clockTo d s).tele = s.tele := by unfold clockTo; split <;> rfl
@[simp] theorem clockTo_temps (d : Nat) (s : State) : (clockTo d s).temps = s.temps := by unfold clockTo; split <;> rfl
@[simp] theorem clockTo_freeN (d : Nat) (s : State) : (clockTo d s).freeN = s.freeN := by unfold clockTo; split <;> rfl
@[simp] theorem clockTo_out (d : Nat) (s : State) : (clockTo d s).out = s.out := by unfold clockTo; split <;> rfl
@[simp] theorem clockTo_pending (d : Nat) (s : State) : (clockTo d s).pending = s.pending := by unfold clockTo; split <;> rfl
@[simp] theorem clockTo_links (d : Nat) (s : State) : (clockTo d s).links = s.links := by unfold clockTo; split <;> rfl
@[simp] theorem clockTo_bundle (d : Nat) (s : State) : (clockTo d s).bundle = s.bundle := by unfold clockTo; split <;> rfl
@[simp] theorem clockTo_lastCmd (d : Nat) (s : State) : (clockTo d s).lastCmd = s.lastCmd := by unfold clockTo; split <;> rfl
@[simp] theorem clockTo_rot (d : Nat) (s : State) : (clockTo d s).rot = s.rot := by unfold clockTo; split <;> rfl
@[simp] theorem clockTo_hwSet (d : Nat) (s : State) : (clockTo d s).hwSet = s.hwSet := by unfold clockTo; split <;> rfl
@[simp] theorem clockTo_incNow (d : Nat) (s : State) : (clockTo d s).incNow = s.incNow := by unfold clockTo; split <;> rfl

@[simp] theorem fireDegr_dc (p c : Nat) (s : State) : (fireDegr p c s).dc = s.dc := by simp [fireDegr]
@[simp] theorem fireDegr_ft (p c : Nat) (s : State) : (fireDegr p c s).ft = s.ft := by simp [fireDegr]
@[simp] theorem fireDegr_boot (p c : Nat) (s : State) : (fireDegr p c s).boot = s.boot := by simp [fireDegr]
@[simp] theorem fireDegr_nv (p c : Nat) (s : State) : (fireDegr p c s).nv = s.nv := by simp [fireDegr]
@[simp] theorem fireDegr_ports (p c : Nat) (s : State) : (fireDegr p c s).ports = s.ports := by simp [fireDegr]
@[simp] theorem fireDegr_lanes (p c : Nat) (s : State) : (fireDegr p c s).lanes = s.lanes := by simp [fireDegr]
@[simp] theorem fireDegr_halls (p c : Nat) (s : State) : (fireDegr p c s).halls = s.halls := by simp [fireDegr]
@[simp] theorem fireDegr_cells (p c : Nat) (s : State) : (fireDegr p c s).cells = s.cells := by simp [fireDegr]
@[simp] theorem fireDegr_nextMid (p c : Nat) (s : State) : (fireDegr p c s).nextMid = s.nextMid := by simp [fireDegr]
@[simp] theorem fireDegr_routes (p c : Nat) (s : State) : (fireDegr p c s).routes = s.routes := by simp [fireDegr]
@[simp] theorem fireDegr_groups (p c : Nat) (s : State) : (fireDegr p c s).groups = s.groups := by simp [fireDegr]
@[simp] theorem fireDegr_coreQ (p c : Nat) (s : State) : (fireDegr p c s).coreQ = s.coreQ := by simp [fireDegr]
@[simp] theorem fireDegr_undrained (p c : Nat) (s : State) : (fireDegr p c s).undrained = s.undrained := by simp [fireDegr]
@[simp] theorem fireDegr_mcast (p c : Nat) (s : State) : (fireDegr p c s).mcast = s.mcast := by simp [fireDegr]
@[simp] theorem fireDegr_tree (p c : Nat) (s : State) : (fireDegr p c s).tree = s.tree := by simp [fireDegr]
@[simp] theorem fireDegr_qps (p c : Nat) (s : State) : (fireDegr p c s).qps = s.qps := by simp [fireDegr]
@[simp] theorem fireDegr_places (p c : Nat) (s : State) : (fireDegr p c s).places = s.places := by simp [fireDegr]
@[simp] theorem fireDegr_qcls (p c : Nat) (s : State) : (fireDegr p c s).qcls = s.qcls := by simp [fireDegr]
@[simp] theorem fireDegr_bays (p c : Nat) (s : State) : (fireDegr p c s).bays = s.bays := by simp [fireDegr]
@[simp] theorem fireDegr_sec (p c : Nat) (s : State) : (fireDegr p c s).sec = s.sec := by simp [fireDegr]
@[simp] theorem fireDegr_gn (p c : Nat) (s : State) : (fireDegr p c s).gn = s.gn := by simp [fireDegr]
@[simp] theorem fireDegr_stage (p c : Nat) (s : State) : (fireDegr p c s).stage = s.stage := by simp [fireDegr]
@[simp] theorem fireDegr_nw (p c : Nat) (s : State) : (fireDegr p c s).nw = s.nw := by simp [fireDegr]
@[simp] theorem fireDegr_ops (p c : Nat) (s : State) : (fireDegr p c s).ops = s.ops := by simp [fireDegr]
@[simp] theorem fireDegr_tele (p c : Nat) (s : State) : (fireDegr p c s).tele = s.tele := by simp [fireDegr]
@[simp] theorem fireDegr_temps (p c : Nat) (s : State) : (fireDegr p c s).temps = s.temps := by simp [fireDegr]
@[simp] theorem fireDegr_freeN (p c : Nat) (s : State) : (fireDegr p c s).freeN = s.freeN := by simp [fireDegr]
@[simp] theorem fireDegr_out (p c : Nat) (s : State) : (fireDegr p c s).out = s.out := by simp [fireDegr]
@[simp] theorem fireDegr_pending (p c : Nat) (s : State) : (fireDegr p c s).pending = s.pending := by simp [fireDegr]
@[simp] theorem fireDegr_links (p c : Nat) (s : State) : (fireDegr p c s).links = s.links := by simp [fireDegr]
@[simp] theorem fireDegr_bundle (p c : Nat) (s : State) : (fireDegr p c s).bundle = s.bundle := by simp [fireDegr]
@[simp] theorem fireDegr_lastCmd (p c : Nat) (s : State) : (fireDegr p c s).lastCmd = s.lastCmd := by simp [fireDegr]
@[simp] theorem fireDegr_rot (p c : Nat) (s : State) : (fireDegr p c s).rot = s.rot := by simp [fireDegr]
@[simp] theorem fireDegr_hwSet (p c : Nat) (s : State) : (fireDegr p c s).hwSet = s.hwSet := by simp [fireDegr]
@[simp] theorem fireDegr_incNow (p c : Nat) (s : State) : (fireDegr p c s).incNow = s.incNow := by simp [fireDegr]

@[simp] theorem firePipe_dc (p c : Nat) (s : State) : (firePipe p c s).dc = s.dc := by simp [firePipe]
@[simp] theorem firePipe_ft (p c : Nat) (s : State) : (firePipe p c s).ft = s.ft := by simp [firePipe]
@[simp] theorem firePipe_boot (p c : Nat) (s : State) : (firePipe p c s).boot = s.boot := by simp [firePipe]
@[simp] theorem firePipe_nv (p c : Nat) (s : State) : (firePipe p c s).nv = s.nv := by simp [firePipe]
@[simp] theorem firePipe_ports (p c : Nat) (s : State) : (firePipe p c s).ports = s.ports := by simp [firePipe]
@[simp] theorem firePipe_lanes (p c : Nat) (s : State) : (firePipe p c s).lanes = s.lanes := by simp [firePipe]
@[simp] theorem firePipe_halls (p c : Nat) (s : State) : (firePipe p c s).halls = s.halls := by simp [firePipe]
@[simp] theorem firePipe_cells (p c : Nat) (s : State) : (firePipe p c s).cells = s.cells := by simp [firePipe]
@[simp] theorem firePipe_nextMid (p c : Nat) (s : State) : (firePipe p c s).nextMid = s.nextMid := by simp [firePipe]
@[simp] theorem firePipe_routes (p c : Nat) (s : State) : (firePipe p c s).routes = s.routes := by simp [firePipe]
@[simp] theorem firePipe_groups (p c : Nat) (s : State) : (firePipe p c s).groups = s.groups := by simp [firePipe]
@[simp] theorem firePipe_coreQ (p c : Nat) (s : State) : (firePipe p c s).coreQ = s.coreQ := by simp [firePipe]
@[simp] theorem firePipe_undrained (p c : Nat) (s : State) : (firePipe p c s).undrained = s.undrained := by simp [firePipe]
@[simp] theorem firePipe_mcast (p c : Nat) (s : State) : (firePipe p c s).mcast = s.mcast := by simp [firePipe]
@[simp] theorem firePipe_tree (p c : Nat) (s : State) : (firePipe p c s).tree = s.tree := by simp [firePipe]
@[simp] theorem firePipe_qps (p c : Nat) (s : State) : (firePipe p c s).qps = s.qps := by simp [firePipe]
@[simp] theorem firePipe_places (p c : Nat) (s : State) : (firePipe p c s).places = s.places := by simp [firePipe]
@[simp] theorem firePipe_qcls (p c : Nat) (s : State) : (firePipe p c s).qcls = s.qcls := by simp [firePipe]
@[simp] theorem firePipe_bays (p c : Nat) (s : State) : (firePipe p c s).bays = s.bays := by simp [firePipe]
@[simp] theorem firePipe_sec (p c : Nat) (s : State) : (firePipe p c s).sec = s.sec := by simp [firePipe]
@[simp] theorem firePipe_gn (p c : Nat) (s : State) : (firePipe p c s).gn = s.gn := by simp [firePipe]
@[simp] theorem firePipe_stage (p c : Nat) (s : State) : (firePipe p c s).stage = s.stage := by simp [firePipe]
@[simp] theorem firePipe_nw (p c : Nat) (s : State) : (firePipe p c s).nw = s.nw := by simp [firePipe]
@[simp] theorem firePipe_ops (p c : Nat) (s : State) : (firePipe p c s).ops = s.ops := by simp [firePipe]
@[simp] theorem firePipe_tele (p c : Nat) (s : State) : (firePipe p c s).tele = s.tele := by simp [firePipe]
@[simp] theorem firePipe_temps (p c : Nat) (s : State) : (firePipe p c s).temps = s.temps := by simp [firePipe]
@[simp] theorem firePipe_freeN (p c : Nat) (s : State) : (firePipe p c s).freeN = s.freeN := by simp [firePipe]
@[simp] theorem firePipe_out (p c : Nat) (s : State) : (firePipe p c s).out = s.out := by simp [firePipe]
@[simp] theorem firePipe_pending (p c : Nat) (s : State) : (firePipe p c s).pending = s.pending := by simp [firePipe]
@[simp] theorem firePipe_links (p c : Nat) (s : State) : (firePipe p c s).links = s.links := by simp [firePipe]
@[simp] theorem firePipe_bundle (p c : Nat) (s : State) : (firePipe p c s).bundle = s.bundle := by simp [firePipe]
@[simp] theorem firePipe_lastCmd (p c : Nat) (s : State) : (firePipe p c s).lastCmd = s.lastCmd := by simp [firePipe]
@[simp] theorem firePipe_rot (p c : Nat) (s : State) : (firePipe p c s).rot = s.rot := by simp [firePipe]
@[simp] theorem firePipe_hwSet (p c : Nat) (s : State) : (firePipe p c s).hwSet = s.hwSet := by simp [firePipe]
@[simp] theorem firePipe_incNow (p c : Nat) (s : State) : (firePipe p c s).incNow = s.incNow := by simp [firePipe]

@[simp] theorem fireNewel_dc (p c : Nat) (s : State) : (fireNewel p c s).dc = s.dc := by simp [fireNewel]
@[simp] theorem fireNewel_ft (p c : Nat) (s : State) : (fireNewel p c s).ft = s.ft := by simp [fireNewel]
@[simp] theorem fireNewel_boot (p c : Nat) (s : State) : (fireNewel p c s).boot = s.boot := by simp [fireNewel]
@[simp] theorem fireNewel_nv (p c : Nat) (s : State) : (fireNewel p c s).nv = s.nv := by simp [fireNewel]
@[simp] theorem fireNewel_ports (p c : Nat) (s : State) : (fireNewel p c s).ports = s.ports := by simp [fireNewel]
@[simp] theorem fireNewel_lanes (p c : Nat) (s : State) : (fireNewel p c s).lanes = s.lanes := by simp [fireNewel]
@[simp] theorem fireNewel_halls (p c : Nat) (s : State) : (fireNewel p c s).halls = s.halls := by simp [fireNewel]
@[simp] theorem fireNewel_cells (p c : Nat) (s : State) : (fireNewel p c s).cells = s.cells := by simp [fireNewel]
@[simp] theorem fireNewel_nextMid (p c : Nat) (s : State) : (fireNewel p c s).nextMid = s.nextMid := by simp [fireNewel]
@[simp] theorem fireNewel_routes (p c : Nat) (s : State) : (fireNewel p c s).routes = s.routes := by simp [fireNewel]
@[simp] theorem fireNewel_groups (p c : Nat) (s : State) : (fireNewel p c s).groups = s.groups := by simp [fireNewel]
@[simp] theorem fireNewel_coreQ (p c : Nat) (s : State) : (fireNewel p c s).coreQ = s.coreQ := by simp [fireNewel]
@[simp] theorem fireNewel_undrained (p c : Nat) (s : State) : (fireNewel p c s).undrained = s.undrained := by simp [fireNewel]
@[simp] theorem fireNewel_mcast (p c : Nat) (s : State) : (fireNewel p c s).mcast = s.mcast := by simp [fireNewel]
@[simp] theorem fireNewel_tree (p c : Nat) (s : State) : (fireNewel p c s).tree = s.tree := by simp [fireNewel]
@[simp] theorem fireNewel_qps (p c : Nat) (s : State) : (fireNewel p c s).qps = s.qps := by simp [fireNewel]
@[simp] theorem fireNewel_places (p c : Nat) (s : State) : (fireNewel p c s).places = s.places := by simp [fireNewel]
@[simp] theorem fireNewel_qcls (p c : Nat) (s : State) : (fireNewel p c s).qcls = s.qcls := by simp [fireNewel]
@[simp] theorem fireNewel_bays (p c : Nat) (s : State) : (fireNewel p c s).bays = s.bays := by simp [fireNewel]
@[simp] theorem fireNewel_sec (p c : Nat) (s : State) : (fireNewel p c s).sec = s.sec := by simp [fireNewel]
@[simp] theorem fireNewel_gn (p c : Nat) (s : State) : (fireNewel p c s).gn = s.gn := by simp [fireNewel]
@[simp] theorem fireNewel_stage (p c : Nat) (s : State) : (fireNewel p c s).stage = s.stage := by simp [fireNewel]
@[simp] theorem fireNewel_nw (p c : Nat) (s : State) : (fireNewel p c s).nw = s.nw := by simp [fireNewel]
@[simp] theorem fireNewel_ops (p c : Nat) (s : State) : (fireNewel p c s).ops = s.ops := by simp [fireNewel]
@[simp] theorem fireNewel_tele (p c : Nat) (s : State) : (fireNewel p c s).tele = s.tele := by simp [fireNewel]
@[simp] theorem fireNewel_temps (p c : Nat) (s : State) : (fireNewel p c s).temps = s.temps := by simp [fireNewel]
@[simp] theorem fireNewel_freeN (p c : Nat) (s : State) : (fireNewel p c s).freeN = s.freeN := by simp [fireNewel]
@[simp] theorem fireNewel_out (p c : Nat) (s : State) : (fireNewel p c s).out = s.out := by simp [fireNewel]
@[simp] theorem fireNewel_pending (p c : Nat) (s : State) : (fireNewel p c s).pending = s.pending := by simp [fireNewel]
@[simp] theorem fireNewel_links (p c : Nat) (s : State) : (fireNewel p c s).links = s.links := by simp [fireNewel]
@[simp] theorem fireNewel_bundle (p c : Nat) (s : State) : (fireNewel p c s).bundle = s.bundle := by simp [fireNewel]
@[simp] theorem fireNewel_lastCmd (p c : Nat) (s : State) : (fireNewel p c s).lastCmd = s.lastCmd := by simp [fireNewel]
@[simp] theorem fireNewel_rot (p c : Nat) (s : State) : (fireNewel p c s).rot = s.rot := by simp [fireNewel]
@[simp] theorem fireNewel_hwSet (p c : Nat) (s : State) : (fireNewel p c s).hwSet = s.hwSet := by simp [fireNewel]
@[simp] theorem fireNewel_incNow (p c : Nat) (s : State) : (fireNewel p c s).incNow = s.incNow := by simp [fireNewel]

@[simp] theorem bumpPort_dc (p a n : Nat) (s : State) : (bumpPort p a n s).dc = s.dc := by rfl
@[simp] theorem bumpPort_ft (p a n : Nat) (s : State) : (bumpPort p a n s).ft = s.ft := by rfl
@[simp] theorem bumpPort_boot (p a n : Nat) (s : State) : (bumpPort p a n s).boot = s.boot := by rfl
@[simp] theorem bumpPort_nv (p a n : Nat) (s : State) : (bumpPort p a n s).nv = s.nv := by rfl
@[simp] theorem bumpPort_lanes (p a n : Nat) (s : State) : (bumpPort p a n s).lanes = s.lanes := by rfl
@[simp] theorem bumpPort_halls (p a n : Nat) (s : State) : (bumpPort p a n s).halls = s.halls := by rfl
@[simp] theorem bumpPort_cells (p a n : Nat) (s : State) : (bumpPort p a n s).cells = s.cells := by rfl
@[simp] theorem bumpPort_nextMid (p a n : Nat) (s : State) : (bumpPort p a n s).nextMid = s.nextMid := by rfl
@[simp] theorem bumpPort_routes (p a n : Nat) (s : State) : (bumpPort p a n s).routes = s.routes := by rfl
@[simp] theorem bumpPort_groups (p a n : Nat) (s : State) : (bumpPort p a n s).groups = s.groups := by rfl
@[simp] theorem bumpPort_coreQ (p a n : Nat) (s : State) : (bumpPort p a n s).coreQ = s.coreQ := by rfl
@[simp] theorem bumpPort_undrained (p a n : Nat) (s : State) : (bumpPort p a n s).undrained = s.undrained := by rfl
@[simp] theorem bumpPort_mcast (p a n : Nat) (s : State) : (bumpPort p a n s).mcast = s.mcast := by rfl
@[simp] theorem bumpPort_tree (p a n : Nat) (s : State) : (bumpPort p a n s).tree = s.tree := by rfl
@[simp] theorem bumpPort_qps (p a n : Nat) (s : State) : (bumpPort p a n s).qps = s.qps := by rfl
@[simp] theorem bumpPort_places (p a n : Nat) (s : State) : (bumpPort p a n s).places = s.places := by rfl
@[simp] theorem bumpPort_qcls (p a n : Nat) (s : State) : (bumpPort p a n s).qcls = s.qcls := by rfl
@[simp] theorem bumpPort_bays (p a n : Nat) (s : State) : (bumpPort p a n s).bays = s.bays := by rfl
@[simp] theorem bumpPort_sec (p a n : Nat) (s : State) : (bumpPort p a n s).sec = s.sec := by rfl
@[simp] theorem bumpPort_gn (p a n : Nat) (s : State) : (bumpPort p a n s).gn = s.gn := by rfl
@[simp] theorem bumpPort_stage (p a n : Nat) (s : State) : (bumpPort p a n s).stage = s.stage := by rfl
@[simp] theorem bumpPort_atr (p a n : Nat) (s : State) : (bumpPort p a n s).atr = s.atr := by rfl
@[simp] theorem bumpPort_nw (p a n : Nat) (s : State) : (bumpPort p a n s).nw = s.nw := by rfl
@[simp] theorem bumpPort_ops (p a n : Nat) (s : State) : (bumpPort p a n s).ops = s.ops := by rfl
@[simp] theorem bumpPort_tele (p a n : Nat) (s : State) : (bumpPort p a n s).tele = s.tele := by rfl
@[simp] theorem bumpPort_temps (p a n : Nat) (s : State) : (bumpPort p a n s).temps = s.temps := by rfl
@[simp] theorem bumpPort_freeN (p a n : Nat) (s : State) : (bumpPort p a n s).freeN = s.freeN := by rfl
@[simp] theorem bumpPort_out (p a n : Nat) (s : State) : (bumpPort p a n s).out = s.out := by rfl
@[simp] theorem bumpPort_pending (p a n : Nat) (s : State) : (bumpPort p a n s).pending = s.pending := by rfl
@[simp] theorem bumpPort_links (p a n : Nat) (s : State) : (bumpPort p a n s).links = s.links := by rfl
@[simp] theorem bumpPort_bundle (p a n : Nat) (s : State) : (bumpPort p a n s).bundle = s.bundle := by rfl
@[simp] theorem bumpPort_lastCmd (p a n : Nat) (s : State) : (bumpPort p a n s).lastCmd = s.lastCmd := by rfl
@[simp] theorem bumpPort_rot (p a n : Nat) (s : State) : (bumpPort p a n s).rot = s.rot := by rfl
@[simp] theorem bumpPort_hwSet (p a n : Nat) (s : State) : (bumpPort p a n s).hwSet = s.hwSet := by rfl

@[simp] theorem bumpHall_dc (p a n : Nat) (s : State) : (bumpHall p a n s).dc = s.dc := by rfl
@[simp] theorem bumpHall_ft (p a n : Nat) (s : State) : (bumpHall p a n s).ft = s.ft := by rfl
@[simp] theorem bumpHall_boot (p a n : Nat) (s : State) : (bumpHall p a n s).boot = s.boot := by rfl
@[simp] theorem bumpHall_nv (p a n : Nat) (s : State) : (bumpHall p a n s).nv = s.nv := by rfl
@[simp] theorem bumpHall_ports (p a n : Nat) (s : State) : (bumpHall p a n s).ports = s.ports := by rfl
@[simp] theorem bumpHall_lanes (p a n : Nat) (s : State) : (bumpHall p a n s).lanes = s.lanes := by rfl
@[simp] theorem bumpHall_cells (p a n : Nat) (s : State) : (bumpHall p a n s).cells = s.cells := by rfl
@[simp] theorem bumpHall_nextMid (p a n : Nat) (s : State) : (bumpHall p a n s).nextMid = s.nextMid := by rfl
@[simp] theorem bumpHall_routes (p a n : Nat) (s : State) : (bumpHall p a n s).routes = s.routes := by rfl
@[simp] theorem bumpHall_groups (p a n : Nat) (s : State) : (bumpHall p a n s).groups = s.groups := by rfl
@[simp] theorem bumpHall_coreQ (p a n : Nat) (s : State) : (bumpHall p a n s).coreQ = s.coreQ := by rfl
@[simp] theorem bumpHall_undrained (p a n : Nat) (s : State) : (bumpHall p a n s).undrained = s.undrained := by rfl
@[simp] theorem bumpHall_mcast (p a n : Nat) (s : State) : (bumpHall p a n s).mcast = s.mcast := by rfl
@[simp] theorem bumpHall_tree (p a n : Nat) (s : State) : (bumpHall p a n s).tree = s.tree := by rfl
@[simp] theorem bumpHall_qps (p a n : Nat) (s : State) : (bumpHall p a n s).qps = s.qps := by rfl
@[simp] theorem bumpHall_places (p a n : Nat) (s : State) : (bumpHall p a n s).places = s.places := by rfl
@[simp] theorem bumpHall_qcls (p a n : Nat) (s : State) : (bumpHall p a n s).qcls = s.qcls := by rfl
@[simp] theorem bumpHall_bays (p a n : Nat) (s : State) : (bumpHall p a n s).bays = s.bays := by rfl
@[simp] theorem bumpHall_sec (p a n : Nat) (s : State) : (bumpHall p a n s).sec = s.sec := by rfl
@[simp] theorem bumpHall_gn (p a n : Nat) (s : State) : (bumpHall p a n s).gn = s.gn := by rfl
@[simp] theorem bumpHall_stage (p a n : Nat) (s : State) : (bumpHall p a n s).stage = s.stage := by rfl
@[simp] theorem bumpHall_atr (p a n : Nat) (s : State) : (bumpHall p a n s).atr = s.atr := by rfl
@[simp] theorem bumpHall_nw (p a n : Nat) (s : State) : (bumpHall p a n s).nw = s.nw := by rfl
@[simp] theorem bumpHall_ops (p a n : Nat) (s : State) : (bumpHall p a n s).ops = s.ops := by rfl
@[simp] theorem bumpHall_tele (p a n : Nat) (s : State) : (bumpHall p a n s).tele = s.tele := by rfl
@[simp] theorem bumpHall_temps (p a n : Nat) (s : State) : (bumpHall p a n s).temps = s.temps := by rfl
@[simp] theorem bumpHall_freeN (p a n : Nat) (s : State) : (bumpHall p a n s).freeN = s.freeN := by rfl
@[simp] theorem bumpHall_out (p a n : Nat) (s : State) : (bumpHall p a n s).out = s.out := by rfl
@[simp] theorem bumpHall_pending (p a n : Nat) (s : State) : (bumpHall p a n s).pending = s.pending := by rfl
@[simp] theorem bumpHall_links (p a n : Nat) (s : State) : (bumpHall p a n s).links = s.links := by rfl
@[simp] theorem bumpHall_bundle (p a n : Nat) (s : State) : (bumpHall p a n s).bundle = s.bundle := by rfl
@[simp] theorem bumpHall_lastCmd (p a n : Nat) (s : State) : (bumpHall p a n s).lastCmd = s.lastCmd := by rfl
@[simp] theorem bumpHall_rot (p a n : Nat) (s : State) : (bumpHall p a n s).rot = s.rot := by rfl
@[simp] theorem bumpHall_hwSet (p a n : Nat) (s : State) : (bumpHall p a n s).hwSet = s.hwSet := by rfl

@[simp] theorem bumpLane_dc (p a n : Nat) (s : State) : (bumpLane p a n s).dc = s.dc := by rfl
@[simp] theorem bumpLane_ft (p a n : Nat) (s : State) : (bumpLane p a n s).ft = s.ft := by rfl
@[simp] theorem bumpLane_boot (p a n : Nat) (s : State) : (bumpLane p a n s).boot = s.boot := by rfl
@[simp] theorem bumpLane_nv (p a n : Nat) (s : State) : (bumpLane p a n s).nv = s.nv := by rfl
@[simp] theorem bumpLane_ports (p a n : Nat) (s : State) : (bumpLane p a n s).ports = s.ports := by rfl
@[simp] theorem bumpLane_halls (p a n : Nat) (s : State) : (bumpLane p a n s).halls = s.halls := by rfl
@[simp] theorem bumpLane_cells (p a n : Nat) (s : State) : (bumpLane p a n s).cells = s.cells := by rfl
@[simp] theorem bumpLane_nextMid (p a n : Nat) (s : State) : (bumpLane p a n s).nextMid = s.nextMid := by rfl
@[simp] theorem bumpLane_routes (p a n : Nat) (s : State) : (bumpLane p a n s).routes = s.routes := by rfl
@[simp] theorem bumpLane_groups (p a n : Nat) (s : State) : (bumpLane p a n s).groups = s.groups := by rfl
@[simp] theorem bumpLane_coreQ (p a n : Nat) (s : State) : (bumpLane p a n s).coreQ = s.coreQ := by rfl
@[simp] theorem bumpLane_undrained (p a n : Nat) (s : State) : (bumpLane p a n s).undrained = s.undrained := by rfl
@[simp] theorem bumpLane_mcast (p a n : Nat) (s : State) : (bumpLane p a n s).mcast = s.mcast := by rfl
@[simp] theorem bumpLane_tree (p a n : Nat) (s : State) : (bumpLane p a n s).tree = s.tree := by rfl
@[simp] theorem bumpLane_qps (p a n : Nat) (s : State) : (bumpLane p a n s).qps = s.qps := by rfl
@[simp] theorem bumpLane_places (p a n : Nat) (s : State) : (bumpLane p a n s).places = s.places := by rfl
@[simp] theorem bumpLane_qcls (p a n : Nat) (s : State) : (bumpLane p a n s).qcls = s.qcls := by rfl
@[simp] theorem bumpLane_bays (p a n : Nat) (s : State) : (bumpLane p a n s).bays = s.bays := by rfl
@[simp] theorem bumpLane_sec (p a n : Nat) (s : State) : (bumpLane p a n s).sec = s.sec := by rfl
@[simp] theorem bumpLane_gn (p a n : Nat) (s : State) : (bumpLane p a n s).gn = s.gn := by rfl
@[simp] theorem bumpLane_stage (p a n : Nat) (s : State) : (bumpLane p a n s).stage = s.stage := by rfl
@[simp] theorem bumpLane_atr (p a n : Nat) (s : State) : (bumpLane p a n s).atr = s.atr := by rfl
@[simp] theorem bumpLane_nw (p a n : Nat) (s : State) : (bumpLane p a n s).nw = s.nw := by rfl
@[simp] theorem bumpLane_ops (p a n : Nat) (s : State) : (bumpLane p a n s).ops = s.ops := by rfl
@[simp] theorem bumpLane_tele (p a n : Nat) (s : State) : (bumpLane p a n s).tele = s.tele := by rfl
@[simp] theorem bumpLane_temps (p a n : Nat) (s : State) : (bumpLane p a n s).temps = s.temps := by rfl
@[simp] theorem bumpLane_freeN (p a n : Nat) (s : State) : (bumpLane p a n s).freeN = s.freeN := by rfl
@[simp] theorem bumpLane_out (p a n : Nat) (s : State) : (bumpLane p a n s).out = s.out := by rfl
@[simp] theorem bumpLane_pending (p a n : Nat) (s : State) : (bumpLane p a n s).pending = s.pending := by rfl
@[simp] theorem bumpLane_links (p a n : Nat) (s : State) : (bumpLane p a n s).links = s.links := by rfl
@[simp] theorem bumpLane_bundle (p a n : Nat) (s : State) : (bumpLane p a n s).bundle = s.bundle := by rfl
@[simp] theorem bumpLane_lastCmd (p a n : Nat) (s : State) : (bumpLane p a n s).lastCmd = s.lastCmd := by rfl
@[simp] theorem bumpLane_rot (p a n : Nat) (s : State) : (bumpLane p a n s).rot = s.rot := by rfl
@[simp] theorem bumpLane_hwSet (p a n : Nat) (s : State) : (bumpLane p a n s).hwSet = s.hwSet := by rfl

@[simp] theorem bumpEngine_dc (e a : Nat) (s : State) : (bumpEngine e a s).dc = s.dc := by rfl
@[simp] theorem bumpEngine_ft (e a : Nat) (s : State) : (bumpEngine e a s).ft = s.ft := by rfl
@[simp] theorem bumpEngine_boot (e a : Nat) (s : State) : (bumpEngine e a s).boot = s.boot := by rfl
@[simp] theorem bumpEngine_nv (e a : Nat) (s : State) : (bumpEngine e a s).nv = s.nv := by rfl
@[simp] theorem bumpEngine_ports (e a : Nat) (s : State) : (bumpEngine e a s).ports = s.ports := by rfl
@[simp] theorem bumpEngine_lanes (e a : Nat) (s : State) : (bumpEngine e a s).lanes = s.lanes := by rfl
@[simp] theorem bumpEngine_cells (e a : Nat) (s : State) : (bumpEngine e a s).cells = s.cells := by rfl
@[simp] theorem bumpEngine_nextMid (e a : Nat) (s : State) : (bumpEngine e a s).nextMid = s.nextMid := by rfl
@[simp] theorem bumpEngine_routes (e a : Nat) (s : State) : (bumpEngine e a s).routes = s.routes := by rfl
@[simp] theorem bumpEngine_groups (e a : Nat) (s : State) : (bumpEngine e a s).groups = s.groups := by rfl
@[simp] theorem bumpEngine_coreQ (e a : Nat) (s : State) : (bumpEngine e a s).coreQ = s.coreQ := by rfl
@[simp] theorem bumpEngine_undrained (e a : Nat) (s : State) : (bumpEngine e a s).undrained = s.undrained := by rfl
@[simp] theorem bumpEngine_mcast (e a : Nat) (s : State) : (bumpEngine e a s).mcast = s.mcast := by rfl
@[simp] theorem bumpEngine_tree (e a : Nat) (s : State) : (bumpEngine e a s).tree = s.tree := by rfl
@[simp] theorem bumpEngine_qps (e a : Nat) (s : State) : (bumpEngine e a s).qps = s.qps := by rfl
@[simp] theorem bumpEngine_places (e a : Nat) (s : State) : (bumpEngine e a s).places = s.places := by rfl
@[simp] theorem bumpEngine_qcls (e a : Nat) (s : State) : (bumpEngine e a s).qcls = s.qcls := by rfl
@[simp] theorem bumpEngine_bays (e a : Nat) (s : State) : (bumpEngine e a s).bays = s.bays := by rfl
@[simp] theorem bumpEngine_sec (e a : Nat) (s : State) : (bumpEngine e a s).sec = s.sec := by rfl
@[simp] theorem bumpEngine_gn (e a : Nat) (s : State) : (bumpEngine e a s).gn = s.gn := by rfl
@[simp] theorem bumpEngine_stage (e a : Nat) (s : State) : (bumpEngine e a s).stage = s.stage := by rfl
@[simp] theorem bumpEngine_atr (e a : Nat) (s : State) : (bumpEngine e a s).atr = s.atr := by rfl
@[simp] theorem bumpEngine_nw (e a : Nat) (s : State) : (bumpEngine e a s).nw = s.nw := by rfl
@[simp] theorem bumpEngine_ops (e a : Nat) (s : State) : (bumpEngine e a s).ops = s.ops := by rfl
@[simp] theorem bumpEngine_tele (e a : Nat) (s : State) : (bumpEngine e a s).tele = s.tele := by rfl
@[simp] theorem bumpEngine_temps (e a : Nat) (s : State) : (bumpEngine e a s).temps = s.temps := by rfl
@[simp] theorem bumpEngine_freeN (e a : Nat) (s : State) : (bumpEngine e a s).freeN = s.freeN := by rfl
@[simp] theorem bumpEngine_out (e a : Nat) (s : State) : (bumpEngine e a s).out = s.out := by rfl
@[simp] theorem bumpEngine_pending (e a : Nat) (s : State) : (bumpEngine e a s).pending = s.pending := by rfl
@[simp] theorem bumpEngine_links (e a : Nat) (s : State) : (bumpEngine e a s).links = s.links := by rfl
@[simp] theorem bumpEngine_bundle (e a : Nat) (s : State) : (bumpEngine e a s).bundle = s.bundle := by rfl
@[simp] theorem bumpEngine_lastCmd (e a : Nat) (s : State) : (bumpEngine e a s).lastCmd = s.lastCmd := by rfl
@[simp] theorem bumpEngine_rot (e a : Nat) (s : State) : (bumpEngine e a s).rot = s.rot := by rfl
@[simp] theorem bumpEngine_hwSet (e a : Nat) (s : State) : (bumpEngine e a s).hwSet = s.hwSet := by rfl

@[simp] theorem setEngine_dc (e : Nat) (f : Engine → Engine) (s : State) : (setEngine e f s).dc = s.dc := by rfl
@[simp] theorem setEngine_ft (e : Nat) (f : Engine → Engine) (s : State) : (setEngine e f s).ft = s.ft := by rfl
@[simp] theorem setEngine_boot (e : Nat) (f : Engine → Engine) (s : State) : (setEngine e f s).boot = s.boot := by rfl
@[simp] theorem setEngine_nv (e : Nat) (f : Engine → Engine) (s : State) : (setEngine e f s).nv = s.nv := by rfl
@[simp] theorem setEngine_ports (e : Nat) (f : Engine → Engine) (s : State) : (setEngine e f s).ports = s.ports := by rfl
@[simp] theorem setEngine_lanes (e : Nat) (f : Engine → Engine) (s : State) : (setEngine e f s).lanes = s.lanes := by rfl
@[simp] theorem setEngine_cells (e : Nat) (f : Engine → Engine) (s : State) : (setEngine e f s).cells = s.cells := by rfl
@[simp] theorem setEngine_nextMid (e : Nat) (f : Engine → Engine) (s : State) : (setEngine e f s).nextMid = s.nextMid := by rfl
@[simp] theorem setEngine_routes (e : Nat) (f : Engine → Engine) (s : State) : (setEngine e f s).routes = s.routes := by rfl
@[simp] theorem setEngine_groups (e : Nat) (f : Engine → Engine) (s : State) : (setEngine e f s).groups = s.groups := by rfl
@[simp] theorem setEngine_coreQ (e : Nat) (f : Engine → Engine) (s : State) : (setEngine e f s).coreQ = s.coreQ := by rfl
@[simp] theorem setEngine_undrained (e : Nat) (f : Engine → Engine) (s : State) : (setEngine e f s).undrained = s.undrained := by rfl
@[simp] theorem setEngine_mcast (e : Nat) (f : Engine → Engine) (s : State) : (setEngine e f s).mcast = s.mcast := by rfl
@[simp] theorem setEngine_tree (e : Nat) (f : Engine → Engine) (s : State) : (setEngine e f s).tree = s.tree := by rfl
@[simp] theorem setEngine_qps (e : Nat) (f : Engine → Engine) (s : State) : (setEngine e f s).qps = s.qps := by rfl
@[simp] theorem setEngine_places (e : Nat) (f : Engine → Engine) (s : State) : (setEngine e f s).places = s.places := by rfl
@[simp] theorem setEngine_qcls (e : Nat) (f : Engine → Engine) (s : State) : (setEngine e f s).qcls = s.qcls := by rfl
@[simp] theorem setEngine_bays (e : Nat) (f : Engine → Engine) (s : State) : (setEngine e f s).bays = s.bays := by rfl
@[simp] theorem setEngine_sec (e : Nat) (f : Engine → Engine) (s : State) : (setEngine e f s).sec = s.sec := by rfl
@[simp] theorem setEngine_gn (e : Nat) (f : Engine → Engine) (s : State) : (setEngine e f s).gn = s.gn := by rfl
@[simp] theorem setEngine_stage (e : Nat) (f : Engine → Engine) (s : State) : (setEngine e f s).stage = s.stage := by rfl
@[simp] theorem setEngine_atr (e : Nat) (f : Engine → Engine) (s : State) : (setEngine e f s).atr = s.atr := by rfl
@[simp] theorem setEngine_nw (e : Nat) (f : Engine → Engine) (s : State) : (setEngine e f s).nw = s.nw := by rfl
@[simp] theorem setEngine_ops (e : Nat) (f : Engine → Engine) (s : State) : (setEngine e f s).ops = s.ops := by rfl
@[simp] theorem setEngine_tele (e : Nat) (f : Engine → Engine) (s : State) : (setEngine e f s).tele = s.tele := by rfl
@[simp] theorem setEngine_temps (e : Nat) (f : Engine → Engine) (s : State) : (setEngine e f s).temps = s.temps := by rfl
@[simp] theorem setEngine_freeN (e : Nat) (f : Engine → Engine) (s : State) : (setEngine e f s).freeN = s.freeN := by rfl
@[simp] theorem setEngine_out (e : Nat) (f : Engine → Engine) (s : State) : (setEngine e f s).out = s.out := by rfl
@[simp] theorem setEngine_pending (e : Nat) (f : Engine → Engine) (s : State) : (setEngine e f s).pending = s.pending := by rfl
@[simp] theorem setEngine_links (e : Nat) (f : Engine → Engine) (s : State) : (setEngine e f s).links = s.links := by rfl
@[simp] theorem setEngine_bundle (e : Nat) (f : Engine → Engine) (s : State) : (setEngine e f s).bundle = s.bundle := by rfl
@[simp] theorem setEngine_lastCmd (e : Nat) (f : Engine → Engine) (s : State) : (setEngine e f s).lastCmd = s.lastCmd := by rfl
@[simp] theorem setEngine_rot (e : Nat) (f : Engine → Engine) (s : State) : (setEngine e f s).rot = s.rot := by rfl
@[simp] theorem setEngine_hwSet (e : Nat) (f : Engine → Engine) (s : State) : (setEngine e f s).hwSet = s.hwSet := by rfl
@[simp] theorem setEngine_incNow (e : Nat) (f : Engine → Engine) (s : State) : (setEngine e f s).incNow = s.incNow := by rfl

@[simp] theorem drbgUse_dc (s : State) : (drbgUse s).dc = s.dc := by rfl
@[simp] theorem drbgUse_ft (s : State) : (drbgUse s).ft = s.ft := by rfl
@[simp] theorem drbgUse_boot (s : State) : (drbgUse s).boot = s.boot := by rfl
@[simp] theorem drbgUse_nv (s : State) : (drbgUse s).nv = s.nv := by rfl
@[simp] theorem drbgUse_ports (s : State) : (drbgUse s).ports = s.ports := by rfl
@[simp] theorem drbgUse_lanes (s : State) : (drbgUse s).lanes = s.lanes := by rfl
@[simp] theorem drbgUse_halls (s : State) : (drbgUse s).halls = s.halls := by rfl
@[simp] theorem drbgUse_cells (s : State) : (drbgUse s).cells = s.cells := by rfl
@[simp] theorem drbgUse_nextMid (s : State) : (drbgUse s).nextMid = s.nextMid := by rfl
@[simp] theorem drbgUse_routes (s : State) : (drbgUse s).routes = s.routes := by rfl
@[simp] theorem drbgUse_groups (s : State) : (drbgUse s).groups = s.groups := by rfl
@[simp] theorem drbgUse_coreQ (s : State) : (drbgUse s).coreQ = s.coreQ := by rfl
@[simp] theorem drbgUse_undrained (s : State) : (drbgUse s).undrained = s.undrained := by rfl
@[simp] theorem drbgUse_mcast (s : State) : (drbgUse s).mcast = s.mcast := by rfl
@[simp] theorem drbgUse_tree (s : State) : (drbgUse s).tree = s.tree := by rfl
@[simp] theorem drbgUse_qps (s : State) : (drbgUse s).qps = s.qps := by rfl
@[simp] theorem drbgUse_places (s : State) : (drbgUse s).places = s.places := by rfl
@[simp] theorem drbgUse_qcls (s : State) : (drbgUse s).qcls = s.qcls := by rfl
@[simp] theorem drbgUse_bays (s : State) : (drbgUse s).bays = s.bays := by rfl
@[simp] theorem drbgUse_gn (s : State) : (drbgUse s).gn = s.gn := by rfl
@[simp] theorem drbgUse_stage (s : State) : (drbgUse s).stage = s.stage := by rfl
@[simp] theorem drbgUse_atr (s : State) : (drbgUse s).atr = s.atr := by rfl
@[simp] theorem drbgUse_nw (s : State) : (drbgUse s).nw = s.nw := by rfl
@[simp] theorem drbgUse_ops (s : State) : (drbgUse s).ops = s.ops := by rfl
@[simp] theorem drbgUse_tele (s : State) : (drbgUse s).tele = s.tele := by rfl
@[simp] theorem drbgUse_temps (s : State) : (drbgUse s).temps = s.temps := by rfl
@[simp] theorem drbgUse_freeN (s : State) : (drbgUse s).freeN = s.freeN := by rfl
@[simp] theorem drbgUse_out (s : State) : (drbgUse s).out = s.out := by rfl
@[simp] theorem drbgUse_pending (s : State) : (drbgUse s).pending = s.pending := by rfl
@[simp] theorem drbgUse_links (s : State) : (drbgUse s).links = s.links := by rfl
@[simp] theorem drbgUse_bundle (s : State) : (drbgUse s).bundle = s.bundle := by rfl
@[simp] theorem drbgUse_lastCmd (s : State) : (drbgUse s).lastCmd = s.lastCmd := by rfl
@[simp] theorem drbgUse_rot (s : State) : (drbgUse s).rot = s.rot := by rfl
@[simp] theorem drbgUse_hwSet (s : State) : (drbgUse s).hwSet = s.hwSet := by rfl
@[simp] theorem drbgUse_incNow (s : State) : (drbgUse s).incNow = s.incNow := by rfl

@[simp] theorem endSessions_dc (f : Session → Bool) (s : State) : (endSessions f s).dc = s.dc := by rfl
@[simp] theorem endSessions_ft (f : Session → Bool) (s : State) : (endSessions f s).ft = s.ft := by rfl
@[simp] theorem endSessions_boot (f : Session → Bool) (s : State) : (endSessions f s).boot = s.boot := by rfl
@[simp] theorem endSessions_nv (f : Session → Bool) (s : State) : (endSessions f s).nv = s.nv := by rfl
@[simp] theorem endSessions_ports (f : Session → Bool) (s : State) : (endSessions f s).ports = s.ports := by rfl
@[simp] theorem endSessions_lanes (f : Session → Bool) (s : State) : (endSessions f s).lanes = s.lanes := by rfl
@[simp] theorem endSessions_halls (f : Session → Bool) (s : State) : (endSessions f s).halls = s.halls := by rfl
@[simp] theorem endSessions_cells (f : Session → Bool) (s : State) : (endSessions f s).cells = s.cells := by rfl
@[simp] theorem endSessions_nextMid (f : Session → Bool) (s : State) : (endSessions f s).nextMid = s.nextMid := by rfl
@[simp] theorem endSessions_routes (f : Session → Bool) (s : State) : (endSessions f s).routes = s.routes := by rfl
@[simp] theorem endSessions_groups (f : Session → Bool) (s : State) : (endSessions f s).groups = s.groups := by rfl
@[simp] theorem endSessions_coreQ (f : Session → Bool) (s : State) : (endSessions f s).coreQ = s.coreQ := by rfl
@[simp] theorem endSessions_undrained (f : Session → Bool) (s : State) : (endSessions f s).undrained = s.undrained := by rfl
@[simp] theorem endSessions_mcast (f : Session → Bool) (s : State) : (endSessions f s).mcast = s.mcast := by rfl
@[simp] theorem endSessions_tree (f : Session → Bool) (s : State) : (endSessions f s).tree = s.tree := by rfl
@[simp] theorem endSessions_qps (f : Session → Bool) (s : State) : (endSessions f s).qps = s.qps := by rfl
@[simp] theorem endSessions_places (f : Session → Bool) (s : State) : (endSessions f s).places = s.places := by rfl
@[simp] theorem endSessions_qcls (f : Session → Bool) (s : State) : (endSessions f s).qcls = s.qcls := by rfl
@[simp] theorem endSessions_bays (f : Session → Bool) (s : State) : (endSessions f s).bays = s.bays := by rfl
@[simp] theorem endSessions_gn (f : Session → Bool) (s : State) : (endSessions f s).gn = s.gn := by rfl
@[simp] theorem endSessions_stage (f : Session → Bool) (s : State) : (endSessions f s).stage = s.stage := by rfl
@[simp] theorem endSessions_atr (f : Session → Bool) (s : State) : (endSessions f s).atr = s.atr := by rfl
@[simp] theorem endSessions_nw (f : Session → Bool) (s : State) : (endSessions f s).nw = s.nw := by rfl
@[simp] theorem endSessions_ops (f : Session → Bool) (s : State) : (endSessions f s).ops = s.ops := by rfl
@[simp] theorem endSessions_tele (f : Session → Bool) (s : State) : (endSessions f s).tele = s.tele := by rfl
@[simp] theorem endSessions_temps (f : Session → Bool) (s : State) : (endSessions f s).temps = s.temps := by rfl
@[simp] theorem endSessions_freeN (f : Session → Bool) (s : State) : (endSessions f s).freeN = s.freeN := by rfl
@[simp] theorem endSessions_out (f : Session → Bool) (s : State) : (endSessions f s).out = s.out := by rfl
@[simp] theorem endSessions_pending (f : Session → Bool) (s : State) : (endSessions f s).pending = s.pending := by rfl
@[simp] theorem endSessions_links (f : Session → Bool) (s : State) : (endSessions f s).links = s.links := by rfl
@[simp] theorem endSessions_bundle (f : Session → Bool) (s : State) : (endSessions f s).bundle = s.bundle := by rfl
@[simp] theorem endSessions_lastCmd (f : Session → Bool) (s : State) : (endSessions f s).lastCmd = s.lastCmd := by rfl
@[simp] theorem endSessions_rot (f : Session → Bool) (s : State) : (endSessions f s).rot = s.rot := by rfl
@[simp] theorem endSessions_hwSet (f : Session → Bool) (s : State) : (endSessions f s).hwSet = s.hwSet := by rfl
@[simp] theorem endSessions_incNow (f : Session → Bool) (s : State) : (endSessions f s).incNow = s.incNow := by rfl

@[simp] theorem msix_dc (fn : Fn) (v : Nat) (s : State) : (msix fn v s).dc = s.dc := by unfold msix; (repeat' split) <;> rfl
@[simp] theorem msix_ft (fn : Fn) (v : Nat) (s : State) : (msix fn v s).ft = s.ft := by unfold msix; (repeat' split) <;> rfl
@[simp] theorem msix_boot (fn : Fn) (v : Nat) (s : State) : (msix fn v s).boot = s.boot := by unfold msix; (repeat' split) <;> rfl
@[simp] theorem msix_nv (fn : Fn) (v : Nat) (s : State) : (msix fn v s).nv = s.nv := by unfold msix; (repeat' split) <;> rfl
@[simp] theorem msix_lanes (fn : Fn) (v : Nat) (s : State) : (msix fn v s).lanes = s.lanes := by unfold msix; (repeat' split) <;> rfl
@[simp] theorem msix_halls (fn : Fn) (v : Nat) (s : State) : (msix fn v s).halls = s.halls := by unfold msix; (repeat' split) <;> rfl
@[simp] theorem msix_cells (fn : Fn) (v : Nat) (s : State) : (msix fn v s).cells = s.cells := by unfold msix; (repeat' split) <;> rfl
@[simp] theorem msix_nextMid (fn : Fn) (v : Nat) (s : State) : (msix fn v s).nextMid = s.nextMid := by unfold msix; (repeat' split) <;> rfl
@[simp] theorem msix_routes (fn : Fn) (v : Nat) (s : State) : (msix fn v s).routes = s.routes := by unfold msix; (repeat' split) <;> rfl
@[simp] theorem msix_groups (fn : Fn) (v : Nat) (s : State) : (msix fn v s).groups = s.groups := by unfold msix; (repeat' split) <;> rfl
@[simp] theorem msix_coreQ (fn : Fn) (v : Nat) (s : State) : (msix fn v s).coreQ = s.coreQ := by unfold msix; (repeat' split) <;> rfl
@[simp] theorem msix_undrained (fn : Fn) (v : Nat) (s : State) : (msix fn v s).undrained = s.undrained := by unfold msix; (repeat' split) <;> rfl
@[simp] theorem msix_mcast (fn : Fn) (v : Nat) (s : State) : (msix fn v s).mcast = s.mcast := by unfold msix; (repeat' split) <;> rfl
@[simp] theorem msix_tree (fn : Fn) (v : Nat) (s : State) : (msix fn v s).tree = s.tree := by unfold msix; (repeat' split) <;> rfl
@[simp] theorem msix_qps (fn : Fn) (v : Nat) (s : State) : (msix fn v s).qps = s.qps := by unfold msix; (repeat' split) <;> rfl
@[simp] theorem msix_places (fn : Fn) (v : Nat) (s : State) : (msix fn v s).places = s.places := by unfold msix; (repeat' split) <;> rfl
@[simp] theorem msix_qcls (fn : Fn) (v : Nat) (s : State) : (msix fn v s).qcls = s.qcls := by unfold msix; (repeat' split) <;> rfl
@[simp] theorem msix_sec (fn : Fn) (v : Nat) (s : State) : (msix fn v s).sec = s.sec := by unfold msix; (repeat' split) <;> rfl
@[simp] theorem msix_gn (fn : Fn) (v : Nat) (s : State) : (msix fn v s).gn = s.gn := by unfold msix; (repeat' split) <;> rfl
@[simp] theorem msix_stage (fn : Fn) (v : Nat) (s : State) : (msix fn v s).stage = s.stage := by unfold msix; (repeat' split) <;> rfl
@[simp] theorem msix_atr (fn : Fn) (v : Nat) (s : State) : (msix fn v s).atr = s.atr := by unfold msix; (repeat' split) <;> rfl
@[simp] theorem msix_nw (fn : Fn) (v : Nat) (s : State) : (msix fn v s).nw = s.nw := by unfold msix; (repeat' split) <;> rfl
@[simp] theorem msix_ops (fn : Fn) (v : Nat) (s : State) : (msix fn v s).ops = s.ops := by unfold msix; (repeat' split) <;> rfl
@[simp] theorem msix_tele (fn : Fn) (v : Nat) (s : State) : (msix fn v s).tele = s.tele := by unfold msix; (repeat' split) <;> rfl
@[simp] theorem msix_temps (fn : Fn) (v : Nat) (s : State) : (msix fn v s).temps = s.temps := by unfold msix; (repeat' split) <;> rfl
@[simp] theorem msix_freeN (fn : Fn) (v : Nat) (s : State) : (msix fn v s).freeN = s.freeN := by unfold msix; (repeat' split) <;> rfl
@[simp] theorem msix_pending (fn : Fn) (v : Nat) (s : State) : (msix fn v s).pending = s.pending := by unfold msix; (repeat' split) <;> rfl
@[simp] theorem msix_links (fn : Fn) (v : Nat) (s : State) : (msix fn v s).links = s.links := by unfold msix; (repeat' split) <;> rfl
@[simp] theorem msix_bundle (fn : Fn) (v : Nat) (s : State) : (msix fn v s).bundle = s.bundle := by unfold msix; (repeat' split) <;> rfl
@[simp] theorem msix_lastCmd (fn : Fn) (v : Nat) (s : State) : (msix fn v s).lastCmd = s.lastCmd := by unfold msix; (repeat' split) <;> rfl
@[simp] theorem msix_rot (fn : Fn) (v : Nat) (s : State) : (msix fn v s).rot = s.rot := by unfold msix; (repeat' split) <;> rfl
@[simp] theorem msix_hwSet (fn : Fn) (v : Nat) (s : State) : (msix fn v s).hwSet = s.hwSet := by unfold msix; (repeat' split) <;> rfl
@[simp] theorem msix_incNow (fn : Fn) (v : Nat) (s : State) : (msix fn v s).incNow = s.incNow := by unfold msix; (repeat' split) <;> rfl

@[simp] theorem aer_dc (p : Nat) (b : Option Nat) (c : Nat) (s : State) : (aer p b c s).dc = s.dc := by simp [aer]
@[simp] theorem aer_ft (p : Nat) (b : Option Nat) (c : Nat) (s : State) : (aer p b c s).ft = s.ft := by simp [aer]
@[simp] theorem aer_boot (p : Nat) (b : Option Nat) (c : Nat) (s : State) : (aer p b c s).boot = s.boot := by simp [aer]
@[simp] theorem aer_nv (p : Nat) (b : Option Nat) (c : Nat) (s : State) : (aer p b c s).nv = s.nv := by simp [aer]
@[simp] theorem aer_ports (p : Nat) (b : Option Nat) (c : Nat) (s : State) : (aer p b c s).ports = s.ports := by simp [aer]
@[simp] theorem aer_lanes (p : Nat) (b : Option Nat) (c : Nat) (s : State) : (aer p b c s).lanes = s.lanes := by simp [aer]
@[simp] theorem aer_halls (p : Nat) (b : Option Nat) (c : Nat) (s : State) : (aer p b c s).halls = s.halls := by simp [aer]
@[simp] theorem aer_cells (p : Nat) (b : Option Nat) (c : Nat) (s : State) : (aer p b c s).cells = s.cells := by simp [aer]
@[simp] theorem aer_links (p : Nat) (b : Option Nat) (c : Nat) (s : State) : (aer p b c s).links = s.links := by simp [aer]
@[simp] theorem aer_nextMid (p : Nat) (b : Option Nat) (c : Nat) (s : State) : (aer p b c s).nextMid = s.nextMid := by simp [aer]
@[simp] theorem aer_routes (p : Nat) (b : Option Nat) (c : Nat) (s : State) : (aer p b c s).routes = s.routes := by simp [aer]
@[simp] theorem aer_groups (p : Nat) (b : Option Nat) (c : Nat) (s : State) : (aer p b c s).groups = s.groups := by simp [aer]
@[simp] theorem aer_coreQ (p : Nat) (b : Option Nat) (c : Nat) (s : State) : (aer p b c s).coreQ = s.coreQ := by simp [aer]
@[simp] theorem aer_undrained (p : Nat) (b : Option Nat) (c : Nat) (s : State) : (aer p b c s).undrained = s.undrained := by simp [aer]
@[simp] theorem aer_mcast (p : Nat) (b : Option Nat) (c : Nat) (s : State) : (aer p b c s).mcast = s.mcast := by simp [aer]
@[simp] theorem aer_tree (p : Nat) (b : Option Nat) (c : Nat) (s : State) : (aer p b c s).tree = s.tree := by simp [aer]
@[simp] theorem aer_qps (p : Nat) (b : Option Nat) (c : Nat) (s : State) : (aer p b c s).qps = s.qps := by simp [aer]
@[simp] theorem aer_places (p : Nat) (b : Option Nat) (c : Nat) (s : State) : (aer p b c s).places = s.places := by simp [aer]
@[simp] theorem aer_qcls (p : Nat) (b : Option Nat) (c : Nat) (s : State) : (aer p b c s).qcls = s.qcls := by simp [aer]
@[simp] theorem aer_bays (p : Nat) (b : Option Nat) (c : Nat) (s : State) : (aer p b c s).bays = s.bays := by simp [aer]
@[simp] theorem aer_sec (p : Nat) (b : Option Nat) (c : Nat) (s : State) : (aer p b c s).sec = s.sec := by simp [aer]
@[simp] theorem aer_gn (p : Nat) (b : Option Nat) (c : Nat) (s : State) : (aer p b c s).gn = s.gn := by simp [aer]
@[simp] theorem aer_stage (p : Nat) (b : Option Nat) (c : Nat) (s : State) : (aer p b c s).stage = s.stage := by simp [aer]
@[simp] theorem aer_atr (p : Nat) (b : Option Nat) (c : Nat) (s : State) : (aer p b c s).atr = s.atr := by simp [aer]
@[simp] theorem aer_nw (p : Nat) (b : Option Nat) (c : Nat) (s : State) : (aer p b c s).nw = s.nw := by simp [aer]
@[simp] theorem aer_bundle (p : Nat) (b : Option Nat) (c : Nat) (s : State) : (aer p b c s).bundle = s.bundle := by simp [aer]
@[simp] theorem aer_ops (p : Nat) (b : Option Nat) (c : Nat) (s : State) : (aer p b c s).ops = s.ops := by simp [aer]
@[simp] theorem aer_tele (p : Nat) (b : Option Nat) (c : Nat) (s : State) : (aer p b c s).tele = s.tele := by simp [aer]
@[simp] theorem aer_temps (p : Nat) (b : Option Nat) (c : Nat) (s : State) : (aer p b c s).temps = s.temps := by simp [aer]
@[simp] theorem aer_lastCmd (p : Nat) (b : Option Nat) (c : Nat) (s : State) : (aer p b c s).lastCmd = s.lastCmd := by simp [aer]
@[simp] theorem aer_rot (p : Nat) (b : Option Nat) (c : Nat) (s : State) : (aer p b c s).rot = s.rot := by simp [aer]
@[simp] theorem aer_hwSet (p : Nat) (b : Option Nat) (c : Nat) (s : State) : (aer p b c s).hwSet = s.hwSet := by simp [aer]
@[simp] theorem aer_incNow (p : Nat) (b : Option Nat) (c : Nat) (s : State) : (aer p b c s).incNow = s.incNow := by simp [aer]
@[simp] theorem aer_freeN (p : Nat) (b : Option Nat) (c : Nat) (s : State) : (aer p b c s).freeN = s.freeN := by simp [aer]
@[simp] theorem aer_pending (p : Nat) (b : Option Nat) (c : Nat) (s : State) : (aer p b c s).pending = s.pending := by simp [aer]

@[simp] theorem putReply_dc (r : Reply) (k : Option Nat) (s : State) : (putReply r k s).dc = s.dc := by unfold putReply; split <;> simp
@[simp] theorem putReply_ft (r : Reply) (k : Option Nat) (s : State) : (putReply r k s).ft = s.ft := by unfold putReply; split <;> simp
@[simp] theorem putReply_boot (r : Reply) (k : Option Nat) (s : State) : (putReply r k s).boot = s.boot := by unfold putReply; split <;> simp
@[simp] theorem putReply_nv (r : Reply) (k : Option Nat) (s : State) : (putReply r k s).nv = s.nv := by unfold putReply; split <;> simp
@[simp] theorem putReply_ports (r : Reply) (k : Option Nat) (s : State) : (putReply r k s).ports = s.ports := by unfold putReply; split <;> simp
@[simp] theorem putReply_lanes (r : Reply) (k : Option Nat) (s : State) : (putReply r k s).lanes = s.lanes := by unfold putReply; split <;> simp
@[simp] theorem putReply_halls (r : Reply) (k : Option Nat) (s : State) : (putReply r k s).halls = s.halls := by unfold putReply; split <;> simp
@[simp] theorem putReply_cells (r : Reply) (k : Option Nat) (s : State) : (putReply r k s).cells = s.cells := by unfold putReply; split <;> simp
@[simp] theorem putReply_links (r : Reply) (k : Option Nat) (s : State) : (putReply r k s).links = s.links := by unfold putReply; split <;> simp
@[simp] theorem putReply_nextMid (r : Reply) (k : Option Nat) (s : State) : (putReply r k s).nextMid = s.nextMid := by unfold putReply; split <;> simp
@[simp] theorem putReply_routes (r : Reply) (k : Option Nat) (s : State) : (putReply r k s).routes = s.routes := by unfold putReply; split <;> simp
@[simp] theorem putReply_groups (r : Reply) (k : Option Nat) (s : State) : (putReply r k s).groups = s.groups := by unfold putReply; split <;> simp
@[simp] theorem putReply_coreQ (r : Reply) (k : Option Nat) (s : State) : (putReply r k s).coreQ = s.coreQ := by unfold putReply; split <;> simp
@[simp] theorem putReply_undrained (r : Reply) (k : Option Nat) (s : State) : (putReply r k s).undrained = s.undrained := by unfold putReply; split <;> simp
@[simp] theorem putReply_mcast (r : Reply) (k : Option Nat) (s : State) : (putReply r k s).mcast = s.mcast := by unfold putReply; split <;> simp
@[simp] theorem putReply_tree (r : Reply) (k : Option Nat) (s : State) : (putReply r k s).tree = s.tree := by unfold putReply; split <;> simp
@[simp] theorem putReply_qps (r : Reply) (k : Option Nat) (s : State) : (putReply r k s).qps = s.qps := by unfold putReply; split <;> simp
@[simp] theorem putReply_places (r : Reply) (k : Option Nat) (s : State) : (putReply r k s).places = s.places := by unfold putReply; split <;> simp
@[simp] theorem putReply_qcls (r : Reply) (k : Option Nat) (s : State) : (putReply r k s).qcls = s.qcls := by unfold putReply; split <;> simp
@[simp] theorem putReply_bays (r : Reply) (k : Option Nat) (s : State) : (putReply r k s).bays = s.bays := by unfold putReply; split <;> simp
@[simp] theorem putReply_gn (r : Reply) (k : Option Nat) (s : State) : (putReply r k s).gn = s.gn := by unfold putReply; split <;> simp
@[simp] theorem putReply_stage (r : Reply) (k : Option Nat) (s : State) : (putReply r k s).stage = s.stage := by unfold putReply; split <;> simp
@[simp] theorem putReply_atr (r : Reply) (k : Option Nat) (s : State) : (putReply r k s).atr = s.atr := by unfold putReply; split <;> simp
@[simp] theorem putReply_nw (r : Reply) (k : Option Nat) (s : State) : (putReply r k s).nw = s.nw := by unfold putReply; split <;> simp
@[simp] theorem putReply_bundle (r : Reply) (k : Option Nat) (s : State) : (putReply r k s).bundle = s.bundle := by unfold putReply; split <;> simp
@[simp] theorem putReply_ops (r : Reply) (k : Option Nat) (s : State) : (putReply r k s).ops = s.ops := by unfold putReply; split <;> simp
@[simp] theorem putReply_tele (r : Reply) (k : Option Nat) (s : State) : (putReply r k s).tele = s.tele := by unfold putReply; split <;> simp
@[simp] theorem putReply_temps (r : Reply) (k : Option Nat) (s : State) : (putReply r k s).temps = s.temps := by unfold putReply; split <;> simp
@[simp] theorem putReply_lastCmd (r : Reply) (k : Option Nat) (s : State) : (putReply r k s).lastCmd = s.lastCmd := by unfold putReply; split <;> simp
@[simp] theorem putReply_rot (r : Reply) (k : Option Nat) (s : State) : (putReply r k s).rot = s.rot := by unfold putReply; split <;> simp
@[simp] theorem putReply_hwSet (r : Reply) (k : Option Nat) (s : State) : (putReply r k s).hwSet = s.hwSet := by unfold putReply; split <;> simp
@[simp] theorem putReply_incNow (r : Reply) (k : Option Nat) (s : State) : (putReply r k s).incNow = s.incNow := by unfold putReply; split <;> simp
@[simp] theorem putReply_freeN (r : Reply) (k : Option Nat) (s : State) : (putReply r k s).freeN = s.freeN := by unfold putReply; split <;> simp
@[simp] theorem putReply_pending (r : Reply) (k : Option Nat) (s : State) : (putReply r k s).pending = s.pending := by unfold putReply; split <;> simp

@[simp] theorem sendReply_dc (r : Reply) (s : State) : (sendReply r s).dc = s.dc := by unfold sendReply; (repeat' split) <;> simp <;> split <;> simp
@[simp] theorem sendReply_ft (r : Reply) (s : State) : (sendReply r s).ft = s.ft := by unfold sendReply; (repeat' split) <;> simp <;> split <;> simp
@[simp] theorem sendReply_boot (r : Reply) (s : State) : (sendReply r s).boot = s.boot := by unfold sendReply; (repeat' split) <;> simp <;> split <;> simp
@[simp] theorem sendReply_nv (r : Reply) (s : State) : (sendReply r s).nv = s.nv := by unfold sendReply; (repeat' split) <;> simp <;> split <;> simp
@[simp] theorem sendReply_lanes (r : Reply) (s : State) : (sendReply r s).lanes = s.lanes := by unfold sendReply; (repeat' split) <;> simp <;> split <;> simp
@[simp] theorem sendReply_halls (r : Reply) (s : State) : (sendReply r s).halls = s.halls := by unfold sendReply; (repeat' split) <;> simp <;> split <;> simp
@[simp] theorem sendReply_cells (r : Reply) (s : State) : (sendReply r s).cells = s.cells := by unfold sendReply; (repeat' split) <;> simp <;> split <;> simp
@[simp] theorem sendReply_links (r : Reply) (s : State) : (sendReply r s).links = s.links := by unfold sendReply; (repeat' split) <;> simp <;> split <;> simp
@[simp] theorem sendReply_nextMid (r : Reply) (s : State) : (sendReply r s).nextMid = s.nextMid := by unfold sendReply; (repeat' split) <;> simp <;> split <;> simp
@[simp] theorem sendReply_routes (r : Reply) (s : State) : (sendReply r s).routes = s.routes := by unfold sendReply; (repeat' split) <;> simp <;> split <;> simp
@[simp] theorem sendReply_groups (r : Reply) (s : State) : (sendReply r s).groups = s.groups := by unfold sendReply; (repeat' split) <;> simp <;> split <;> simp
@[simp] theorem sendReply_coreQ (r : Reply) (s : State) : (sendReply r s).coreQ = s.coreQ := by unfold sendReply; (repeat' split) <;> simp <;> split <;> simp
@[simp] theorem sendReply_undrained (r : Reply) (s : State) : (sendReply r s).undrained = s.undrained := by unfold sendReply; (repeat' split) <;> simp <;> split <;> simp
@[simp] theorem sendReply_mcast (r : Reply) (s : State) : (sendReply r s).mcast = s.mcast := by unfold sendReply; (repeat' split) <;> simp <;> split <;> simp
@[simp] theorem sendReply_tree (r : Reply) (s : State) : (sendReply r s).tree = s.tree := by unfold sendReply; (repeat' split) <;> simp <;> split <;> simp
@[simp] theorem sendReply_qps (r : Reply) (s : State) : (sendReply r s).qps = s.qps := by unfold sendReply; (repeat' split) <;> simp <;> split <;> simp
@[simp] theorem sendReply_places (r : Reply) (s : State) : (sendReply r s).places = s.places := by unfold sendReply; (repeat' split) <;> simp <;> split <;> simp
@[simp] theorem sendReply_qcls (r : Reply) (s : State) : (sendReply r s).qcls = s.qcls := by unfold sendReply; (repeat' split) <;> simp <;> split <;> simp
@[simp] theorem sendReply_gn (r : Reply) (s : State) : (sendReply r s).gn = s.gn := by unfold sendReply; (repeat' split) <;> simp <;> split <;> simp
@[simp] theorem sendReply_stage (r : Reply) (s : State) : (sendReply r s).stage = s.stage := by unfold sendReply; (repeat' split) <;> simp <;> split <;> simp
@[simp] theorem sendReply_atr (r : Reply) (s : State) : (sendReply r s).atr = s.atr := by unfold sendReply; (repeat' split) <;> simp <;> split <;> simp
@[simp] theorem sendReply_nw (r : Reply) (s : State) : (sendReply r s).nw = s.nw := by unfold sendReply; (repeat' split) <;> simp <;> split <;> simp
@[simp] theorem sendReply_bundle (r : Reply) (s : State) : (sendReply r s).bundle = s.bundle := by unfold sendReply; (repeat' split) <;> simp <;> split <;> simp
@[simp] theorem sendReply_ops (r : Reply) (s : State) : (sendReply r s).ops = s.ops := by unfold sendReply; (repeat' split) <;> simp <;> split <;> simp
@[simp] theorem sendReply_tele (r : Reply) (s : State) : (sendReply r s).tele = s.tele := by unfold sendReply; (repeat' split) <;> simp <;> split <;> simp
@[simp] theorem sendReply_temps (r : Reply) (s : State) : (sendReply r s).temps = s.temps := by unfold sendReply; (repeat' split) <;> simp <;> split <;> simp
@[simp] theorem sendReply_lastCmd (r : Reply) (s : State) : (sendReply r s).lastCmd = s.lastCmd := by unfold sendReply; (repeat' split) <;> simp <;> split <;> simp
@[simp] theorem sendReply_rot (r : Reply) (s : State) : (sendReply r s).rot = s.rot := by unfold sendReply; (repeat' split) <;> simp <;> split <;> simp
@[simp] theorem sendReply_hwSet (r : Reply) (s : State) : (sendReply r s).hwSet = s.hwSet := by unfold sendReply; (repeat' split) <;> simp <;> split <;> simp
@[simp] theorem sendReply_freeN (r : Reply) (s : State) : (sendReply r s).freeN = s.freeN := by unfold sendReply; (repeat' split) <;> simp <;> split <;> simp
@[simp] theorem sendReply_pending (r : Reply) (s : State) : (sendReply r s).pending = s.pending := by unfold sendReply; (repeat' split) <;> simp <;> split <;> simp

@[simp] theorem endOp_dc (k : OpKind) (st : Nat) (d : Bytes) (s : State) : (endOp k st d s).dc = s.dc := by unfold endOp; (repeat' split) <;> simp
@[simp] theorem endOp_ft (k : OpKind) (st : Nat) (d : Bytes) (s : State) : (endOp k st d s).ft = s.ft := by unfold endOp; (repeat' split) <;> simp
@[simp] theorem endOp_boot (k : OpKind) (st : Nat) (d : Bytes) (s : State) : (endOp k st d s).boot = s.boot := by unfold endOp; (repeat' split) <;> simp
@[simp] theorem endOp_nv (k : OpKind) (st : Nat) (d : Bytes) (s : State) : (endOp k st d s).nv = s.nv := by unfold endOp; (repeat' split) <;> simp
@[simp] theorem endOp_lanes (k : OpKind) (st : Nat) (d : Bytes) (s : State) : (endOp k st d s).lanes = s.lanes := by unfold endOp; (repeat' split) <;> simp
@[simp] theorem endOp_halls (k : OpKind) (st : Nat) (d : Bytes) (s : State) : (endOp k st d s).halls = s.halls := by unfold endOp; (repeat' split) <;> simp
@[simp] theorem endOp_cells (k : OpKind) (st : Nat) (d : Bytes) (s : State) : (endOp k st d s).cells = s.cells := by unfold endOp; (repeat' split) <;> simp
@[simp] theorem endOp_links (k : OpKind) (st : Nat) (d : Bytes) (s : State) : (endOp k st d s).links = s.links := by unfold endOp; (repeat' split) <;> simp
@[simp] theorem endOp_nextMid (k : OpKind) (st : Nat) (d : Bytes) (s : State) : (endOp k st d s).nextMid = s.nextMid := by unfold endOp; (repeat' split) <;> simp
@[simp] theorem endOp_routes (k : OpKind) (st : Nat) (d : Bytes) (s : State) : (endOp k st d s).routes = s.routes := by unfold endOp; (repeat' split) <;> simp
@[simp] theorem endOp_groups (k : OpKind) (st : Nat) (d : Bytes) (s : State) : (endOp k st d s).groups = s.groups := by unfold endOp; (repeat' split) <;> simp
@[simp] theorem endOp_coreQ (k : OpKind) (st : Nat) (d : Bytes) (s : State) : (endOp k st d s).coreQ = s.coreQ := by unfold endOp; (repeat' split) <;> simp
@[simp] theorem endOp_undrained (k : OpKind) (st : Nat) (d : Bytes) (s : State) : (endOp k st d s).undrained = s.undrained := by unfold endOp; (repeat' split) <;> simp
@[simp] theorem endOp_mcast (k : OpKind) (st : Nat) (d : Bytes) (s : State) : (endOp k st d s).mcast = s.mcast := by unfold endOp; (repeat' split) <;> simp
@[simp] theorem endOp_tree (k : OpKind) (st : Nat) (d : Bytes) (s : State) : (endOp k st d s).tree = s.tree := by unfold endOp; (repeat' split) <;> simp
@[simp] theorem endOp_qps (k : OpKind) (st : Nat) (d : Bytes) (s : State) : (endOp k st d s).qps = s.qps := by unfold endOp; (repeat' split) <;> simp
@[simp] theorem endOp_places (k : OpKind) (st : Nat) (d : Bytes) (s : State) : (endOp k st d s).places = s.places := by unfold endOp; (repeat' split) <;> simp
@[simp] theorem endOp_qcls (k : OpKind) (st : Nat) (d : Bytes) (s : State) : (endOp k st d s).qcls = s.qcls := by unfold endOp; (repeat' split) <;> simp
@[simp] theorem endOp_gn (k : OpKind) (st : Nat) (d : Bytes) (s : State) : (endOp k st d s).gn = s.gn := by unfold endOp; (repeat' split) <;> simp
@[simp] theorem endOp_stage (k : OpKind) (st : Nat) (d : Bytes) (s : State) : (endOp k st d s).stage = s.stage := by unfold endOp; (repeat' split) <;> simp
@[simp] theorem endOp_atr (k : OpKind) (st : Nat) (d : Bytes) (s : State) : (endOp k st d s).atr = s.atr := by unfold endOp; (repeat' split) <;> simp
@[simp] theorem endOp_nw (k : OpKind) (st : Nat) (d : Bytes) (s : State) : (endOp k st d s).nw = s.nw := by unfold endOp; (repeat' split) <;> simp
@[simp] theorem endOp_bundle (k : OpKind) (st : Nat) (d : Bytes) (s : State) : (endOp k st d s).bundle = s.bundle := by unfold endOp; (repeat' split) <;> simp
@[simp] theorem endOp_tele (k : OpKind) (st : Nat) (d : Bytes) (s : State) : (endOp k st d s).tele = s.tele := by unfold endOp; (repeat' split) <;> simp
@[simp] theorem endOp_temps (k : OpKind) (st : Nat) (d : Bytes) (s : State) : (endOp k st d s).temps = s.temps := by unfold endOp; (repeat' split) <;> simp
@[simp] theorem endOp_lastCmd (k : OpKind) (st : Nat) (d : Bytes) (s : State) : (endOp k st d s).lastCmd = s.lastCmd := by unfold endOp; (repeat' split) <;> simp
@[simp] theorem endOp_rot (k : OpKind) (st : Nat) (d : Bytes) (s : State) : (endOp k st d s).rot = s.rot := by unfold endOp; (repeat' split) <;> simp
@[simp] theorem endOp_hwSet (k : OpKind) (st : Nat) (d : Bytes) (s : State) : (endOp k st d s).hwSet = s.hwSet := by unfold endOp; (repeat' split) <;> simp
@[simp] theorem endOp_freeN (k : OpKind) (st : Nat) (d : Bytes) (s : State) : (endOp k st d s).freeN = s.freeN := by unfold endOp; (repeat' split) <;> simp
@[simp] theorem endOp_pending (k : OpKind) (st : Nat) (d : Bytes) (s : State) : (endOp k st d s).pending = s.pending := by unfold endOp; (repeat' split) <;> simp

@[simp] theorem abortOp_dc (k : OpKind) (s : State) : (abortOp k s).dc = s.dc := by simp [abortOp]
@[simp] theorem abortOp_ft (k : OpKind) (s : State) : (abortOp k s).ft = s.ft := by simp [abortOp]
@[simp] theorem abortOp_boot (k : OpKind) (s : State) : (abortOp k s).boot = s.boot := by simp [abortOp]
@[simp] theorem abortOp_nv (k : OpKind) (s : State) : (abortOp k s).nv = s.nv := by simp [abortOp]
@[simp] theorem abortOp_lanes (k : OpKind) (s : State) : (abortOp k s).lanes = s.lanes := by simp [abortOp]
@[simp] theorem abortOp_halls (k : OpKind) (s : State) : (abortOp k s).halls = s.halls := by simp [abortOp]
@[simp] theorem abortOp_cells (k : OpKind) (s : State) : (abortOp k s).cells = s.cells := by simp [abortOp]
@[simp] theorem abortOp_links (k : OpKind) (s : State) : (abortOp k s).links = s.links := by simp [abortOp]
@[simp] theorem abortOp_nextMid (k : OpKind) (s : State) : (abortOp k s).nextMid = s.nextMid := by simp [abortOp]
@[simp] theorem abortOp_routes (k : OpKind) (s : State) : (abortOp k s).routes = s.routes := by simp [abortOp]
@[simp] theorem abortOp_groups (k : OpKind) (s : State) : (abortOp k s).groups = s.groups := by simp [abortOp]
@[simp] theorem abortOp_coreQ (k : OpKind) (s : State) : (abortOp k s).coreQ = s.coreQ := by simp [abortOp]
@[simp] theorem abortOp_undrained (k : OpKind) (s : State) : (abortOp k s).undrained = s.undrained := by simp [abortOp]
@[simp] theorem abortOp_mcast (k : OpKind) (s : State) : (abortOp k s).mcast = s.mcast := by simp [abortOp]
@[simp] theorem abortOp_tree (k : OpKind) (s : State) : (abortOp k s).tree = s.tree := by simp [abortOp]
@[simp] theorem abortOp_qps (k : OpKind) (s : State) : (abortOp k s).qps = s.qps := by simp [abortOp]
@[simp] theorem abortOp_places (k : OpKind) (s : State) : (abortOp k s).places = s.places := by simp [abortOp]
@[simp] theorem abortOp_qcls (k : OpKind) (s : State) : (abortOp k s).qcls = s.qcls := by simp [abortOp]
@[simp] theorem abortOp_gn (k : OpKind) (s : State) : (abortOp k s).gn = s.gn := by simp [abortOp]
@[simp] theorem abortOp_stage (k : OpKind) (s : State) : (abortOp k s).stage = s.stage := by simp [abortOp]
@[simp] theorem abortOp_atr (k : OpKind) (s : State) : (abortOp k s).atr = s.atr := by simp [abortOp]
@[simp] theorem abortOp_nw (k : OpKind) (s : State) : (abortOp k s).nw = s.nw := by simp [abortOp]
@[simp] theorem abortOp_bundle (k : OpKind) (s : State) : (abortOp k s).bundle = s.bundle := by simp [abortOp]
@[simp] theorem abortOp_tele (k : OpKind) (s : State) : (abortOp k s).tele = s.tele := by simp [abortOp]
@[simp] theorem abortOp_temps (k : OpKind) (s : State) : (abortOp k s).temps = s.temps := by simp [abortOp]
@[simp] theorem abortOp_lastCmd (k : OpKind) (s : State) : (abortOp k s).lastCmd = s.lastCmd := by simp [abortOp]
@[simp] theorem abortOp_rot (k : OpKind) (s : State) : (abortOp k s).rot = s.rot := by simp [abortOp]
@[simp] theorem abortOp_hwSet (k : OpKind) (s : State) : (abortOp k s).hwSet = s.hwSet := by simp [abortOp]
@[simp] theorem abortOp_freeN (k : OpKind) (s : State) : (abortOp k s).freeN = s.freeN := by simp [abortOp]
@[simp] theorem abortOp_pending (k : OpKind) (s : State) : (abortOp k s).pending = s.pending := by simp [abortOp]

/-- An operation that keeps a part of the state keeps it over a list. -/
theorem foldl_keeps {α β : Type} (g : State → β) (f : State → α → State) (h : ∀ s a, g (f s a) = g s) (l : List α) (s : State) :
    g (l.foldl f s) = g s := by
  induction l generalizing s with
  | nil => rfl
  | cons a r ih => rw [List.foldl_cons, ih, h]

theorem live_of_boot {s t : State} (h : t.boot = s.boot) : live t = live s := by simp [live, h]

end Sys2Proof.Machine
end

