-- ==== Sys2Proof/Laws/Commands.lean ====
section
/-! SUPPORT. The command engine once for all commands: what a command that passes its checks answers, and the steps of the
checks of a body. -/

namespace Sys2Proof.Machine

open Sys2Proof

theorem postTag_bytes {sp : OpSpec} {c : Cmd} {bs : Bytes} {s : State} {p : Params} (h : postTag sp c bs s = .ok p) :
    p = { bytes := bs, noClamp := bit c.flags 1 } := by
  simp only [postTag] at h
  generalize (if c.session = 0 then none else sessionOn s c.origin c.session) = x at h
  split at h
  · simp [throw, throwThe, MonadExceptOf.throw] at h
  · split at h
    · simp [throw, throwThe, MonadExceptOf.throw] at h
    · split at h
      · simp [throw, throwThe, MonadExceptOf.throw] at h
      · split at h
        · simp [throw, throwThe, MonadExceptOf.throw] at h
        · exact (Except.ok.inj h).symm

theorem passes_bytes {sp : OpSpec} {c : Cmd} {s : State} {p : Params} (h : passes sp c s = some p) :
    p = { bytes := plain sp c s, noClamp := bit c.flags 1 } := by
  unfold passes at h
  split at h
  · cases h
  · split at h
    · cases h
    · split at h
      · cases h
      · rename_i hp
        cases h
        exact postTag_bytes hp

theorem command_passes {sp : OpSpec} {c : Cmd} {s : State} {p : Params} (h : passes sp c s = some p) :
    command sp c s =
      .next (closed sp c s (commit sp c p (baseReply sp.code c (c.session != 0)) (entered c s))) := by
  have hb := passes_bytes h
  unfold passes at h
  unfold command runCommand
  split at h
  · cases h
  · rename_i hc
    simp only [Bool.or_eq_true, not_or, Bool.not_eq_true', Bool.not_eq_true, Bool.not_eq_false] at hc
    obtain ⟨⟨⟨h1, h2⟩, h3⟩, _⟩ := hc
    split at h
    · cases h
    · rename_i hpre
      split at h
      · cases h
      · rename_i hpost
        cases h
        have he : (if c.session = 0 then intake c.origin s else countCommand c.session (intake c.origin s)) = entered c s := rfl
        simp only [h1, h2, h3, hpre, he, hpost, if_true, Bool.false_eq_true, if_false]
        change Host.Outcome.next (match postTag sp c (plain sp c s) (entered c s) with
          | .error e => _
          | .ok p => _) = _
        rw [hpost]
        simp only [closed, hb]

theorem passes_free {sp : OpSpec} {c : Cmd} {s : State} {p : Params} (h : passes sp c s = some p) :
    engineFree (entered c s) = true := by
  unfold passes at h
  split at h
  · cases h
  · rename_i hc
    simp only [Bool.or_eq_true, not_or, Bool.not_eq_true', Bool.not_eq_true, Bool.not_eq_false] at hc
    exact hc.2

theorem free_preempt {s : State} (h : engineFree s = true) (code : Nat) (bs : Bytes) : preempt code bs s = s := by
  simp only [engineFree, Bool.and_eq_true, Option.isNone_iff_eq_none] at h
  simp [preempt, preemptBundle, preemptTest, h.1, h.2]

theorem free_busy {s : State} (h : engineFree s = true) (sp : OpSpec) (p : Params) : engineBusy sp p s = false := by
  simp only [engineFree, Bool.and_eq_true, Option.isNone_iff_eq_none] at h
  simp [engineBusy, h.1, h.2]

/-- With no BUNDLE_ACTIVATE and no SELFTEST running, the engine carries a command's body out and answers. -/
theorem commit_free {s : State} (h : engineFree s = true) (sp : OpSpec) (c : Cmd) (p : Params) (r : Reply) :
    commit sp c p r s =
      match (sp.body p c s).run [] with
      | .error e => rejected r e s
      | .ok ((t, a), clamps) =>
        match a with
        | .done st data =>
          let st := if st = 0 then okStatus clamps false else st
          sendReply { r with status := st, clamps := if st < 0x10 then clamps else [], data := data }
            (if bit c.flags 0 then { s with freeN := t.freeN } else t)
        | .later k data =>
          if bit c.flags 0 then sendReply { r with status := okStatus clamps false, clamps := clamps, data := data } s
          else { t with ops := t.ops ++ [{ reply := { r with clamps := clamps, data := data }, kind := k }] } := by
  unfold commit
  simp only [free_preempt h, free_busy h, ite_self, Bool.false_and, Bool.false_eq_true, if_false]
  all_goals rcases (sp.body p c s).run [] with e | ⟨⟨t, a⟩, k⟩
  all_goals first | rfl | (cases a <;> rfl)

/-- A command whose body is done answers OK or OK_CLAMPED with its data. -/
theorem command_done {sp : OpSpec} {c : Cmd} {s t : State} {p : Params} {clamps : List Clamp} {data : Bytes}
    (h : passes sp c s = some p) (hf : bit c.flags 0 = false)
    (hb : (sp.body p c (entered c s)).run [] = .ok ((t, .done 0 data), clamps)) :
    command sp c s = .next (replied sp c s clamps data t) := by
  rw [command_passes h]
  have ho : okStatus clamps false < 0x10 := by unfold okStatus; split <;> [simp_all; (split <;> decide)]
  simp [commit_free (passes_free h), hb, hf, replied, ho]

/-- A command that a body rejects applies nothing. -/
theorem command_error {sp : OpSpec} {c : Cmd} {s : State} {p : Params} {e : Rej}
    (h : passes sp c s = some p) (hb : (sp.body p c (entered c s)).run [] = .error e) :
    command sp c s = .next (refusedWith sp c s e.status e.field) := by
  rw [command_passes h]
  simp [commit_free (passes_free h), hb, refusedWith, rejected]

/-- A command that begins an operation replies when the operation ends. -/
theorem command_later {sp : OpSpec} {c : Cmd} {s t : State} {p : Params} {k : OpKind} {clamps : List Clamp} {data : Bytes}
    (h : passes sp c s = some p) (hf : bit c.flags 0 = false)
    (hb : (sp.body p c (entered c s)).run [] = .ok ((t, .later k data), clamps)) :
    command sp c s = .next (opened sp c s k clamps data t) := by
  rw [command_passes h]
  simp [commit_free (passes_free h), hb, hf, opened]

/-! ## Checks that pass -/

theorem idF_ok {c : Params} {off w v : Nat} (i : Nat) {d : Option Nat} {ok : Nat → Bool}
    (h : raw c off w = some v) (hk : ok v = true) : idF c i off w d ok = pure v := by simp [idF, h, hk]

theorem idF_default {c : Params} {off w v : Nat} (i : Nat) {ok : Nat → Bool}
    (h : (raw c off w).getD v = v) (hk : ok v = true) : idF c i off w (some v) ok = pure v := by
  unfold idF
  cases hr : raw c off w <;> simp_all

theorem cfgF_ok {c : Params} {off w d v : Nat} (i : Nat) {app : Nat → Nat}
    (h : (raw c off w).getD d = v) (hk : app v = v) : cfgF c i off w d app = pure v := by
  simp [cfgF, h, clamped, hk]

theorem rangeF_ok {c : Params} {off w d lo hi v : Nat} (i : Nat)
    (h : (raw c off w).getD d = v) (hl : lo ≤ v) (hh : v ≤ hi) : rangeF c i off w d lo hi = pure v :=
  cfgF_ok i h (by unfold nearer; split <;> [omega; (split <;> omega)])

theorem elseF_ok {c : Params} {off w d v app : Nat} (i : Nat) {ok : Nat → Bool}
    (h : (raw c off w).getD d = v) (hk : ok v = true) : elseF c i off w d ok app = pure v :=
  cfgF_ok i h (by simp [hk])

theorem anyF_ok {c : Params} {off w d v : Nat} (h : (raw c off w).getD d = v) : anyF c off w d = pure v := by simp [anyF, h]

theorem rejectIf_ok {b : Bool} (st : Nat) (h : b = false) : rejectIf b st = pure () := by simp [rejectIf, h]
theorem rejectIfAt_ok {b : Bool} (st i : Nat) (h : b = false) : rejectIfAt b st i = pure () := by simp [rejectIfAt, h]

theorem thePort_ok {s : State} {p : Nat} {q : Port} (h : getPort s p = some q) : thePort s p = pure q := by simp [thePort, h]

theorem portF_ok {s : State} {c : Params} {i off p : Nat} (h : raw c off 2 = some p) (hp : inUse s p = true) :
    portF s c i off = pure p := idF_ok i h hp

theorem typedPortF_ok {s : State} {t : PortType} {c : Params} {i off p : Nat} (h : raw c off 2 = some p)
    (hp : isType s t p = true) : typedPortF s t c i off = pure p := idF_ok i h hp

theorem bayF_ok {s : State} {c : Params} {b : Nat} {y : Bay} (h : raw c 0 2 = some b) (hb : tget s.bays b = some y) :
    bayF s c = pure (b, y) := by simp [bayF, idF_ok 0 h (ok := fun b => (tget s.bays b).isSome) (by simp [hb]), hb]

/-! ## What entering a command leaves unchanged -/

theorem clockTo_eq (d : Nat) (s : State) : clockTo d s = { s with dc := (clockTo d s).dc, ft := (clockTo d s).ft } := by
  unfold clockTo; split <;> rfl

theorem accept_eq (o : Origin) (s : State) :
    accept o s = { s with dc := (accept o s).dc, ft := (accept o s).ft, lastCmd := (accept o s).lastCmd, rot := (accept o s).rot } := by
  unfold accept
  cases s.lastCmd with
  | none => rfl
  | some m => simp only; rw [clockTo_eq]

theorem intake_eq (o : Origin) (s : State) :
    intake o s = { s with
      dc := (intake o s).dc, ft := (intake o s).ft, lastCmd := (intake o s).lastCmd, rot := (intake o s).rot,
      ports := (intake o s).ports } := by
  have hp : ∀ o, (accept o s).ports = s.ports := fun o => by rw [accept_eq]
  cases o with
  | ring p =>
    simp only [intake, takeSlot, setStd, setPort, hp]
    conv_lhs => rw [accept_eq]
  | _ =>
    simp only [intake, hp]
    conv_lhs => rw [accept_eq]

theorem entered_eq (c : Cmd) (s : State) :
    entered c s = { s with
      dc := (entered c s).dc, ft := (entered c s).ft, lastCmd := (entered c s).lastCmd, rot := (entered c s).rot,
      ports := (intake c.origin s).ports, sec := (entered c s).sec } := by
  unfold entered; split
  · rw [intake_eq]
  · rw [countCommand, setSec, intake_eq]

end Sys2Proof.Machine
end

