-- ==== Sys2Proof/WellFormed.lean ====
section
/-! DEFINITION. Which commands the hardware's operand widths admit. -/

namespace Sys2Proof

/-- Bytes are bytes. -/
def bytesWf (bs : Bytes) : Bool := bs.all (· < 256)

/-- A port number (R31) or a bay number (R385) of an origin. -/
def Origin.wf : Origin → Bool
  | .ring p => p < 512
  | .vdm p => p < 512
  | .bay b => b < 2048
  | .i3c => true

/-- The packet header's field widths (02, Packet format), its parameter bytes at most 4,080 (R56). -/
def Cmd.wf (c : Cmd) : Bool :=
  c.origin.wf && c.tag < 2 ^ 16 && c.plen < 2 ^ 16 && c.flags < 2 ^ 16 && c.session < 2 ^ 32 && c.rsv < 2 ^ 32 && bytesWf c.params
    && c.params.length ≤ c.plen

/-- Header fields of R141 in their widths. -/
def Msg.wf (m : Msg) : Bool :=
  m.kind < 16 && m.dpid < 4096 && m.spid < 4096 && m.dlen < 65536 && m.ttl < 256 && m.service < 8 && m.group < 4096

/-- Line levels 0 to 3 of at most 16 lanes (R30, R104). -/
def levelsWf (rx : List (List Nat)) : Bool := rx.length ≤ 16 && rx.all fun l => l.all (· < 4)

/-- A serial number of 64 bits and a P-384 public key (R428, R429). -/
def KeyxEnv.wf (e : KeyxEnv) : Bool := e.serial < 2 ^ 64 && e.x < 2 ^ 384 && e.y < 2 ^ 384

/-- What a configuration request sets lies in the standard's fields: the sizes of R191, the decoders of R195, lanes and payloads of
R127. -/
def CfgOp.wf : CfgOp → Bool
  | .vfEnable n => n < 2 ^ 16
  | .maxPayload n => 128 ≤ n && n ≤ 4096
  | .maxRead n => 128 ≤ n && n ≤ 4096
  | .hdm i base size _ => i < 32 && base < 2 ^ 64 && size ≤ 2 ^ 64
  | .mctpUnit n => 64 ≤ n && n ≤ 512
  | .margin port lane type payload => port < 512 && lane < 16 && type < 8 && payload < 256
  | .msixMask v _ => v < 2048
  | _ => true

/-- The functions by port or bay number. -/
def Fn.wf : Fn → Bool
  | .pf0 p => p < 512
  | .bay b => b < 2048

def Fifo.wf : Fifo → Bool
  | .toManager b => b < 2048
  | .toBay b => b < 2048
  | .cmdRing p i => p < 512 && i < 65536
  | .rplRing p i => p < 512 && i < 65536
  | .evRing i f => i < 65536 && f < 65536

def Straps.wf (s : Straps) : Bool := s.pmap < 16 && s.mgrHall < 8

def BSrc.wf : BSrc → Bool
  | .port p => p < 512
  | .central m => m.wf

def MemErr.wf : MemErr → Bool
  | .hallMem h => h < 8
  | .hallCorr h => h < 8
  | .cellData p _ => p < 512
  | .centralMem c => c < 256

def Party.wf : Party → Bool
  | .officer o a => o.wf && a < 4
  | .bay b => b < 2048
  | .link p => p < 512
  | .enrol => true

/-- The operands of a command lie in the widths the manual gives them: ports 0 to 511 (R31), lanes 0 to 511 (R29), bays
0 to 2047 (R385), halls 0 to 7 (R22), QPNs 20 bits (R338), channels 0 to 31 (R479), 32-bit register words (R8), BAR windows
numbered by port and then by bay (log 39). -/
def Instr.wf : Instr → Bool
  | .deviceInfo c => c.wf
  | .fdidSet c => c.wf
  | .bundleKeySet c => c.wf
  | .bundleLoad c => c.wf
  | .bundleActivate c => c.wf
  | .fwUpdate c => c.wf
  | .fwSelect c => c.wf
  | .deviceReset c => c.wf
  | .deviceResetBegin => true
  | .portMapSet c => c.wf
  | .portEnable c => c.wf
  | .portDisable c => c.wf
  | .portDown c => c.wf
  | .portRelease c => c.wf
  | .portStatus c => c.wf
  | .spanResize c => c.wf
  | .spanTimers c => c.wf
  | .spanPolicy c => c.wf
  | .hpPower c => c.wf
  | .vhBind c => c.wf
  | .vhUnbind c => c.wf
  | .laneTest c => c.wf
  | .eyeScan c => c.wf
  | .pidSet c => c.wf
  | .routeSet c => c.wf
  | .groupSet c => c.wf
  | .groupIndirSet c => c.wf
  | .mcastSet c => c.wf
  | .bufferSet c => c.wf
  | .mgtTreeSet c => c.wf
  | .leafAssign c => c.wf
  | .subscriberSet c => c.wf
  | .serviceSet c => c.wf
  | .lengthModeSet c => c.wf
  | .flightLoad c => c.wf
  | .meterSet c => c.wf
  | .timeConfig c => c.wf
  | .ctxTableSet c => c.wf
  | .qpCreate c => c.wf
  | .qpModify c => c.wf
  | .qpDestroy c => c.wf
  | .qpQuery c => c.wf
  | .mrRegister c => c.wf
  | .mrDeregister c => c.wf
  | .qpClassSet c => c.wf
  | .bayCreate c => c.wf
  | .bayResize c => c.wf
  | .bayReset c => c.wf
  | .bayRemove c => c.wf
  | .bayQuery c => c.wf
  | .sessionEnd c => c.wf
  | .mpuWrite c => c.wf
  | .garnetWindowSet c => c.wf
  | .garnetCommit c => c.wf
  | .violationRead c => c.wf
  | .ideStreamSet c => c.wf
  | .spanRekey c => c.wf
  | .lockSet c => c.wf
  | .zeroize c => c.wf
  | .selftest c => c.wf
  | .approvedGet c => c.wf
  | .eventReactionSet c => c.wf
  | .firstEventRead c => c.wf
  | .historyRead c => c.wf
  | .eventRingSet c => c.wf
  | .newelConfig c => c.wf
  | .newelOn c => c.wf
  | .newelOff c => c.wf
  | .newelStatus c => c.wf
  | .stairwellSet c => c.wf
  | .newelClear c => c.wf
  | .countersRead c => c.wf
  | .sensorsRead c => c.wf
  | .telemetryStream c => c.wf
  | .mctpCommandReceive o units _ => o.wf && units.all bytesWf
  | .cmdDoorbell port prod => port < 512 && prod < 2 ^ 16
  | .rplConsWrite port cons => port < 512 && cons < 2 ^ 16
  | .ringEnable port value => port < 512 && value < 2 ^ 32
  | .ringStop port value => port < 512 && value < 2 ^ 32
  | .ringCommandFetch port slot _ => port < 512 && bytesWf slot
  | .atEvrConsWrite cons => cons < 2 ^ 16
  | .atIntStatusWrite value => value < 2 ^ 32
  | .geSqDb bay value _ => bay < 2048 && value < 2 ^ 32
  | .geRqDb bay value _ => bay < 2048 && value < 2 ^ 32
  | .geCrDb bay value => bay < 2048 && value < 2 ^ 32
  | .geSqPush bay bytes _ _ => bay < 2048 && bytesWf bytes
  | .alTxDb _ bay => bay < 2048
  | .alRxPop _ bay => bay < 2048
  | .alRxBufRead _ bay word => bay < 2048 && word < 16
  | .flushRx _ bay => bay < 2048
  | .flushTx _ bay => bay < 2048
  | .fifoFlushTakeEffect _ bay => bay < 2048
  | .alStatusWrite _ bay value => bay < 2048 && value < 2 ^ 32
  | .fifoPointerReset fifo => fifo.wf
  | .scLeafCfgWrite hall leaf value => hall < 8 && leaf < 4096 && value < 2 ^ 32
  | .nwChBoardWrite ch reg value => ch < 32 && reg < 2 && value < 2 ^ 32
  | .nwChAssocWrite ch value => ch < 32 && value < 2 ^ 32
  | .latchedLoRead _ => true
  | .rcCounterRead via addr => via < 2560 && addr < 2 ^ 32
  | .registerWrite via addr value be => via < 2560 && addr < 2 ^ 32 && value < 2 ^ 32 && be < 16
  | .bmeClear fn => fn.wf
  | .bmeSet fn => fn.wf
  | .functionLevelReset bay => bay < 2048
  | .vfEnableClear port numVfs => port < 512 && numVfs < 2 ^ 16
  | .hotReset port => port < 512
  | .perstNAssert idx => idx < 64
  | .perstNDeassert idx => idx < 64
  | .porNLow => true
  | .porNRise straps _ => straps.wf
  | .railOutOfRange rail => rail < 4
  | .railRestored rail => rail < 4
  | .pllRootLock => true
  | .atriumInitDone => true
  | .bedrockReady _ _ => true
  | .mezzanineImageVerified slot flash => slot < 2 && flash.all bytesWf
  | .mezzanineRunning => true
  | .watchdogExpiry => true
  | .mezzException core => core < 4
  | .rootPllLockLoss => true
  | .quadPllLockLoss quad => quad < 128
  | .elasticSlip lane => lane < 512
  | .cdrLockLoss lane => lane < 512
  | .alignWordMiss lane => lane < 512
  | .alignmentFound port words _ ctle => port < 512 && levelsWf words && ctle.all (· ≤ 24)
  | .flitRxData port rx => port < 512 && levelsWf rx
  | .flitRxIdle port rx => port < 512 && levelsWf rx
  | .flitRxTrain port rx ask => port < 512 && levelsWf rx && ask.all (· < 16)
  | .flitRxKeyx port rx env => port < 512 && levelsWf rx && env.wf
  | .flitRxInit port rx => port < 512 && levelsWf rx
  | .leakIdleReset port _ => port < 512
  | .resizeReq port rx => port < 512 && levelsWf rx
  | .resizeAck port rx => port < 512 && levelsWf rx
  | .resizeSwitch port => port < 512
  | .ackTmrExpiry port => port < 512
  | .replayTmrExpiry port => port < 512
  | .replayStall port => port < 512
  | .eqTimeout port => port < 512
  | .keyxTimeout port => port < 512
  | .initTimeout port => port < 512
  | .freshTrainingRetry port => port < 512
  | .idleHalfWidth port => port < 512
  | .keyLimitReached port => port < 512
  | .keyNext port index => port < 512 && index < 2 ^ 16
  | .keyIndexExhausted port => port < 512
  | .keyxMgtMessage port payload env => port < 512 && bytesWf payload && env.wf
  | .timeExchangeStart port _ => port < 512
  | .timeReq port _ _ => port < 512
  | .timeRsp port _ _ _ => port < 512
  | .ptmExchange port _ _ _ _ _ => port < 512
  | .messageIngress port _ => port < 512
  | .tlpReceive port tlp => port < 512 && tlp.msg.wf
  | .engineMessageWait _ => true
  | .deferHeadRelease hall meter => hall < 8 && meter < 8192
  | .messageTransmitStart port _ => port < 512
  | .transmissionEnd port => port < 512
  | .fenceRemoval hall leaf => hall < 8 && leaf < 4096
  | .wheelRelease hall => hall < 8
  | .flightEntryBoundary port => port < 512
  | .flightTakeover port => port < 512
  | .holdGraceExpiry port => port < 512
  | .pauseDrained group entry => group < 64 && entry < 256
  | .rebalWaitExpiry group entry => group < 64 && entry < 256
  | .multicastCopyCross _ hall => hall < 8
  | .mgtBroadcast src => src.wf
  | .mgtBroadcastCopyLeave hall pipe port _ => hall < 8 && pipe < 4 && port < 512
  | .flushCompletionIssue port => port < 512
  | .flushEnd port => port < 512
  | .amberEntry port => port < 512
  | .linkUp port _ => port < 512
  | .linkTrainingFail port => port < 512
  | .linkDown port => port < 512
  | .loopbackRequest port => port < 512
  | .ideIntegrityFail port stream => port < 512 && stream < 16
  | .ideKeyProg port stream kind id set keys =>
    port < 512 && stream < 16 && kind < 2 && id < 256 && set < 2 && keys.length == 6 && keys.all (· < 2 ^ 256)
  | .l1IdleExpiry port => port < 512
  | .l1ExitComplete port => port < 512
  | .l0pHalve port => port < 512
  | .l0pFullWidth port => port < 512
  | .partnerPowerRequest port _ width => port < 512 && width < 17
  | .unbindDrainExpiry port ld => port < 512 && ld < 2 ^ 16
  | .eyeScanEnd port lane _ _ _ => port < 512 && lane < 512
  | .prbsLockLoss lane symbols => lane < 512 && symbols.all (· < 4)
  | .packetFirstSend qpn _ => qpn < 2 ^ 20
  | .contextFetchComplete qpn _ _ _ _ => qpn < 2 ^ 20
  | .contextWriteBackDone qpn => qpn < 2 ^ 20
  | .galleryWrite pkt _ => pkt.wf
  | .galleryReadReq pkt _ => pkt.wf
  | .galleryReadRsp pkt _ => pkt.wf
  | .gallerySend pkt _ => pkt.wf
  | .galleryDatagram pkt _ => pkt.wf
  | .galleryAck pkt => pkt.wf
  | .galleryNak pkt => pkt.wf
  | .retryLaterResend qpn msn _ => qpn < 2 ^ 20 && msn < 2 ^ 24
  | .rtoExpiry qpn msn _ => qpn < 2 ^ 20 && msn < 2 ^ 24
  | .completionWrite qpn => qpn < 2 ^ 20
  | .atsInvalidation port page => port < 512 && page < 2 ^ 52
  | .pageResponse bay page _ => bay < 2048 && page < 2 ^ 52
  | .mrDeregisterDone handle => handle < 2 ^ 32
  | .bayDrainEnd bay => bay < 2048
  | .drainLimitExpiry bay => bay < 2048
  | .bayResetComplete bay => bay < 2048
  | .deviceNoticePost bay => bay < 2048
  | .tagQuarantineRelease port tag => port < 512 && tag < 2 ^ 16
  | .stopInterface bay => bay < 2048
  | .keyExchange party id period => party.wf && id < 2 ^ 32 && period < 256
  | .spdmFinish id _ => id < 2 ^ 32
  | .endSession o id => o.wf && id < 2 ^ 32
  | .heartbeat o id => o.wf && id < 2 ^ 32
  | .heartbeatExpiry id => id < 2 ^ 32
  | .keyUpdate o id => o.wf && id < 2 ^ 32
  | .getMeasurements o => o.wf
  | .officerEnrol o _ slot _ hash => o.wf && slot < 4 && hash < 2 ^ 384
  | .drbgReseed => true
  | .selfTestFailure cause => cause < 256
  | .debugToken anchor _ => anchor < 4
  | .oldEpochDrained mpu => mpu < 132 || mpu == 0xFFFF
  | .commitWaitExpiry mpu => mpu < 132 || mpu == 0xFFFF
  | .eventDrain lane => lane < 8
  | .wiredBayReset bay => bay < 2048
  | .basaltEntry => true
  | .atriumSelf cause => cause < 256
  | .telemetryPeriod stream => stream < 16
  | .thermalSample die _ => die < 10
  | .waitToQueued ch => ch < 32
  | .stairwellAdmission feed => feed < 2
  | .pgAssert ch => ch < 32
  | .pgLoss ch => ch < 32
  | .startTimeout ch => ch < 32
  | .fastTrip ch => ch < 32
  | .ocTimeout ch => ch < 32
  | .overTemperature ch => ch < 32
  | .retryTimerExpiry ch => ch < 32
  | .pgHold10s ch => ch < 32
  | .boardInsertion ch => ch < 32
  | .boardRemoval ch => ch < 32
  | .fetShort ch => ch < 32
  | .feedBad feed volt => feed < 2 && volt < 2 ^ 11
  | .feedGood feed volt => feed < 2 && volt < 2 ^ 11
  | .deadTimeExpiry ch => ch < 32
  | .pgBlankingEnd ch _ => ch < 32
  | .feedDroop feed volt => feed < 2 && volt < 2 ^ 11
  | .feedDroopEnd feed volt => feed < 2 && volt < 2 ^ 11
  | .vnewelUndervoltage => true
  | .vnewelRestored => true
  | .diodeMeasure ch _ _ _ => ch < 32
  | .thermalModelUpdate ch _ _ => ch < 32
  | .nwPerstNRise ch => ch < 32
  | .receiverDetect port _ => port < 512
  | .uncorrectableMemoryError err => err.wf
  | .hallLinkError hall => hall < 8
  | .lockInterfaceRequest bay stream => bay < 2048 && stream < 256
  | .startInterfaceRequest bay => bay < 2048
  | .configurationRequest fn op => fn.wf && op.wf
  | .hotResetExit port => port < 512
  | .prbsCheckerLock lane symbols => lane < 512 && symbols.all (· < 4)
  | .debugHalt _ => true

end Sys2Proof
end

