-- ==== Sys2Proof/Tests/Slice0.lean ====
section
/-! SUPPORT. Witnesses that the hypotheses of each statement can be met, an ill-formed term for each check of WellFormed,
and tests of single steps against the figures of the manual. -/

namespace Sys2Proof.Tests

open Sys2Proof Sys2Proof.Machine

set_option Elab.async false

/-! ## States and commands the tests start from -/

/-- A running device with some ports. -/
def running (ports : Tab Port) : State :=
  { boot := { por := false, pin := false, pll := true, atr := true, bedrock := true, mezz := .running, mgr := some 0 },
    sec := { testsOk := true, identity := true, drbg := true }, ports := ports }
/-- A command packet over I3C without session. -/
def i3c (bs : Bytes) : Cmd := { origin := .i3c, plen := bs.length, carrier := 16 + bs.length, params := bs }
/-- A session of the board controller in the officer role. -/
def officer (s : State) : State := { s with sec := { s.sec with sessions := [{ id := 7, role := .officer, origin := some .i3c, done := true }] } }
/-- A command of that session: its parameters are encrypted under the session's keys (R59). -/
def sealed (code : Nat) (bs : Bytes) : Cmd :=
  let c : Cmd := { origin := .i3c, plen := bs.length + 16, carrier := 32 + bs.length, session := 7 }
  let x := Crypto.gcmSeal (appKey 0) (appNonce 0 0) (packetHeader code c) bs
  { c with params := x.1 ++ x.2 }
/-- Ports of the three types, in a state. -/
def hp (st : PortState) : Port := { typ := .h, width := 16, widthNow := 16, st := st, rate := 6, std := { bme := true } }
def dp (st : PortState) : Port := { typ := .d, width := 4, widthNow := 4, st := st, rate := 6 }
def sp (st : PortState) : Port := { typ := .span, width := 16, widthNow := 16, st := st, rate := 7 }
/-- A running device with one port. -/
def one (n : Nat) (q : Port) : State := running [(n, q)]
/-- A command to one port, by number. -/
def portCmd (n : Nat) (bs : Bytes) : Cmd := i3c (le 2 n ++ bs)

/-! ## Witnesses of the statements' hypotheses -/

theorem witness_ColdResetKeepsOnlyWhatR516Names :
    ((running []).boot.por = false ∧ (running []).boot.pin = false)
    ∧ ((running []).boot.por = false ∧ 3 < 4 ∧ (running []).boot.rails.contains 3 = false) := by decide

/-- Power on with POR_N low, and with one rail out. -/
def railOut : State := { boot := { pin := false, rails := [2] } }

theorem witness_ReleaseStartsTimeZero :
    (State.reset.boot.pin = true ∧ State.reset.boot.por = true ∧ State.reset.boot.rails = [])
    ∧ (railOut.boot.rails = [2] ∧ railOut.boot.pin = false ∧ railOut.boot.por = true) := by decide

/-- The boot timeline before and after each of its steps. -/
def booting (pll atr bedrock : Bool) (m : Mezz) : State :=
  { boot := { por := false, pin := false, pll := pll, atr := atr, bedrock := bedrock, mezz := m, straps := { pmap := 5, nwAuto := true } } }

/-- The base point of P-384. -/
def gX : Nat := 0xaa87ca22be8b05378eb1c71ef320ad746e1d3b628ba79b9859f741e082542a385502f25dbf55296c3a545e3872760ab7
def gY : Nat := 0x3617de4a96262c6f5d9e98bf9292dc29f8f41dbd289a147ce9da3113b5f0b8c00a60b1ce1d7e819d7a431d7c90ea0e5f
/-- A signature under the private key 1, whose public key is the base point, as bundles and images carry it. -/
def signed384 (msg : Bytes) : Bytes := let g := Crypto.ecdsaSign 1 2 msg; msg ++ (g.take 48).reverse ++ (g.drop 48).reverse
/-- A Mezzanine image of 160 bytes under signing slot 0. -/
def bootImage : Bytes := signed384 (le 4 0x4D5A5A31 ++ le 4 7 ++ le 4 1 ++ le 4 160 ++ List.replicate 48 0)

theorem witness_BootTimelineRunsInOrder :
    ((booting false false false .stopped).boot.por = false ∧ (booting false false false .stopped).boot.pll = false
      ∧ (booting false false false .stopped).boot.basalt = false ∧ (booting false false false .stopped).ft.valid = false)
    ∧ ((booting true false false .stopped).boot.por = false ∧ (booting true false false .stopped).boot.pll = true
      ∧ (booting true false false .stopped).boot.basalt = false)
    ∧ (live (booting true true false .stopped) = true ∧ (booting true true false .stopped).boot.bedrock = false
      ∧ ((booting true true false .stopped).nv.patch = true → true = true))
    ∧ (let s := setNv (fun v => { v with keySlots := (shaOf (Crypto.toBE 48 gX ++ Crypto.toBE 48 gY), false) :: v.keySlots.drop 1 })
         (booting true true true .loading)
       live s = true ∧ s.boot.bedrock = true ∧ s.boot.mezz = .loading ∧ loadSlot s = some 0
       ∧ imageFault (setNv (fun v => { v with images := tset v.images 0 (imageOf s bootImage) }) s) (imageOf s bootImage) = 0)
    ∧ (live (booting true true true .started) = true ∧ (booting true true true .started).boot.mezz = .started) := by decide +kernel

theorem witness_MezzanineStopRestartsUntilTheFifth :
    live (running []) = true ∧ (running []).boot.mezz = .running ∧ (running []).atr.stopped = false ∧ 3 < 4 := by decide

/-- The parameters of DEVICE_RESET KIND 2 with its confirmation. -/
def resetBytes : Bytes := [2, 0, 0, 0, 0x54, 0x45, 0x53, 0x52]

/-- A DEVICE_RESET that waits its 100 us. -/
def resetWaits (k : Nat) : State := { running [] with boot := { (running []).boot with resetPend := some (k, 9) } }

theorem witness_DeviceResetFollowsItsReplyBy100us :
    (passes specDeviceReset (sealed 0x0108 resetBytes) (officer (running [])) = some { bytes := resetBytes }
      ∧ bit (sealed 0x0108 resetBytes).flags 0 = false ∧ raw { bytes := resetBytes } 0 1 = some 2 ∧ 2 ≤ 2
      ∧ raw { bytes := resetBytes } 4 4 = some 0x52534554 ∧ (officer (running [])).boot.resetPend = none)
    ∧ ((resetWaits 2).boot.resetPend = some (2, 9) ∧ (resetWaits 2).boot.por = false ∧ (resetWaits 2).boot.pin = false
      ∧ (resetWaits 2).boot.rails = [])
    ∧ ((resetWaits 1).boot.resetPend = some (1, 9) ∧ (resetWaits 1).boot.por = false ∧ (resetWaits 1).boot.basalt = false
      ∧ (resetWaits 1).boot.warm = false) := by decide +kernel

theorem witness_PortCommandsMoveThePort :
    (taken specPortEnable (portCmd 8 []) (one 8 (dp .disabled)) { bytes := [8, 0] } = true
      ∧ raw { bytes := [8, 0] } 0 2 = some 8 ∧ getPort (entered (portCmd 8 []) (one 8 (dp .disabled))) 8 = some (dp .disabled)
      ∧ (dp .disabled).st = .disabled ∧ tested (one 8 (dp .disabled)) 8 (dp .disabled) = false ∧ portBusy (one 8 (dp .disabled)) 8 = false)
    ∧ (taken specPortDisable (portCmd 8 []) (one 8 (dp .down)) { bytes := [8, 0] } = true
      ∧ getPort (entered (portCmd 8 []) (one 8 (dp .down))) 8 = some (dp .down) ∧ portBusy (one 8 (dp .down)) 8 = false)
    ∧ (taken specPortDown (portCmd 8 []) (one 8 (sp .up)) { bytes := [8, 0] } = true
      ∧ getPort (entered (portCmd 8 []) (one 8 (sp .up))) 8 = some (sp .up) ∧ amberWired (one 8 (sp .up)) 8 = [])
    ∧ (taken specPortRelease (portCmd 8 []) (one 8 (hp .amber)) { bytes := [8, 0] } = true
      ∧ getPort (entered (portCmd 8 []) (one 8 (hp .amber))) 8 = some (hp .amber) ∧ portBusy (one 8 (hp .amber)) 8 = false)
    ∧ (taken specPortStatus (portCmd 480 [32, 0]) (one 8 (hp .up)) { bytes := [0xE0, 1, 32, 0] } = true
      ∧ raw { bytes := [0xE0, 1, 32, 0] } 0 2 = some 480 ∧ (raw { bytes := [0xE0, 1, 32, 0] } 2 2).getD 1 = 32
      ∧ 480 + 32 ≤ 512) := by decide +kernel

theorem witness_PortCommandsInOtherStates :
    raw { bytes := [8, 0] } 0 2 = some 8
    ∧ (getPort (entered (portCmd 8 []) (one 8 (sp .up))) 8 = some (sp .up)
      ∧ passes specPortEnable (portCmd 8 []) (one 8 (sp .up)) = some { bytes := [8, 0] }
      ∧ passes specPortDisable (portCmd 8 []) (one 8 (sp .up)) = some { bytes := [8, 0] }
      ∧ passes specPortRelease (portCmd 8 []) (one 8 (sp .up)) = some { bytes := [8, 0] })
    ∧ (getPort (entered (portCmd 8 []) (one 8 (sp .disabled))) 8 = some (sp .disabled)
      ∧ taken specPortDown (portCmd 8 []) (one 8 (sp .disabled)) { bytes := [8, 0] } = true
      ∧ taken specPortDisable (portCmd 8 []) (one 8 (sp .disabled)) { bytes := [8, 0] } = true) := by decide +kernel

/-- A map of one H port and one span. -/
def mapBytes : Bytes := [2, 0, 0, 0, 0, 0, 16, 0, 16, 0, 16, 2]

theorem witness_PortMapSetAppliesALegalMap :
    taken specPortMapSet (i3c mapBytes) (officer (running [(32, dp .down), (16, sp .up)])) { bytes := mapBytes } = true
    ∧ raw { bytes := mapBytes } 0 2 = some 2 ∧ (2 : Nat) ≤ 512
    ∧ (mapEntries { bytes := mapBytes } 2 0 []).run [] = .ok ([(0, 16, .h), (16, 16, .span)], [])
    ∧ mapFault [] [(0, 16, .h), (16, 16, .span)] 0 = none
    ∧ (∀ e ∈ (entered (i3c mapBytes) (officer (running [(32, dp .down), (16, sp .up)]))).ports,
      (([(0, 16, .h), (16, 16, .span)] : List MapEnt).any fun x => x.1 == e.1 && x.2.1 == e.2.width && x.2.2 == e.2.typ) = true
        ∨ ((e.2.st = .disabled ∨ e.2.st = .down)
          ∧ (officer (running [(32, dp .down), (16, sp .up)])).boot.mgr ≠ some e.1
          ∧ portBusy (entered (i3c mapBytes) (officer (running [(32, dp .down), (16, sp .up)]))) e.1 = false
          ∧ tested (entered (i3c mapBytes) (officer (running [(32, dp .down), (16, sp .up)]))) e.1 e.2 = false)) := by decide +kernel

/-- An H port held in DOWN. -/
def heldDown : Port := { hp .down with std := { bme := true, hotRst := true, perstDown := true } }
def perst0 (s : State) : State := { s with boot := { s.boot with perst := [0] } }

theorem witness_LinkEventsMoveStandardPorts_1 :
    (live (one 8 (dp .training)) = true ∧ getPort (one 8 (dp .training)) 8 = some (dp .training) ∧ (dp .training).typ ≠ .span
      ∧ slotPowered (one 8 (dp .training)) 8 = true ∧ 0 < 4 ∧ 4 ≤ (dp .training).width
      ∧ groupOf (one 8 (dp .training)) 8 = none)
    ∧ (live (one 0 (hp .up)) = true ∧ getPort (one 0 (hp .up)) 0 = some (hp .up) ∧ (hp .up).typ ≠ .span ∧ (hp .up).st = .up) := by
  decide +kernel

theorem witness_LinkEventsMoveStandardPorts_2 :
    (live (one 0 (hp .up)) = true ∧ getPort (one 0 (hp .up)) 0 = some (hp .up) ∧ (hp .up).typ = .h)
    ∧ (live (perst0 (one 0 heldDown)) = true ∧ getPort (perst0 (one 0 heldDown)) 0 = some heldDown ∧ heldDown.typ = .h
      ∧ heldDown.st = .down ∧ heldDown.std.hotRst = true ∧ perstHigh (perst0 (one 0 heldDown)) 0 = true)
    ∧ (perstPort (one 0 (hp .up)) 0 = some 0)
    ∧ (live (one 0 heldDown) = true ∧ (one 0 heldDown).boot.bedrock = true ∧ perstPort (one 0 heldDown) 0 = some 0
      ∧ getPort (one 0 heldDown) 0 = some heldDown ∧ heldDown.std.perstDown = true
      ∧ (one 0 heldDown).boot.perst.contains 0 = false) := by decide +kernel

/-- A port whose flush still owes a completion. -/
def flushing : Port := { dp .down with flush := some { n := 9, compl := [{ cls := .rsp }], next := 3 } }
/-- A reaction AMBER of port 8, on its way. -/
def amberComes : State := { one 8 (dp .up) with atr := { wired := [{ source := 8, react := 2, cause := 1, object := 8, actor := 0, due := 6 }] } }

theorem witness_LinkEventsMoveStandardPorts_3 :
    (live amberComes = true ∧ (leastBy (·.due) (amberWired amberComes 8)).isSome = true)
    ∧ (live (one 8 flushing) = true ∧ getPort (one 8 flushing) 8 = some flushing ∧ flushing.flush.isSome = true
      ∧ (flushing.flush.map (·.compl)) = some [{ cls := .rsp }] ∧ flushing.flush.map (·.active) = some true
      ∧ flushing.flush.map (·.abort) = some false ∧ flushing.st = .down) := by decide +kernel

theorem witness_LaneTestsAndEyeScans_1 :
    taken specLaneTest (portCmd 8 [15, 0, 1]) (one 8 (dp .disabled)) { bytes := [8, 0, 15, 0, 1] } = true
    ∧ taken specLaneTest (portCmd 8 [15, 0, 0]) (one 8 (dp .disabled)) { bytes := [8, 0, 15, 0, 0] } = true
    ∧ getPort (entered (portCmd 8 [15, 0, 1]) (one 8 (dp .disabled))) 8 = some (dp .disabled)
    ∧ getPort (entered (portCmd 8 [15, 0, 0]) (one 8 (dp .disabled))) 8 = some (dp .disabled)
    ∧ (∀ k, k < 2 → raw { bytes := [8, 0, 15, 0, k] } 0 2 = some 8 ∧ (raw { bytes := [8, 0, 15, 0, k] } 2 2).getD 15 = 15
      ∧ raw { bytes := [8, 0, 15, 0, k] } 4 1 = some k ∧ (raw { bytes := [8, 0, 15, 0, k] } 5 1).getD 3 = 3
      ∧ (raw { bytes := [8, 0, 15, 0, k] } 6 1).getD 0 = 0 ∧ (raw { bytes := [8, 0, 15, 0, k] } 7 1).getD 1 = 1
      ∧ (raw { bytes := [8, 0, 15, 0, k] } 8 1).getD 6 = 6 ∧ (raw { bytes := [8, 0, 15, 0, k] } 9 1).getD 4 = 4)
    ∧ portBusy (one 8 (dp .disabled)) 8 = false := by decide +kernel

/-- A lane test that checks, with lock. -/
def testing : State :=
  { one 8 (dp .disabled) with
    lanes := [(9, { prbsLock := true, test := some { mode := 1, dir := 3, pattern := 0, precode := true, rate := 6, preset := 4 } })] }
/-- An eye scan that runs. -/
def scanning : State :=
  { one 8 (dp .up) with lanes := [(9, { scan := some { at_ := some 5, dwell := 10, eye := 0, thr := 6 } })],
                        ops := [{ reply := { origin := .i3c, opcode := 0x020E, tag := 0, status := 0, session := 0 }, kind := .eyeScan 8 1 }] }

theorem witness_LaneTestsAndEyeScans_2 :
    (live testing = true ∧ checking testing 9 = true ∧ (getLane testing 9).prbsLock = true)
    ∧ (taken specEyeScan (portCmd 8 [1, 0]) (one 8 (dp .up)) { bytes := [8, 0, 1, 0] } = true
      ∧ raw { bytes := [8, 0, 1, 0] } 0 2 = some 8 ∧ getPort (entered (portCmd 8 [1, 0]) (one 8 (dp .up))) 8 = some (dp .up)
      ∧ raw { bytes := [8, 0, 1, 0] } 2 2 = some 1 ∧ 1 < (dp .up).width ∧ (raw { bytes := [8, 0, 1, 0] } 4 2).getD 10 = 10
      ∧ (raw { bytes := [8, 0, 1, 0] } 6 1).getD 0 = 0 ∧ (raw { bytes := [8, 0, 1, 0] } 7 1).getD 6 = 6
      ∧ (getLane (one 8 (dp .up)) 9).scan = none)
    ∧ (live scanning = true ∧ (getLane scanning (8 + 1)).scan = some { at_ := some 5, dwell := 10, eye := 0, thr := 6 }
      ∧ (findOp scanning (.eyeScan 8 1)).isSome = true) := by decide +kernel

/-- A span one miss before its third. -/
def missing : State := { one 16 (sp .up) with lanes := [(17, { misses := 2, missAt := 0 })] }

theorem witness_ClockAndLaneFaults_1 :
    ((one 16 (sp .up)).boot.por = false ∧ (one 16 (sp .up)).boot.pll = true)
    ∧ (live (one 16 (sp .up)) = true ∧ 4 < 128 ∧ (one 16 (sp .up)).boot.quadLost.contains 4 = false)
    ∧ (lanePort (one 16 (sp .up)) 17 = some (16, sp .up) ∧ 17 < 16 + (sp .up).widthNow ∧ (sp .up).typ = .span)
    ∧ (live missing = true ∧ lanePort missing 17 = some (16, sp .up) ∧ (getLane missing 17).misses = 2
      ∧ missing.dc ≤ (getLane missing 17).missAt + wordEvery (sp .up))
    ∧ (getLane (one 16 (sp .up)) 17).misses = 0 := by decide +kernel

theorem witness_ClockAndLaneFaults_2 :
    (getPort (one 16 { sp .up with scfg := { amber := 1 } }) 16 = some { sp .up with scfg := { amber := 1 } })
    ∧ (getPort (one 16 (sp .up)) 16 = some (sp .up) ∧ (sp .up).typ = .span ∧ (sp .up).st = .up ∧ (sp .up).scfg.amber = 0) := by
  decide +kernel

/-- A coded flit as the levels on 16 lanes whose scramblers stand at 0: header, payload, and CRC and parity written out. -/
def onLanes (h : Nat) (payload : Bytes) (crc parity : Nat) : List (List Nat) :=
  spanLevels (one 16 (sp .up)) 16 16 (le 8 h ++ fit 240 payload ++ le 8 crc ++ le 16 parity)
/-- Flits of a type with SEQ 0 and no payload, and an IDLE flit with an acknowledgement. -/
def goodRx (type : Nat) : List (List Nat) :=
  match type with
  | 0 => onLanes 0 [] 13021020697539691691 81233644074791192267487956246445097019
  | 1 => onLanes 1 [] 5164551736932585426 582516426642092498970197747014881693
  | 3 => onLanes 3 [] 3696101883383203749 270128222832442278010973233014093669560
  | 8 => onLanes 8 [] 17723687548863052786 295337164176012295789883008372018577260
  | 9 => onLanes 9 [] 497919118983065739 302082191754871271726118226564270993098
  | _ => onLanes 10 [] 9299988818012009349 28449315312127289099750687484422933065
def ackRx : List (List Nat) := onLanes 1076101120 [] 12123558697031022723 123930414532711356374922595379901839305
/-- A flit whose CRC does not hold, and one with more wrong bytes than the code mends. -/
def badCrc : List (List Nat) := onLanes 1 [] 0 78612396393979342446296022124767743291
def badFec : List (List Nat) := onLanes 1 (List.replicate 40 7) 5164551736932585426 582516426642092498970197747014881693

/-- The flit on the lanes has no error, and neither acknowledges nor carries credits. -/
def plainFlit (f : RxFlit) (type : Nat) : Bool :=
  f.fec == .corrected 0 && f.crcOk && !hAck f.hdr && !hNak f.hdr && !hCrValid f.hdr && hType f.hdr == type

theorem witness_ReceivedFlitsFollowTheirOrder_1 :
    portIs (one 16 (sp .up)) 16 (sp .up) .span .up = true ∧ (sp .up).span.compat = false
    ∧ (let f := lineFlit (one 16 (sp .up)) 16 badFec; f.fec = .uncorrectable ∧ f.crcOk = false) := by decide +kernel

theorem witness_ReceivedFlitsFollowTheirOrder_2 :
    (let f := lineFlit (one 16 (sp .up)) 16 badCrc; f.fec = .corrected 0 ∧ f.crcOk = false) := by decide +kernel

theorem witness_ReceivedFlitsFollowTheirOrder_3 : plainFlit (lineFlit (one 16 (sp .up)) 16 (goodRx 3)) 3 = true := by decide +kernel

theorem witness_ReceivedFlitsFollowTheirOrder_4 : plainFlit (lineFlit (one 16 (sp .up)) 16 (goodRx 0)) 0 = true := by decide +kernel

theorem witness_ReceivedFlitsFollowTheirOrder_5 :
    (let f := lineFlit (one 16 (sp .up)) 16 ackRx
     f.fec = .corrected 0 ∧ f.crcOk = true ∧ hType f.hdr = 0 ∧ hAck f.hdr = true ∧ hNak f.hdr = false ∧ hCrValid f.hdr = false) := by
  decide +kernel

/-- A DATA flit as the partner seals it, and one whose tag is zeros. -/
def sealedRx : List (List Nat) :=
  onLanes 1 (sealBody {} false 0 (fit 224 [0xF0])) 14931626659448775948 211190729514887522077761118343771981724
/-- What the keys of a span in UP make of a sequenced flit's body. -/
def opened (q : Port) (rx : List (List Nat)) (f : RxFlit) : Option (Option Bytes) :=
  let v := leakGood 16 f.hdr (rxAdvance 16 rx (one 16 q))
  (getPort v 16).map fun r => openBody (rxKeysFor (setSpan 16 (fun x => { x with idleAt := v.dc }) v) r (hPhase f.hdr)) f

theorem witness_ReceivedFlitsFollowTheirOrder_6 :
    (let f := lineFlit (one 16 (sp .up)) 16 sealedRx
     plainFlit f 1 && hSeq f.hdr == (sp .up).span.exp && (opened (sp .up) sealedRx f).map Option.isSome == some true) = true := by
  decide +kernel

theorem witness_ReceivedFlitsFollowTheirOrder_7 :
    (let f := lineFlit (one 16 (sp .up)) 16 (goodRx 1)
     plainFlit f 1 && hSeq f.hdr == (sp .up).span.exp && (opened (sp .up) (goodRx 1) f).map Option.isSome == some false) = true := by
  decide +kernel

/-- A span in TRAINING with aligned lanes, and one in HOLD. -/
def aligned (ph : Phase) : State := { one 16 { sp .training with span := { phase := ph } } with lanes := [(16, { aligned := true })] }

theorem witness_TrainingPhasesAgree_1 :
    (portIs (aligned .param) 16 { sp .training with span := { phase := .param } } .span .training = true
      ∧ (getLane (aligned .param) 16).aligned = true)
    ∧ plainFlit (lineFlit (aligned .param) 16 (goodRx 8)) 8 = true := by decide +kernel

theorem witness_TrainingPhasesAgree_4 : plainFlit (lineFlit (aligned .param) 16 (goodRx 9)) 9 = true := by decide +kernel

theorem witness_TrainingPhasesAgree_5 : plainFlit (lineFlit (aligned .param) 16 (goodRx 10)) 10 = true := by decide +kernel

/-- The alignment words of 16 lanes. -/
def words16 : List (List Nat) := (List.range 16).map alignWord

theorem witness_TrainingPhasesAgree_3 :
    (portIs (one 16 (sp .training)) 16 (sp .training) .span .training = true ∧ (sp .training).span.resting = false
      ∧ (sp .training).span.phase = .align ∧ words16.length = (sp .training).widthNow
      ∧ (words16.filterMap readWord).length = (sp .training).widthNow
      ∧ wordOrder (words16.filterMap readWord) = some (List.replicate 16 false, false)
      ∧ wordOrder ((words16.reverse.map fun l => l.map (3 - ·)).filterMap readWord) = some (List.replicate 16 true, true)
      ∧ (words16.drop 1 ++ words16.take 1).length = 16 ∧ ((words16.drop 1 ++ words16.take 1).filterMap readWord).length = 16
      ∧ wordOrder ((words16.drop 1 ++ words16.take 1).filterMap readWord) = none)
    ∧ (portIs (one 16 (sp .hold)) 16 (sp .hold) .span .hold = true ∧ (sp .hold).span.resting = false) := by decide +kernel

theorem witness_TrainingPhasesAgree_2 :
    (getPort (one 16 (sp .training)) 16 = some (sp .training) ∧ (sp .training).span.retained = false
      ∧ (one 16 (sp .training)).nv.serial ≠ ({ phase := 2, serial := 5 } : Train).serial)
    ∧ ((sp .training).span.landing = [] ∧ (sp .training).scfg.rs = {} ∧ findOp (one 16 (sp .training)) (.spanResize 16) = none
      ∧ groupOf (one 16 (sp .training)) 16 = none) := by decide +kernel

/-- Spans in UP: a flit in the Landing and an acknowledgement due; one in M1280 mode. -/
def busySpan : Port := { sp .up with span := { ackAt := some 7, landing := [{ seq := 0, phase := false }] } }
def compatSpan : Port := { sp .up with span := { compat := true } }

theorem witness_SpanTimersAndTrainingBounds_1 :
    portIs (one 16 busySpan) 16 busySpan .span .up = true ∧ busySpan.span.ackAt = some 7 ∧ busySpan.span.landing ≠ []
    ∧ portIs (one 16 compatSpan) 16 compatSpan .span .up = true ∧ compatSpan.span.compat = true ∧ compatSpan.span.landing = [] := by
  decide +kernel

theorem witness_SpanTimersAndTrainingBounds_2 :
    portIs (aligned .eq) 16 { sp .training with span := { phase := .eq } } .span .training = true
    ∧ portIs (aligned .keyx) 16 { sp .training with span := { phase := .keyx } } .span .training = true
    ∧ portIs (aligned .init) 16 { sp .training with span := { phase := .init } } .span .training = true
    ∧ portIs (one 16 { sp .training with span := { resting := true } }) 16 { sp .training with span := { resting := true } } .span
        .training = true := by decide +kernel

/-- A span with its own request out, one whose exchange is complete, one idle for half width. -/
def asked : Port := { sp .up with scfg := { rs := { req := some (8, 0) } } }
def agreed : Port := { sp .up with scfg := { rs := { agreed := some (8, 0) } } }
def idleSpan : Port := { sp .up with scfg := { idle := 10 } }

theorem witness_ResizesFollowTheExchange_1 :
    (taken specSpanResize (i3c [16, 0, 8]) (officer (one 16 (sp .up))) { bytes := [16, 0, 8] } = true
      ∧ raw { bytes := [16, 0, 8] } 0 2 = some 16
      ∧ getPort (entered (i3c [16, 0, 8]) (officer (one 16 (sp .up)))) 16 = some (sp .up) ∧ (sp .up).st = .up
      ∧ (raw { bytes := [16, 0, 8] } 2 1).getD 16 = 8 ∧ (widthsOf (sp .up)).contains 8 = true
      ∧ (raw { bytes := [16, 0, 8] } 3 1).getD 0 = 0 ∧ autoRuns (sp .up) = false
      ∧ portBusy (officer (one 16 (sp .up))) 16 = false ∧ (sp .up).scfg.rs.agreed = none)
    ∧ (portIs (one 16 (sp .up)) 16 (sp .up) .span .up = true ∧ (sp .up).scfg.rs.req = none ∧ (sp .up).span.compat = false
      ∧ (sp .up).span.exp < 4096)
    ∧ (portIs (one 16 asked) 16 asked .span .up = true ∧ asked.scfg.rs.req = some (8, 0) ∧ asked.scfg.rs.agreed = none
      ∧ asked.span.compat = false ∧ asked.span.exp = 0)
    ∧ (portIs (one 16 agreed) 16 agreed .span .up = true ∧ agreed.scfg.rs.agreed = some (8, 0) ∧ agreed.scfg.rs.due = none
      ∧ agreed.span.landing = [])
    ∧ (portIs (one 16 idleSpan) 16 idleSpan .span .up = true ∧ idleSpan.scfg.idle ≠ 0 ∧ idleSpan.span.compat = false
      ∧ idleSpan.scfg.rs.req = none ∧ idleSpan.scfg.rs.agreed = none ∧ 4 ≤ homeWidth idleSpan / 2
      ∧ homeWidth idleSpan / 2 < idleSpan.widthNow) := by decide +kernel

/-- A CTRL flit as the partner seals it: a request for width 8, or the answer to one. -/
def ctrlRx (op : Nat) : List (List Nat) :=
  let body := sealBody {} true 0 (ctrlBody { op := op, width := 8, rate := 0, maxWidth := 16, maxRate := 0 })
  if op = 1 then onLanes 2 body 17248168509655456391 90066587864481036617046036650828712656
  else onLanes 2 body 10238316148563934763 261091579830258283465895165465320604639

theorem witness_ResizesFollowTheExchange_2 :
    (let f := lineFlit (one 16 (sp .up)) 16 (ctrlRx 1)
     plainFlit f 2 && hSeq f.hdr == (sp .up).span.exp
       && (opened (sp .up) (ctrlRx 1) f).map (Option.map fun b => (ctrlOf b).op) == some (some 1)) = true := by decide +kernel

theorem witness_ResizesFollowTheExchange_3 :
    (let f := lineFlit (one 16 asked) 16 (ctrlRx 2)
     plainFlit f 2 && hSeq f.hdr == asked.span.exp
       && (opened asked (ctrlRx 2) f).map (Option.map fun b => (ctrlOf b).op) == some (some 2)) = true := by decide +kernel

/-- Spans with their keys: at the limit, at the last index, in a fresh exchange that lacks its last message. -/
def keyed (k : SpanKeys) : Port := { sp .up with scfg := { keys := k } }
/-- In a fresh exchange: a span whose own signature is formed, one that verified the partner's messages, and one in M1280 mode. -/
def half : Port := { keyed { fresh := true } with span := { sig := [1] } }
def lastKey : Port := { keyed { fresh := true } with span := { sig := [1], gotAll := (true, false) } }
def compatKey : Port := { keyed { fresh := true } with span := { compat := true, gotAll := (false, false) } }

theorem witness_KeyChangesOfASpan_1 :
    (taken specSpanRekey (sealed 0x0707 [16, 0]) (officer (one 16 (sp .up))) { bytes := [16, 0] } = true
      ∧ raw { bytes := [16, 0] } 0 2 = some 16
      ∧ getPort (entered (sealed 0x0707 [16, 0]) (officer (one 16 (sp .up)))) 16 = some (sp .up) ∧ rekeying (sp .up) = false
      ∧ portBusy (officer (one 16 (sp .up))) 16 = false)
    ∧ (portIs (one 16 (keyed { txN := 2 ^ 31 })) 16 (keyed { txN := 2 ^ 31 }) .span .up = true
      ∧ rekeying (keyed { txN := 2 ^ 31 }) = false
      ∧ portIs (one 16 (keyed { txN := 2 ^ 31, txIdx := 65535 })) 16 (keyed { txN := 2 ^ 31, txIdx := 65535 }) .span .up = true)
    ∧ (let s := setSec (fun x => { x with lock := 1 }) (officer (one 16 compatSpan))
       taken specSpanRekey (sealed 0x0707 [16, 0]) s { bytes := [16, 0] } = true ∧ compatSpan.span.compat = true
       ∧ getPort (entered (sealed 0x0707 [16, 0]) s) 16 = some compatSpan ∧ s.sec.lock.getLsbD 0 = true) := by decide +kernel

theorem witness_KeyChangesOfASpan_2 :
    (portIs (one 16 compatKey) 16 compatKey .span .up = true ∧ compatKey.scfg.keys.fresh = true
      ∧ (keyxTake 16 [] { kx1 := some false } (one 16 compatKey)).2 = true
      ∧ (getPort (keyxTake 16 [] { kx1 := some false } (one 16 compatKey)).1 16).isSome = true)
    ∧ (portIs (one 16 half) 16 half .span .up = true ∧ half.span.sig.isEmpty = false
      ∧ (keyxTake 16 ([1, 0, 2, 0, 1, 0, 0, 0, 9]) {} (one 16 half)).2 = false
      ∧ (getPort (keyxTake 16 ([1, 0, 2, 0, 1, 0, 0, 0, 9]) {} (one 16 half)).1 16).map (·.span.gotAll) = some (false, false))
    ∧ (portIs (one 16 lastKey) 16 lastKey .span .up = true ∧ lastKey.span.gotAll.1 = true ∧ lastKey.span.sig.isEmpty = false
      ∧ (keyxTake 16 [1, 0, 1, 1] {} (one 16 lastKey)).2 = false
      ∧ (getPort (keyxTake 16 [1, 0, 1, 1] {} (one 16 lastKey)).1 16).map (·.span.gotAll) = some (true, true)) := by decide +kernel

theorem witness_SpanAndTimeSettings_1 :
    (taken specSpanTimers (i3c [16, 0]) (officer (one 16 (sp .up))) { bytes := [16, 0] } = true
      ∧ (raw { bytes := [16, 0] } 2 1).getD 16 = 16 ∧ (raw { bytes := [16, 0] } 4 2).getD 100 = 100
      ∧ (raw { bytes := [16, 0] } 8 4).getD 2000 = 2000)
    ∧ (taken specSpanPolicy (i3c [16, 0]) (officer (one 16 (sp .up))) { bytes := [16, 0] } = true
      ∧ (raw { bytes := [16, 0] } 2 1).getD (sp .up).scfg.amber = 0 ∧ (raw { bytes := [16, 0] } 3 1).getD (sp .up).scfg.threshold = 50
      ∧ (raw { bytes := [16, 0] } 4 4).getD (sp .up).scfg.idle = 0)
    ∧ (taken specTimeConfig (i3c [16, 0, 1]) (officer (one 16 (sp .up))) { bytes := [16, 0, 1] } = true
      ∧ (raw { bytes := [16, 0, 1] } 2 1).getD 0 = 1 ∧ (raw { bytes := [16, 0, 1] } 4 2).getD 0 = 0 ∧ asymApp 0 = 0
      ∧ (∀ e ∈ (entered (i3c [16, 0, 1]) (officer (one 16 (sp .up)))).ports, e.2.role = 1 → e.1 = 16)) := by decide +kernel

/-- A span with a role, and the time of its exchange. -/
def timed (r : Nat) (t1 : Option Int) : Port := { sp .up with role := r, t1 := t1 }
def ptmHost : Port := { hp .up with std := { ptm := true } }

theorem witness_TimeExchangesSetTheOffset :
    portIs (one 16 (timed 1 none)) 16 (timed 1 none) .span .up = true
    ∧ portIs (one 16 (timed 2 none)) 16 (timed 2 none) .span .up = true
    ∧ (live (one 16 (timed 1 (some 0))) = true ∧ getPort (one 16 (timed 1 (some 0))) 16 = some (timed 1 (some 0))
      ∧ 2000000 < (theta2ps 0 100000 100008 80 0).natAbs ∧ (theta2ps 0 96 104 80 0).natAbs ≤ 2000000)
    ∧ (portIs (one 0 ptmHost) 0 ptmHost .h .up = true ∧ ptmHost.std.ptm = true ∧ ptmHost.role = 0) := by decide +kernel

/-- A running device with an H port 0 and another port. -/
def two (n : Nat) (q : Port) : State := running [(0, hp .up), (n, q)]
/-- A D port whose binding waits for its requests. -/
def boundD (b : Binding) (np : List NpReq) : Port := { dp .up with std := { binds := [(0xFFFF, b)], np := np } }

/-- A card known to use CXL.cache, and a second card whose bindings hold all the cache IDs of H port 0. -/
def cacheCard : Port := { dp .up with std := { cache := true } }
def sixteen : Port :=
  { dp .up with std := { binds := (List.range 16).map fun k => (k, { hport := 0, bridge := k + 1, cacheId := some k }) } }
def fullVh : State := running [(0, hp .up), (32, cacheCard), (40, sixteen)]

theorem witness_BindingsJoinAndLeaveAVh_1 :
    [(two 32 (dp .up), dp .up, some 0, 1), (two 32 cacheCard, cacheCard, some 0, 1), (fullVh, cacheCard, none, 17)].all
      (fun e : State × Port × Option Nat × Nat =>
        let b : Bytes := [32, 0, 0, 0]
        let s := e.1
        let u := entered (i3c b) s
        taken specVhBind (i3c b) s { bytes := b } && raw { bytes := b } 0 2 == some 32 && getPort u 32 == some e.2.1
          && raw { bytes := b } 2 2 == some 0 && getPort u 0 == some (hp .up) && (raw { bytes := b } 4 2).getD 0xFFFF == 0xFFFF
          && e.2.1.std.card == none && e.2.1.st != .amber && e.2.1.std.binds.isEmpty
          && ((List.range 32).find? fun k => k != 0 && !(bridgesOf u 0).contains k) == some e.2.2.2
          && lowestFree (cacheIds u 0 none) 16 == e.2.2.1 && bit (i3c b).flags 1 == false && !(hp .up).std.hotplug) = true := by
  decide +kernel

theorem witness_BindingsJoinAndLeaveAVh_2 :
    let b : Binding := { hport := 0, bridge := 1 }
    [(boundD b [{ msg := { cls := .req, np := true, via := some (0, 1) } }], 1), (boundD b [], 0)].all (fun e : Port × Nat =>
      let u := entered (i3c [32, 0]) (two 32 e.1)
      taken specVhUnbind (i3c [32, 0]) (two 32 e.1) { bytes := [32, 0] } && getPort u 32 == some e.1 && e.1.typ == .d
        && (raw { bytes := [32, 0] } 2 2).getD 0xFFFF == 0xFFFF && tget e.1.std.binds 0xFFFF == some b && !b.unbound
        && (viaReqs u (0, 1)).length == e.2 && viaMids u (0, 1) == []) = true := by decide +kernel

theorem witness_BindingsJoinAndLeaveAVh_3 :
    let b : Binding := { hport := 0, bridge := 1, unbound := true }
    [(boundD b [{ msg := { cls := .req, np := true, via := some (0, 1) } }], 1), (boundD b [], 0)].all (fun e : Port × Nat =>
      let s := two 32 e.1
      live s && getPort s 32 == some e.1 && tget e.1.std.binds 0xFFFF == some b && b.unbound
        && (viaReqs s (b.hport, b.bridge)).length + (viaMids s (b.hport, b.bridge)).length == e.2) = true := by decide +kernel

/-- PF0 ready. -/
def readyHost : Port := { hp .up with std := { ready := true } }

theorem witness_RequestsOfHostsAndCardsEnter_1 :
    (live (one 8 (dp .up)) = true ∧ getPort (one 8 (dp .up)) 8 = some (dp .up) ∧ (dp .up).typ ≠ .span ∧ (dp .up).st = .up
      ∧ ({ msg := { cls := .req }, dest := .pid 3, err := 2 } : Tlp).err = 2
      ∧ ({ msg := { cls := .req }, dest := .pid 3 } : Tlp).issuer = .host)
    ∧ portIs (one 0 (hp .up)) 0 (hp .up) .h .up = true ∧ (hp .up).std.ready = false
    ∧ portIs (one 0 readyHost) 0 readyHost .h .up = true ∧ readyHost.std.ready = true := by decide +kernel

theorem witness_RequestsOfHostsAndCardsEnter_2 :
    portIs (one 0 (hp .up)) 0 (hp .up) .h .up = true
    ∧ (let t : Tlp := { msg := { cls := .wr, addr := some 4096, len := 64, dlen := 80 }, dest := .own }
       t.issuer = .host ∧ t.err = 0 ∧ t.ptm = false ∧ t.cache = false ∧ t.msg.cls = .wr ∧ t.msg.addr = some 4096
         ∧ t.msg.len ≠ 0) := by decide +kernel

/-- An H port with a link stream 0 and a selective stream 1. -/
def streams : Port := { hp .up with std := { ide := [(0, { kind := 0, id := 0, secure := true }), (1, { kind := 1, id := 9, secure := true })] } }

/-- The host of port 0 in its open Link session. -/
def linked (s : State) : State := setSec (fun x => { x with sessions := [{ id := 3, role := .link 0, origin := none, done := true }] }) s

theorem witness_IdeStreamsHoldAndLoseKeys :
    (taken specIdeStreamSet (sealed 0x0706 [0, 0, 1, 1]) (officer (one 0 streams)) { bytes := [0, 0, 1, 1] } = true
      ∧ raw { bytes := [0, 0, 1, 1] } 0 2 = some 0 ∧ getPort (entered (sealed 0x0706 [0, 0, 1, 1]) (officer (one 0 streams))) 0 = some streams
      ∧ raw { bytes := [0, 0, 1, 1] } 2 1 = some 1 ∧ (raw { bytes := [0, 0, 1, 1] } 3 1).getD 0 = 1
      ∧ (raw { bytes := [0, 0, 1, 1] } 4 1).getD 0 ≤ 1 ∧ (raw { bytes := [0, 0, 1, 1] } 5 1).getD 0 = 0)
    ∧ (taken specIdeStreamSet (sealed 0x0706 [8, 0, 0]) (officer (one 8 (dp .up))) { bytes := [8, 0, 0] } = true
      ∧ getPort (entered (sealed 0x0706 [8, 0, 0]) (officer (one 8 (dp .up)))) 8 = some (dp .up) ∧ raw { bytes := [8, 0, 0] } 2 1 = some 0
      ∧ (sealed 0x0706 [8, 0, 0]).env.algOk = true ∧ (sealed 0x0706 [8, 0, 0]).env.chainOk = true
      ∧ portBusy (officer (one 8 (dp .up))) 8 = false)
    ∧ (let s := linked (one 0 (hp .up))
       portIs s 0 (hp .up) .h .up = true ∧ s.boot.bedrock = true ∧ linkSession s 0 = true ∧ ([1, 2, 3, 4, 5, 6] : List Nat).length = 6
       ∧ (∀ x ∈ ([1, 2, 3, 4, 5, 6] : List Nat), x < 2 ^ 256))
    ∧ (live (one 0 streams) = true ∧ getPort (one 0 streams) 0 = some streams
      ∧ tget streams.std.ide 0 = some { kind := 0, id := 0, secure := true }
      ∧ tget streams.std.ide 1 = some { kind := 1, id := 9, secure := true }) := by decide +kernel

/-- A running device with a bay 5 on H port 0. -/
def withBay (y : Bay) : State := { one 0 { readyHost with std := { ready := true, bme := true, numVfs := 8 } } with bays := [(5, y)] }
def bay0 (t : Tdi) : Bay := { hport := 0, loc := 1, tdi := t, bme := true }

theorem witness_TdiStatesFollowTheHost :
    [Tdi.unlocked, .locked, .run].all (fun t =>
      let s := linked (withBay (bay0 t))
      live s && tget s.bays 5 == some (bay0 t) && tdispOpen s 5 && (bay0 t).st == .active && (bay0 t).tdi == t) = true := by
  decide +kernel

/-- An H port that may enter L1, one at reduced width, a D port in flit mode. -/
def quiet : Port := { hp .up with std := { aspm := true } }
def l0p (red : Bool) : Port := { hp .up with flit := true, std := { l0pHost := true, l0pEn := true, l0pRed := red, linkW := 16 } }
def card : Port := { dp .up with flit := true, std := { linkW := 4 } }

/-- A message of 65 cells queued toward that port. -/
def crowded : State :=
  { one 0 (l0p true) with
    halls := [(0, { queues := [(0, [.desc 1])] })],
    cells := [(1, { msg := { cls := .req, dlen := 80 }, hall := 0, cells := 65, acct := .pool none, src := 0 })] }

theorem witness_LinkPowerFollowsTheRules :
    (portIs (one 0 quiet) 0 quiet .h .up = true ∧ quiet.std.l1 = false ∧ l1Quiet (one 0 quiet) 0 quiet = true)
    ∧ (portIs (one 0 (l0p false)) 0 (l0p false) .h .up = true ∧ (l0p false).flit = true ∧ (l0p false).std.l1 = false
      ∧ (l0p false).std.l0pHost = true ∧ (l0p false).std.l0pEn = true ∧ 2 ≤ (l0p false).widthNow)
    ∧ (portIs (one 0 (l0p true)) 0 (l0p true) .h .up = true ∧ (l0p true).std.l0pRed = true ∧ queuedCells (one 0 (l0p true)) 0 ≤ 64
      ∧ 64 < queuedCells crowded 0 ∧ portIs crowded 0 (l0p true) .h .up = true)
    ∧ (let q : Port := { hp .up with std := { l1 := true } }
       live (one 0 q) = true ∧ getPort (one 0 q) 0 = some q ∧ q.typ ≠ .span ∧ q.st = .up ∧ q.std.l1 = true)
    ∧ (portIs (one 8 card) 8 card .d .up = true ∧ card.flit = true ∧ 2 ≤ card.std.linkW)
    ∧ (taken specHpPower (i3c [0, 0, 1]) (officer (one 0 quiet)) { bytes := [0, 0, 1] } = true
      ∧ raw { bytes := [0, 0, 1] } 0 2 = some 0 ∧ getPort (entered (i3c [0, 0, 1]) (officer (one 0 quiet))) 0 = some quiet
      ∧ portBusy (officer (one 0 quiet)) 0 = false ∧ (raw { bytes := [0, 0, 1] } 2 1).getD (b2n quiet.std.l0pEn) = 1
      ∧ (raw { bytes := [0, 0, 1] } 4 2).getD quiet.std.l1Idle = 256) := by decide +kernel

theorem witness_BusMasterEnableGatesRequests :
    live (withBay (bay0 .run)) = true ∧ pf0Reach (withBay (bay0 .run)) 0 = true
    ∧ tget (withBay (bay0 .run)).bays 5 = some (bay0 .run) ∧ bayReach (withBay (bay0 .run)) 5 = true := by decide +kernel

/-- The officer's command over I3C to a device, with its parameters: what every clause on a command asks first. -/
def ok (sp : OpSpec) (bs : Bytes) (s : State) : Bool := taken sp (i3c bs) (officer s) { bytes := bs }
/-- The state the command's body runs on. -/
def at_ (bs : Bytes) (s : State) : State := entered (i3c bs) (officer s)
/-- A parameter value. -/
def val (bs : Bytes) (off w : Nat) : Option Nat := raw { bytes := bs } off w

theorem witness_RouteTablesTakeTheirRecords :
    (ok specPidSet [8, 0, 7, 0] (one 8 (dp .up)) = true ∧ val [8, 0, 7, 0] 0 2 = some 8 ∧ val [8, 0, 7, 0] 2 2 = some 7 ∧ portBusy (officer (one 8 (dp .up))) 8 = false
      ∧ getPort (at_ [8, 0, 7, 0] (one 8 (dp .up))) 8 = some (dp .up) ∧ pidPort (at_ [8, 0, 7, 0] (one 8 (dp .up))) 7 = none
      ∧ ok specPidSet [8, 0, 255, 255] (one 8 (dp .up)) = true ∧ val [8, 0, 255, 255] 2 2 = some 0xFFFF)
    ∧ (let bs : Bytes := [1, 0, 0, 0, 9, 0, 0, 0, 16, 0, 0, 0]
       ok specRouteSet bs (one 16 (sp .up)) = true ∧ val bs 0 2 = some 1
       ∧ (routeRecs (at_ bs (one 16 (sp .up))) { bytes := bs } 1 0 []).run [] = .ok ([(9, 0, 16)], [])
       ∧ routeFault (at_ bs (one 16 (sp .up))) [(9, 0, 16)] = none)
    ∧ (let bs : Bytes := [3, 0, 1, 0, 16, 0]
       ok specMcastSet bs (one 16 (sp .up)) = true ∧ val bs 0 2 = some 3 ∧ val bs 2 2 = some 1
       ∧ (portList (inUse (at_ bs (one 16 (sp .up)))) { bytes := bs } 2 4 1 0 []).run [] = .ok ([16], []))
    ∧ (let bs : Bytes := [1, 0, 16, 0]
       ok specMgtTreeSet bs (one 16 (sp .up)) = true ∧ val bs 0 1 = some 1
       ∧ (treeList (at_ bs (one 16 (sp .up))) { bytes := bs } 1 0 []).run [] = .ok ([16], [])) := by decide +kernel

/-- A group of one span, with an entry that waits for no one, and the same with the span out of UP. -/
def grouped (q : Port) (t : Nat) : State :=
  { one 16 q with
    dc := t,
    groups := [(2, { members := [16], home := firstHome [16], live := firstHome [16], paused := [(5, { old := [], start := 0 })] })] }

/-- A group whose entry 5 waits for span 16, with some descriptors queued there. -/
def waiting (qs : List QItem) : State :=
  { running [(16, sp .up), (24, sp .up)] with
    groups := [(2, { members := [16, 24], home := firstHome [16, 24], live := firstHome [24, 16],
                     paused := [(5, { old := [16], start := 0 })] })],
    halls := [(0, { queues := if qs.isEmpty then [] else [(64, qs)] })],
    cells := if qs.isEmpty then [] else
      [(1, { msg := { cls := .req, dlen := 80 }, hall := 0, cells := 1, acct := .pool none, src := 0, entry := some (2, 5) })] }

theorem witness_GroupsAreSetAndPausesEnd_1 :
    (let bs : Bytes := [2, 0, 0, 0]
     ok specGroupSet bs (grouped (sp .up) 0) = true ∧ val bs 2 1 = some 0
     ∧ (portList (isType (at_ bs (grouped (sp .up) 0)) .span) { bytes := bs } 5 16 0 0 []).run [] = .ok ([], [])
     ∧ (grouped (sp .up) 0).routes = [])
    ∧ (let bs : Bytes := [2, 0, 1, 0, 100, 0, 0, 0, 10, 0, 0, 0, 1, 0, 0, 0, 16, 0]
     ok specGroupSet bs (grouped (sp .up) 0) = true ∧ groupOf (at_ bs (grouped (sp .up) 0)) 16 = some 2
     ∧ (tget (grouped (sp .up) 0).groups 2).isSome = true
     ∧ (portList (isType (at_ bs (grouped (sp .up) 0)) .span) { bytes := bs } 5 16 1 0 []).run [] = .ok ([16], []))
    ∧ (let bs : Bytes := [2, 0, 1, 0, 100, 0, 0, 0, 10, 0, 0, 0, 1, 0, 0, 0, 16, 0]
     ok specGroupSet bs (one 16 (sp .up)) = true ∧ val bs 0 1 = some 2 ∧ val bs 2 1 = some 1 ∧ (val bs 4 2).getD 100 = 100
     ∧ (val bs 8 4).getD 10 = 10 ∧ (val bs 12 1).getD 1 = 1
     ∧ (portList (isType (at_ bs (one 16 (sp .up))) .span) { bytes := bs } 5 16 1 0 []).run [] = .ok ([16], [])
     ∧ (([16] : List Nat).all fun m => (groupOf (at_ bs (one 16 (sp .up))) m).isNone) = true
     ∧ tget (one 16 (sp .up)).groups 2 = none)
    ∧ (let bs : Bytes := [2, 0, 0, 0] ++ List.replicate 256 0
       ok specGroupIndirSet bs (grouped (sp .up) 0) = true ∧ val bs 0 1 = some 2 ∧ (tget (grouped (sp .up) 0).groups 2).isSome = true
       ∧ (indirEntries 1 { bytes := bs } 256 0 []).run [] = .ok (List.replicate 256 0, [])) := by decide +kernel

theorem witness_GroupsAreSetAndPausesEnd_2 :
    (let q := { sp .hold with scfg := { outSince := some 4 } }
     live (grouped q 9) = true ∧ getPort (grouped q 9) 16 = some q ∧ groupOf (grouped q 9) 16 = some 2
     ∧ (tget (grouped q 9).groups 2).isSome = true ∧ q.scfg.graceOut = false)
    ∧ (live (grouped (sp .up) 9) = true ∧ entryPause (grouped (sp .up) 9) 2 5 = some { old := [], start := 0 }
      ∧ (0 : Nat) < (grouped (sp .up) 9).dc)
    ∧ [(waiting [], false), (waiting [.desc 1], true)].all (fun e =>
        live e.1 && entryPause e.1 2 5 == some { old := [16], start := 0 } && (tget e.1.groups 2).isSome
          && ([16].any fun m => entryBusy (clockTo (0 + 2000 * ((tget e.1.groups 2).map (·.wait)).getD 0) e.1) 2 5 m) == e.2)
      = true := by decide +kernel

/-- A leaf 300 of hall 0 bound to port 8, with and without a descriptor in it. -/
def leafed (qs : List QItem) : State :=
  { one 0 (hp .up) with halls := [(0, { leaves := [(300, ⟨8, 3, 0⟩)], queues := if qs.isEmpty then [] else [(300, qs)] })],
                        ports := [(0, hp .up), (8, dp .down)] }

theorem witness_BuffersAndLeavesAreDivided :
    (let bs : Bytes := [8, 0]
     let s := leafed []
     ok specBufferSet bs s = true ∧ val bs 0 2 = some 8 ∧ getPort (at_ bs s) 8 = some (dp .down)
     ∧ (val bs 2 2).getD (dp .down).mins.req = 0 ∧ (val bs 10 1).getD (getHall s (hallOf 8)).alpha = 3
     ∧ (val bs 12 2).getD (getHall s (hallOf 8)).mcRsv = 1024 ∧ (val bs 14 2).getD (getHall s (hallOf 8)).poolRsv = 1024
     ∧ divTotal (hallMins (at_ bs s) (hallOf 8) - csum (dp .down).mins) { mins := ⟨0, 0, 0, 0⟩, mc := 1024, pool := 1024 } ≤ 49152)
    ∧ (let bs : Bytes := [8, 0, 0, 0, 2, 0, 44, 1]
       let s := leafed []
       ok specLeafAssign bs s = true ∧ val bs 0 2 = some 8 ∧ val bs 2 2 = some 0 ∧ sourceExists (at_ bs s) 0 = true
       ∧ groupOf (at_ bs s) 0 = none ∧ val bs 4 1 = some 2 ∧ val bs 6 2 = some 300
       ∧ leafCfg (at_ bs s) (hallOf 8) 300 = some ⟨8, 3, 0⟩ ∧ fencePending (at_ bs s) 8 0 (clsOf 2) = false ∧ portBusy (officer s) 8 = false)
    ∧ (mgrReach (leafed [.desc 1]) = true ∧ leafQ (leafed [.desc 1]) 0 300 ≠ [])
    ∧ (mgrReach (leafed []) = true ∧ leafQ (leafed []) 0 300 = []
      ∧ ((leafed []).ports.all fun e => !(hallOf e.1 == 0 && e.2.assign.any fun a => a.2 == 300)) = true
      ∧ bit 0x123 31 = false ∧ (leafed []).bays = []) := by decide +kernel

theorem witness_SchedulerCommandsSetAPort :
    (let bs : Bytes := [8, 0, 5, 0]
     let q := { dp .up with subs := [(5, { rate := 9, burst := 256, b := 0 })] }
     ok specSubscriberSet bs (one 8 (dp .up)) = true ∧ getPort (at_ bs (one 8 (dp .up))) 8 = some (dp .up) ∧ val bs 2 2 = some 5
     ∧ (val bs 4 4).getD (lineRate (dp .up)) = 512000 ∧ (val bs 8 4).getD 65536 = 65536 ∧ lineRate (dp .up) = 512000
     ∧ tget (dp .up).subs 5 = none ∧ subCount (at_ bs (one 8 (dp .up))) (hallOf 8) < 4096
     ∧ portBusy (officer (one 8 (dp .up))) 8 = false
     ∧ ok specSubscriberSet bs (one 8 q) = true ∧ getPort (at_ bs (one 8 q)) 8 = some q ∧ (tget q.subs 5).isSome = true)
    ∧ (let bs : Bytes := [8, 0, 1, 2, 3, 4, 5, 255]
       ok specServiceSet bs (one 8 (dp .up)) = true ∧ getPort (at_ bs (one 8 (dp .up))) 8 = some (dp .up) ∧ val bs 2 1 = some 1
       ∧ val bs 3 1 = some 2 ∧ val bs 4 1 = some 3 ∧ val bs 5 1 = some 4 ∧ val bs 6 1 = some 5 ∧ val bs 7 1 = some 255)
    ∧ (let bs : Bytes := [8, 0, 1, 20]
       ok specLengthModeSet bs (one 8 (dp .up)) = true ∧ (val bs 2 1).getD 0 = 1 ∧ (val bs 3 1).getD 0 = 20)
    ∧ (let bs : Bytes := [8, 0, 1, 0, 0, 0, 0, 0, 0, 0, 1, 0, 0, 0, 0, 0, 15, 0, 0, 0, 10, 0, 0, 0]
       ok specFlightLoad bs (one 8 (dp .up)) = true ∧ val bs 2 2 = some 1 ∧ val bs 8 8 = some 65536
       ∧ fabricNs (officer (one 8 (dp .up))) + 10000 ≤ 65536
       ∧ (flightEntries { bytes := bs } 1 0 []).run [] = .ok ([(15, 10)], [])
       ∧ ((officer (one 8 (dp .up))).ops.any fun o => o.kind == .flight 8) = false) := by decide +kernel

/-- A meter of port 0, subscriber 0, with a message in its defer queue, bound to port 8. -/
def metered (act : Nat) : State :=
  { running [(0, hp .up), (8, dp .up)] with
    halls := [(0, { meters := [(3, { port := 0, sub := 0, cir := 8000, pir := 8000, cbs := 256, pbs := 256, actY := 2, actR := act, tc := 0, tp := 0, defer := [1] })] })],
    cells := [(1, { msg := { cls := .wr, dlen := 300 }, hall := 0, cells := 2, acct := .min 0 .wr, src := 0, route := .port 8 })] }

theorem witness_MeterSetMakesOrRerates :
    (let bs : Bytes := [0, 0, 0, 0]
     ok specMeterSet bs (one 0 (hp .up)) = true ∧ val bs 0 2 = some 0 ∧ getPort (at_ bs (one 0 (hp .up))) 0 = some (hp .up)
     ∧ val bs 2 2 = some 0 ∧ (val bs 4 4).getD 0 = 0 ∧ (val bs 8 4).getD (lineRate (hp .up)) = lineRate (hp .up)
     ∧ (val bs 12 4).getD 65536 = 65536 ∧ (val bs 16 4).getD 65536 = 65536 ∧ (val bs 20 1).getD 1 = 1 ∧ (val bs 21 1).getD 2 = 2
     ∧ findMeter (at_ bs (one 0 (hp .up))) 0 0 = none
     ∧ lowestFree (tkeys (getHall (at_ bs (one 0 (hp .up))) (hallOf 0)).meters) 8192 = some 0
     ∧ meterOver (at_ bs (one 0 (hp .up))) (hallOf 0) 0 = false ∧ (officer (one 0 (hp .up))).bays = []
     ∧ portBusy (officer (one 0 (hp .up))) 0 = false ∧ portBusy (officer (metered 2)) 0 = false
     ∧ ok specMeterSet bs (metered 2) = true ∧ (findMeter (at_ bs (metered 2)) 0 0).isSome = true) := by decide +kernel

/-- A port with one message in its ingress pipe, bound to a PID. -/
def arriving (pid : Nat) : Port := { hp .up with inQ := [{ msg := { cls := .wr, dpid := pid, dlen := 80 }, dest := .pid pid }] }
def ingress (pid : Nat) : State := running [(0, { arriving pid with pid := some 1 }), (8, { dp .up with pid := some 7 })]

/-- A port whose subscriber 0 has a meter with full buckets, and one whose meter is empty and discards. -/
def ingressMetered (full : Bool) : State :=
  { ingress 7 with halls := [(0, { meters := [(3, {
      port := 0, sub := 0, cir := 8000, pir := 8000, cbs := 256, pbs := 256, actY := 3, actR := 3,
      tc := if full then 256 * 2 ^ 24 else 0, tp := if full then 256 * 2 ^ 24 else 0 })] })] }

/-- A Gallery datagram. -/
def datagram (n : Nat) : Msg :=
  { cls := .wr, kind := 2, dpid := 7, dlen := n, gal := some { op := 5, last := true, dqpn := 0, sqpn := 0, msn := 0, offset := 0, tlen := 0 } }

theorem witness_IngressTakesTheHead_1 :
    (let v := setPort 0 (fun q => { q with inQ := [] }) (settleCross (ingress 7))
     let a : Arrival := { msg := { cls := .wr, dpid := 7, dlen := 80 }, dest := .pid 7 }
     live (ingress 7) = true ∧ (getPort (ingress 7) 0).map (fun q => (q.mgtWait == [], q.inQ)) = some (true, [a])
       ∧ isBroadcast a.msg = false ∧ a.ovr = none ∧ a.msg.cls ≠ .mgt ∧ routeArrival v 0 a = (.port 8, false) ∧ a.msg.cls ≠ .rsp
       ∧ findMeter v 0 (egressSub v (flowSource v 0) (.port 8) a.msg.cls) = none)
    ∧ (let v := setPort 0 (fun q => { q with inQ := [] }) (settleCross (ingress 9))
       let a : Arrival := { msg := { cls := .wr, dpid := 9, dlen := 80 }, dest := .pid 9 }
       routeArrival v 0 a = (.none, false) ∧ a.acc = false ∧ a.msg.np = false)
    ∧ ([(true, 0), (false, 3)].all fun e : Bool × Nat =>
        let v := setPort 0 (fun q => { q with inQ := [] }) (settleCross (ingressMetered e.1))
        let m := datagram 80
        routeArrival v 0 { msg := m, dest := .pid 7 } == (.port 8, false)
          && (match findMeter v 0 (egressSub v (flowSource v 0) (.port 8) .wr) with
              | some (_, x) =>
                let y := meterRefill (meterInForce v x) (nsNow v)
                x.defer.isEmpty && appliedAction y (meterColour y (chargeLen (arriving 7) m)) m == e.2
              | none => false)) = true := by decide +kernel

theorem witness_IngressTakesTheHead_2 :
    (let s := { one 16 (sp .up) with coreQ := [(16, mgtMsg 0x51)] }
     live s = true ∧ aboveFloor (settleCross { s with coreQ := [] }) (hallOf 16) (cellsOf (mgtMsg 0x51)) = true)
    ∧ (let x : EngMsg := { msg := { cls := .wr, dpid := 7, dlen := 80 }, port := none }
       let s := setEngine 3 (fun g => { g with outQ := [x] }) (ingress 7)
       live s = true ∧ (getEngine s 3).outQ = [x]
         ∧ (engineAcct (settleCross (setEngine 3 (fun g => { g with outQ := [] }) s)) 3 (cellsOf x.msg)).isSome = true) := by
  decide +kernel

/-- Routes of a deferred message. -/
def deferRoutes : List Egress := [.port 8, .spray 8, .entry 2 5, .mcast 3]

theorem witness_IngressTakesTheHead_3 :
    ([(2, 2), (3, 3), (0, 0)].all fun e : Nat × Nat =>
      let s := { metered e.1 with cells := tmap (metered e.1).cells fun _ x => { x with msg := datagram 300 } }
      (match tget (getHall s 0).meters 3 with
       | some x =>
         let m := meterRefill (meterInForce s x) (nsNow s)
         live s && x.defer == [1] && (tget s.cells 1).isSome && getPort s (64 * 0 + x.port) == some (hp .up)
           && appliedAction m (meterColour m (chargeLen (hp .up) (datagram 300))) (datagram 300) == e.2
       | none => false)) = true
    ∧ (deferRoutes.all fun r => (tget { metered 0 with cells := tmap (metered 0).cells fun _ x => { x with route := r } }.cells 1).map
        (·.route) == some r) = true := by decide +kernel

/-- A message queued at port 8, and one in transmission there. -/
def queued : State :=
  { running [(8, { dp .up with subs := [(0, { rate := 512000, burst := 65536, b := 0 })] })] with
    halls := [(0, { queues := [(34, [.desc 1])] })],
    cells := [(1, { msg := { cls := .wr, dlen := 80 }, hall := 0, cells := 1, acct := .pool none, src := 0 })] }
def sendingPort : Port := { dp .up with sched := { sending := some { msg := { cls := .wr, dlen := 80 }, endDc := 40 } } }

theorem witness_TransmissionFollowsTheChoice :
    (live queued = true ∧ (getPort queued 8).map (fun q => (q.scfg.rs.half, txIdle q)) = some (false, true)
      ∧ (getPort queued 8).map (fun q => (choose (takePipe 8 queued) 8 q {}).2) = some (some (4, 0, 34))
      ∧ (headMsg (takePipe 8 queued) (hallOf 8) 34).map (·.1) = some 1)
    ∧ (live (one 8 sendingPort) = true ∧ getPort (one 8 sendingPort) 8 = some sendingPort ∧ sendingPort.typ ≠ .span
      ∧ sendingPort.sched.sending.map (·.mid) = some none)
    ∧ (let q : Port := { dp .up with sched := { sending := some { msg := { cls := .wr, dlen := 80 }, endDc := 40, mid := some 1 } } }
       live (one 8 q) = true ∧ getPort (one 8 q) 8 = some q ∧ q.sched.sending.map (·.mid) = some (some 1)) := by decide +kernel

/-- A subscriber on the wheel; a port with a Flight that has begun; one with a pending Flight. -/
def wheeled : State :=
  { running [(8, { dp .up with subs := [(5, { rate := 9, burst := 256, b := -1, e := some 12 })] })] with halls := [(0, { wheel := [(8, 5)] })] }
def flown : Port := { dp .up with sched := { flight := { start := 0, entries := [(3, 100)] } } }
def flightPending : Port := { dp .up with sched := { pendFlight := some { start := 0, entries := [(3, 100)] } } }
def timeValid (s : State) : State := { s with ft := { valid := true } }

theorem witness_WheelFlightsAndCopies_1 :
    (live wheeled = true ∧ wheelOrder wheeled 0 = [(12, (8, 5))] ∧ (getHall wheeled 0).wheelAt = none)
    ∧ (live (timeValid (one 8 flown)) = true ∧ getPort (timeValid (one 8 flown)) 8 = some flown ∧ flown.sched.flight.entries ≠ []
      ∧ gateMask (timeValid (one 8 flown)) flown ≠ flown.sched.mask)
    ∧ (live (timeValid (one 8 flightPending)) = true ∧ getPort (timeValid (one 8 flightPending)) 8 = some flightPending
      ∧ flightPending.sched.pendFlight = some { start := 0, entries := [(3, 100)] } ∧ 0 ≤ fabricNs (timeValid (one 8 flightPending))) := by
  decide +kernel

/-- A multicast message owed to hall 1; a tree port; a broadcast at the head of its ingress, and one in its stage. -/
def crossing : State :=
  { running [(72, dp .up)] with cells := [(1, { msg := { cls := .wr, dlen := 80, mc := true }, hall := 0, cells := 1, acct := .pool none, src := 0, cross := [(1, [72])] })] }
def treed (q : Port) (hs : Tab Hall) : State := { one 16 q with tree := [16], halls := hs }
def bcast : Msg := { cls := .mgt, mc := true, kind := 3, dlen := 64 }
def treeSpan : Port := { sp .up with span := { advH := ⟨9, 9, 9, 9⟩, advD := ⟨99, 99, 99, 99⟩ } }

theorem witness_WheelFlightsAndCopies_2 :
    (live crossing = true ∧ (tget crossing.cells 1).map (fun x => (tget x.cross 1, x.cells)) = some (some [72], 1)
      ∧ (tget (settleCross crossing).cells 1).map (fun x => crossBehind (settleCross crossing) 1 1 x) = some false
      ∧ rsvRoom (settleCross crossing) 1 (getHall (settleCross crossing) 1).mcUse (getHall (settleCross crossing) 1).mcRsv 1 = true)
    ∧ (live (treed (sp .up) []) = true ∧ stageOf (treed (sp .up) []) none = some (0, 1)
      ∧ tget (getHall (treed (sp .up) []) 0).stages 1 = none ∧ bcast.dlen ≤ 240)
    ∧ (let q := { sp .up with inQ := [{ msg := bcast, dest := .pid 0 }] }
       live (treed q []) = true ∧ getPort (treed q []) 16 = some q ∧ q.mgtWait = [] ∧ isBroadcast bcast = true
       ∧ (treed q []).tree.contains 16 = true ∧ tget (getHall (treed q []) (hallOf 16)).stages (pipeOf 16) = none)
    ∧ (let s := treed treeSpan [(0, { stages := [(1, { msg := bcast, arrival := none, ports := [16] })] })]
       live s = true ∧ tget (getHall s 0).stages 1 = some { msg := bcast, arrival := none, ports := [16] }
       ∧ getPort s 16 = some treeSpan ∧ treeSpan.scfg.rs.half = false ∧ txIdle treeSpan = true ∧ creditOk treeSpan {} bcast = true) := by
  decide +kernel

/-- A bay 5 with room and a context table, on H port 0. -/
def bayG (b : BayState) : Bay := { hport := 0, loc := 1, st := b, bme := true, ctx := some (8192, 16), tgt := { qp := 4, ctx := 4, msix := 2 } }
/-- A device with that bay and its QPs; the QP 9 has its context cached. -/
def gallery (b : BayState) (qs : Tab Qp) : State :=
  { one 0 { hp .up with pid := some 3, std := { ready := true, bme := true, numVfs := 8 } } with
    bays := [(5, bayG b)], qps := qs,
    gn := { mpus := [(0, { active := [(0, { owner := 5, valid := true, read := true, write := true, key := 0, base := 0,
                                            limit := 2 ^ 32 - 1 })] })] },
    halls := [(0, { engines := [(0, { cache := [{ qpn := 9, bay := 5 }] })] })] }
def qpG (st : QpState) : Qp := { bay := 5, engine := 0, cls := 0, wmax := 512, pin := false, slot := 0, st := st,
                                 dgram := some false, cfg := { peerPid := 7, peerQpn := 8 } }
/-- The officer's session, and its commands. -/
def gOff (qs : Tab Qp) : State := officer (gallery .active qs)
def regionG (e : Bool) : Region := { bay := 5, gen := 0, addr := 65536, length := 4096, paging := false, access := 3, ending := e }
def withRegion (e : Bool) (s : State) : State := setHall 0 (fun h => { h with mrs := [(0, regionG e)] }) s
def ctxP : Bytes := [5, 0, 0, 0, 4, 0, 0, 0] ++ le 8 8192
def createP : Bytes := le 4 5 ++ le 4 12
def mrP : Bytes := le 8 5 ++ le 8 65536 ++ le 8 4096
def modP (t : Nat) (bs : Bytes) : Bytes := le 4 9 ++ [t] ++ bs
def modRtr : Bytes := modP 2 (4 :: (List.replicate 30 0 ++ le 4 7 ++ le 4 8))
def modDg : Bytes := modP 2 (4 :: (List.replicate 30 0 ++ le 2 0xFFFF))
def modInit : Bytes := modP 1 (List.replicate 3 0 ++ le 8 4096 ++ le 8 8192 ++ le 8 12288)

theorem witness_GalleryCommandsSetQpsAndRegions_1 :
    (taken specCtxTableSet (i3c ctxP) (gOff []) { bytes := ctxP } = true ∧ raw { bytes := ctxP } 0 2 = some 5
      ∧ tget (gOff []).bays 5 = some (bayG .active) ∧ qpsHeld (gOff []) 5 = 0 ∧ (raw { bytes := ctxP } 4 4).getD 4 = 4
      ∧ raw { bytes := ctxP } 8 8 = some 8192) := by decide +kernel

theorem witness_GalleryCommandsSetQpsAndRegions_2 :
    (taken specQpCreate (i3c createP) (gOff []) { bytes := createP } = true ∧ raw { bytes := createP } 0 2 = some 5
      ∧ (bayG .active).ctx = some (8192, 16) ∧ raw { bytes := createP } 4 4 = some 12 ∧ tget (gOff []).qps 12 = none
      ∧ (raw { bytes := createP } 8 1).getD 0 = 0 ∧ (raw { bytes := createP } 10 2).getD 512 = 512
      ∧ (raw { bytes := createP } 12 1).getD 0 = 0 ∧ freeSlot (gOff []) 5 16 = some 0) := by decide +kernel

theorem witness_GalleryCommandsSetQpsAndRegions_3 :
    (taken specQpModify (i3c (modP 4 [])) (gOff [(9, qpG .rts)]) { bytes := modP 4 [] } = true
      ∧ raw { bytes := modP 4 [] } 0 4 = some 9 ∧ bayBusy (gOff [(9, qpG .rts)]) 5 = false ∧ raw { bytes := modP 4 [] } 4 1 = some 4
      ∧ taken specQpModify (i3c (modP 0 [])) (gOff [(9, qpG .error)]) { bytes := modP 0 [] } = true
      ∧ raw { bytes := modP 0 [] } 4 1 = some 0
      ∧ taken specQpModify (i3c (modP 3 [])) (gOff [(9, qpG .rtr)]) { bytes := modP 3 [] } = true
      ∧ raw { bytes := modP 3 [] } 4 1 = some 3 ∧ (raw { bytes := modP 3 [] } 44 2).getD 100 = 100
      ∧ (raw { bytes := modP 3 [] } 46 1).getD 7 = 7
      ∧ taken specQpModify (i3c modRtr) (gOff [(9, qpG .init)]) { bytes := modRtr } = true
      ∧ raw { bytes := modRtr } 36 2 = some 7 ∧ raw { bytes := modRtr } 40 4 = some 8
      ∧ (raw { bytes := modRtr } 5 1).getD 4 = 4 ∧ (raw { bytes := modRtr } 6 1).getD 0 = 0
      ∧ taken specQpModify (i3c modDg) (gOff [(9, qpG .init)]) { bytes := modDg } = true
      ∧ raw { bytes := modDg } 36 2 = some 0xFFFF
      ∧ taken specQpModify (i3c modInit) (gOff [(9, qpG .reset)]) { bytes := modInit } = true
      ∧ raw { bytes := modInit } 16 8 = some 8192 ∧ (raw { bytes := modInit } 32 1).getD 8 = 8
      ∧ (raw { bytes := modInit } 38 2).getD 0xFFFF = 0xFFFF ∧ (qpG .init).cfg.vector ≠ some 0xFFFF) := by decide +kernel

theorem witness_GalleryCommandsSetQpsAndRegions_4 :
    (taken specQpDestroy (i3c (le 4 9)) (gOff [(9, qpG .error)]) { bytes := le 4 9 } = true ∧ raw { bytes := le 4 9 } 0 4 = some 9) := by decide +kernel

theorem witness_GalleryCommandsSetQpsAndRegions_5 :
    taken specQpQuery (i3c (le 4 9)) (gOff [(9, qpG .error)]) { bytes := le 4 9 } = true := by decide +kernel

theorem witness_GalleryCommandsSetQpsAndRegions_6 :
    (taken specQpClassSet (i3c [3]) (gOff []) { bytes := [3] } = true ∧ raw { bytes := [3] } 0 1 = some 3
      ∧ (raw { bytes := [3] } 1 1).getD 1 = 1 ∧ (raw { bytes := [3] } 2 1).getD 2 = 2) := by decide +kernel

theorem witness_GalleryCommandsSetQpsAndRegions_7 :
    (taken specMrRegister (i3c mrP) (gOff []) { bytes := mrP } = true ∧ raw { bytes := mrP } 0 2 = some 5
      ∧ raw { bytes := mrP } 8 8 = some 65536 ∧ raw { bytes := mrP } 16 8 = some 4096
      ∧ lowestFree (tkeys (getHall (gOff []) (hallOf 0)).mrs) 16384 = some 0) := by decide +kernel

theorem witness_GalleryCommandsSetQpsAndRegions_8 :
    (taken specMrDeregister (i3c (le 4 0)) (withRegion false (gOff [])) { bytes := le 4 0 } = true
      ∧ findRegion (withRegion false (gOff [])) 0 = some (regionG false) ∧ regionBusy (withRegion false (gOff [])) 0 = false
      ∧ taken specMrDeregister (i3c (le 4 0)) { withRegion false (gOff []) with
          places := [(1, { eng := 0, qpn := 9, bay := 5, region := some 0 })] } { bytes := le 4 0 } = true
      ∧ regionBusy { withRegion false (gOff []) with places := [(1, { eng := 0, qpn := 9, bay := 5, region := some 0 })] } 0 = true) := by decide +kernel

theorem witness_GalleryCommandsSetQpsAndRegions_9 :
    (live (withRegion true (gOff [])) = true ∧ findRegion (withRegion true (gOff [])) 0 = some (regionG true)
      ∧ regionBusy (withRegion true (gOff [])) 0 = false) := by decide +kernel

theorem witness_DoorbellsServeTheBaysOwnQps_1 :
    (live (gallery .active [(9, qpG .rts)]) = true ∧ tget (gallery .active [(9, qpG .rts)]).bays 5 = some (bayG .active)
      ∧ bayReach (gallery .active [(9, qpG .rts)]) 5 = true ∧ tget (gallery .active [(9, qpG .rts)]).qps (9 % 2 ^ 20) = some (qpG .rts)
      ∧ cached (gallery .active [(9, qpG .rts)]) 0 9 = true ∧ cached (gallery .active [(4, qpG .rts)]) 0 4 = false) := by decide +kernel

theorem witness_DoorbellsServeTheBaysOwnQps_2 :
    tget (gallery .active []).qps (9 % 2 ^ 20) = none := by decide +kernel

theorem witness_DoorbellsServeTheBaysOwnQps_3 :
    (let w := List.replicate 48 (0 : Nat) ++ le 4 9 ++ List.replicate 12 0
     w.length = 64 ∧ unle (slice w 48 4) % 2 ^ 20 = 9 ∧ unle (slice w 52 2) % 4096 = (qpG .rts).sqCons) := by decide +kernel

theorem witness_DoorbellsServeTheBaysOwnQps_4 :
    (let r : Wr := { wqe := { op := 2, length := 64 }, msn := 0, ssn := 0 }
     let q := { qpG .rts with wrs := [r], w := 4096 }
     let s := gallery .active [(9, q)]
     let u := touch 0 9 (settleRto 9 s)
     live s && cached s 0 9 && (tget u.qps 9).isSome && nextToSend q.cfg.mtu q.wrs false == some (r, false)
       && ((tget u.qps 9).map fun q => maySend u q r false) == some true && tdiIssues u 5) = true := by decide +kernel

theorem witness_DoorbellsServeTheBaysOwnQps_5 :
    mayComplete (gallery .active [(9, qpG .rts)]) (qpG .rts) = true := by decide +kernel

/-- A packet to QP 9. -/
def galP (op msn off st : Nat) (bs : Bytes) : Gal :=
  { op := op, last := true, dqpn := 9, sqpn := 8, msn := msn, offset := off, tlen := bs.length, status := st, payload := bs }
def pktG (cls : Cls) (g : Gal) : Msg := { cls := cls, kind := 2, dpid := 3, spid := 7, gal := some g }
/-- The state of the packet tests. -/
def galS (q : Qp) : State := withRegion false (gallery .active [(9, q)])
def outG (cls : Cls) : Outst := { msn := 0, idx := 0, pkt := { cls := cls }, sentAt := 0, no := 0 }
def wqeG (op : Nat) : Wqe := { op := op, length := 64, localAddr := 65536, localMr := 0 }

/-- The state a packet meets at its engine. -/
def atEngine (q : Qp) : State := touch 0 9 (settleRto 9 (galS q))

theorem witness_GalleryPacketsAreCheckedAndServed_1 :
    live (galS (qpG .rts)) = true ∧ (pktG .wr (galP 1 0 0 0 [])).gal = some (galP 1 0 0 0 []) ∧ tget (galS (qpG .rts)).qps 9 = some (qpG .rts)
      ∧ rightPort (galS (qpG .rts)) (qpG .rts) { pktG .wr (galP 1 0 0 0 []) with dpid := 4 } = false := by decide +kernel

theorem witness_GalleryPacketsAreCheckedAndServed_2 :
    (rightPort (galS (qpG .rts)) (qpG .rts) (pktG .wr (galP 1 0 0 0 [])) = true ∧ cached (galS (qpG .rts)) 0 9 = true
      ∧ (qpG .rts).parked = [] ∧ tget (atEngine (qpG .rts)).qps 9 = some (qpG .rts)
      ∧ responderOk (qpG .rts) (pktG .wr (galP 1 0 0 0 [])) (galP 1 0 0 0 []) = true ∧ tdiIssues (atEngine (qpG .rts)) 5 = true) := by
  decide +kernel

theorem witness_GalleryPacketsAreCheckedAndServed_3 :
    (let g := galP 1 0 0 0 [1, 2]; let q := qpG .rts; let u := atEngine q
     let v := (pageRefusal 0 (pktG .wr g) g q (regionG false) {} 65536 2 u).2
     (beforePlace 0 (pktG .wr g) g q (ackAgain 0 (pktG .wr g) g) u).isNone
     && remoteRegion u q g true 2 == some (regionG false)
     && (pageRefusal 0 (pktG .wr g) g q (regionG false) {} 65536 2 u).1.isNone
     && (place 0 (pktG .wr g) g q 0 (regionG false) {} 65536 v).1
     && (remoteRegion u q { g with rmr := 1 } true 2).isNone
     && (beforePlace 0 (pktG .wr g) { g with rmr := 1 } q (ackAgain 0 (pktG .wr g) { g with rmr := 1 }) u).isNone) = true := by decide +kernel

theorem witness_GalleryPacketsAreCheckedAndServed_4 :
    (let g := galP 2 0 0 0 []; let u := atEngine (qpG .rts)
     (beforePlace 0 (pktG .req g) g (qpG .rts) (fun s => (serveRead 0 (pktG .req g) g (qpG .rts) {} s).2) u).isNone
       && g.msn == (qpG .rts).next && bayTag u 5) = true := by decide +kernel

theorem witness_GalleryPacketsAreCheckedAndServed_5 :
    (let g := galP 3 0 0 0 []
     let w : Wr := { wqe := wqeG 2, msn := 0, ssn := 0, sent := 1 }
     let q := { qpG .rts with outst := [outG .req], wrs := [w] }
     let u := atEngine q
     let v := (translate 0 5 (regionG false) {} 65536 0 u).2
     tget u.qps 9 == some q && findOutst q 0 (idxOfOffset q 0) == some (outG .req) && (q.wrs.find? fun x => x.msn == g.msn) == some w
     && curRegion u 5 0 == some (regionG false) && (translate 0 5 (regionG false) {} 65536 0 u).1.isNone
     && (engineWrite 0 5 none { eng := 0, qpn := 9, bay := 5, region := some 0, msn := some 0 } 65536 g.payload v).1
     && responderOk q (pktG .rsp g) g) = true := by decide +kernel

theorem witness_GalleryPacketsAreCheckedAndServed_6 :
    (let g := galP 4 0 0 0 [1, 2]; let q := { qpG .rts with recs := [{ msn := 0, op := 4 }] }; let u := atEngine q
     (beforePlace 0 (pktG .wr g) g q (ackAgain 0 (pktG .wr g) g) u).isNone && (findRec q 0).isSome && (tget q.rqes 0).isNone
       && responderOk q (pktG .wr g) g) = true := by decide +kernel

theorem witness_GalleryPacketsAreCheckedAndServed_7 :
    (let q := { qpG .rts with recs := [{ msn := 0, op := 4 }], rqes := [(0, wqeG 8)] }
     let u := atEngine q
     let g := galP 4 0 0 0 []; let long := galP 4 0 0 0 (List.replicate 65 0)
     let v := (pageRefusal 0 (pktG .wr g) g q (regionG false) {} 65536 0 u).2
     (beforePlace 0 (pktG .wr g) g q (ackAgain 0 (pktG .wr g) g) u).isNone && (localStatus u 5 (wqeG 8)).isNone
     && (pageRefusal 0 (pktG .wr g) g q (regionG false) {} 65536 0 u).1.isNone && curRegion u 5 0 == some (regionG false)
     && (place 0 (pktG .wr g) g q 0 (regionG false) {} 65536 v).1
     && (beforePlace 0 (pktG .wr long) long q (ackAgain 0 (pktG .wr long) long) u).isNone
     && decide ((wqeG 8).length < long.offset + long.payload.length)) = true := by decide +kernel

theorem witness_GalleryPacketsAreCheckedAndServed_8 :
    (let q := { qpG .rts with dgram := some true, rqes := [(0, wqeG 8)] }
     let none_ := { qpG .rts with dgram := some true }
     let g := galP 5 0 0 0 [1]; let u := atEngine q
     rightPort (galS q) q (pktG .wr g) && responderOk q (pktG .wr g) g && !bayResetting u q && !crFull q
     && (localStatus u 5 (wqeG 8)).isNone && curRegion u 5 0 == some (regionG false)
     && (translate 0 5 (regionG false) {} 65536 1 u).1.isNone
     && tget (atEngine none_).qps 9 == some none_ && responderOk none_ (pktG .wr g) g) = true := by decide +kernel

theorem witness_GalleryPacketsAreCheckedAndServed_9 :
    (let q := { qpG .rts with outst := [outG .wr] }
     tget (atEngine q).qps 9 == some q && findOutst q 0 (idxOfOffset q 0) == some (outG .wr) && (outG .wr).pkt.cls != .req
       && (galP 7 0 0 2 []).status != 1 && (galP 7 0 0 1 []).status == 1
       && responderOk q (pktG .rsp (galP 6 0 0 0 [])) (galP 6 0 0 0 []) && responderOk q (pktG .rsp (galP 7 0 0 2 [])) (galP 7 0 0 2 []))
      = true := by decide +kernel

theorem witness_ContextsRetriesAndPagesEnd_1 :
    [({ qpn := 9, bay := 5, fetching := true } : CacheEnt), { qpn := 9, bay := 5, writing := true }].all (fun x =>
      let s := setEngine 0 (fun g => { g with cache := [x] }) (galS (qpG .rts))
      live s && tget s.qps 9 == some (qpG .rts) && cacheEnt (getEngine s 0) 9 == some x && tget s.bays 5 == some (bayG .active)
        && (bayG .active).ctx == some (8192, 16) && bayTag s 5 && (engineRead 0 5 8192 256 s).1
        && allPass (mpuCheck 0 5 true 8192 256 s).1) = true := by decide +kernel

theorem witness_ContextsRetriesAndPagesEnd_2 :
    (let o := { outG .wr with notBefore := some 4 }
     let s := galS { qpG .rts with outst := [o] }
     live s = true ∧ findOutst { qpG .rts with outst := [o] } 0 0 = some o ∧ o.notBefore = some 4 ∧ tdiIssues s 5 = true)
    ∧ (let q := { qpG .rts with outst := [outG .wr] }
       (outG .wr).notBefore = none ∧ (outG .wr).paged = false ∧ (outG .wr).due = none ∧ tget (galS q).qps 9 = some q
         ∧ q.outst.contains (outG .wr) = true ∧ tdiIssues (galS q) 5 = true) := by decide +kernel

theorem witness_ContextsRetriesAndPagesEnd_3 :
    (isType (galS (qpG .rts)) .h 0 = true ∧ (galS (qpG .rts)).places = []) := by decide +kernel

theorem witness_ContextsRetriesAndPagesEnd_4 :
    ({ bayG .active with priOut := [3] }).priOut.contains 3 = true := by decide +kernel

/-- A device with H port 0 and a bay 5 on it. -/
def bayed (y : Bay) : State := { one 0 { hp .up with std := { ready := true, bme := true, numVfs := 8 } } with bays := [(5, y)] }
def bayB : Bay := { hport := 0, loc := 1, tgt := { qp := 4, msix := 1 } }
def rstB (e r : Bool) : Bay := { bayB with st := .draining, rst := some { removal := r, deadline := 0, ended := e } }

theorem witness_BaysAreMadeResizedResetAndRemoved_1 :
    let s := officer (bayed bayB)
    let c := i3c [0, 0]
    taken specBayCreate c s { bytes := [0, 0] } = true ∧ (getPort (entered c s) 0).map (fun q => (q.typ, q.st)) = some (.h, .up)
      ∧ (raw { bytes := [0, 0] } 2 2).getD 0xFFFF = 0xFFFF ∧ lowestFree (tkeys s.bays) 2048 = some 0
      ∧ lowestFree ((bayList s fun y => y.hport == 0).map (·.2.loc)) 256 = some 0 ∧ subCount (entered c s) 0 < 4096
      ∧ (freeRes (entered c s) 0).msix ≠ 0
      ∧ (resFields { bytes := [0, 0] } 2 { rate := lineRate (hp .up), msix := 1 } (freeRes (entered c s) 0) (lineRate (hp .up))).run []
          = .ok ({ rate := lineRate (hp .up), msix := 1 }, []) := by decide +kernel

theorem witness_BaysAreMadeResizedResetAndRemoved_2 :
    let s := officer (bayed bayB); let c := i3c (le 4 5); let e := entered c s
    taken specBayResize c s { bytes := le 4 5 } = true ∧ raw { bytes := le 4 5 } 0 2 = some 5 ∧ bayB.st = .active
      ∧ bayB.tdi ≠ .locked ∧ bayB.tdi ≠ .run
      ∧ (resFields { bytes := le 4 5 } 1 (heldRes e 5 bayB) (addRes (freeRes e 0) (heldRes e 5 bayB)) (lineRate (hp .up))).run []
          = .ok (heldRes e 5 bayB, []) := by decide +kernel

theorem witness_BaysAreMadeResizedResetAndRemoved_3 :
    let s := officer (bayed bayB)
    let c := i3c (le 2 5)
    taken specBayQuery c s { bytes := le 2 5 } = true ∧ taken specBayQuery (i3c (le 2 6)) s { bytes := le 2 6 } = true
      ∧ tget s.bays 5 = some bayB ∧ tget s.bays 6 = none ∧ taken specBayReset c s { bytes := le 2 5 } = true
      ∧ (raw { bytes := le 2 5 } 4 4).getD 1000 = 1000 ∧ taken specBayRemove c s { bytes := le 2 5 } = true
      ∧ ownsLocked s 5 = false := by decide +kernel

theorem witness_BaysAreMadeResizedResetAndRemoved_4 :
    live (bayed (rstB false false)) = true ∧ tget (bayed (rstB false false)).bays 5 = some (rstB false false)
      ∧ bayWork (bayed (rstB false false)) 5 = 0 ∧ bayWork (bayed (rstB true false)) 5 = 0
      ∧ bayWork (bayed (rstB true true)) 5 = 0 := by decide +kernel

theorem witness_BaysAreMadeResizedResetAndRemoved_5 :
    let s := setAtr (fun a => { a with wired := [{ source := 0, cause := 0, object := 0, due := 6, react := 3, actor := 5 }] }) (bayed bayB)
    live s = true ∧ tget s.bays 5 = some bayB ∧ bayReach s 5 = true ∧ wiredReset s 5 = some { source := 0, cause := 0, object := 0, due := 6, react := 3, actor := 5 }
      ∧ pf0Reach s 0 = true ∧ (getPort s 0).map (·.std.numVfs) = some 8 := by decide +kernel

/-- A message of the bay's clients. -/
def alMsg : Bytes := 3 :: List.replicate 63 0

theorem witness_AlcoveFifosFollowTheirRules :
    (∀ x : Side, x = .bay ∨ x = .manager → sideReach (bayed { bayB with toBay := [alMsg], toMgr := [alMsg] }) x 5 = true
      ∧ rxFifo x { bayB with toBay := [alMsg], toMgr := [alMsg] } = [alMsg] ∧ rxFifo x bayB = []
      ∧ (rxFifo (other x) bayB).length < 16 ∧ unle (slice (staged (sideOf x bayB)) 0 2) < 0xFF00)
    ∧ live (bayed bayB) = true ∧ tget (bayed bayB).bays 5 = some bayB ∧ isType (bayed bayB) .h 0 = true := by
  refine ⟨fun x h => ?_, by decide +kernel⟩
  rcases h with h | h <;> subst h <;> decide +kernel

/-- A device with H port 0 and an access of the management cores in flight. -/
def garnetS (a : List Access) : State := officer { one 0 (hp .up) with gn := { acc := a } }
def accG : Access := { mpu := 64, epoch := 0, write := false, mid := none, port := 0, tag := 1 }
def mpuP : Bytes := le 2 64 ++ [0, 0] ++ le 2 0xFFF ++ [7, 0] ++ le 8 4096 ++ le 8 8191
def winP : Bytes := le 2 3 ++ [21, 9] ++ le 2 0xFFFF ++ [1, 0] ++ le 8 (2 ^ 21)

theorem witness_GarnetRulesChangeUnderTheEpoch_1 :
    taken specMpuWrite (sealed 0x0702 mpuP) (garnetS []) { bytes := mpuP } = true ∧ raw { bytes := mpuP } 0 2 = some 64
      ∧ mpuInUse (garnetS []) 64 = true ∧ raw { bytes := mpuP } 2 1 = some 0 ∧ raw { bytes := mpuP } 4 2 = some 0xFFF
      ∧ ownerOk (garnetS []) 64 0xFFF = true ∧ raw { bytes := mpuP } 6 1 = some 7 ∧ raw { bytes := mpuP } 7 1 = some 0
      ∧ raw { bytes := mpuP } 8 8 = some 4096 ∧ raw { bytes := mpuP } 16 8 = some 8191 ∧ commitNames (garnetS []) 64 = false
      ∧ bayBusy (garnetS []) 0xFFF = false ∧ (getMpu (garnetS []) 64).locks.contains 0 = false
      ∧ tdiLocked (garnetS []) 0xFFF = false ∧ tget (getMpu (garnetS []) 64).shadow 0 = none := by decide +kernel

theorem witness_GarnetRulesChangeUnderTheEpoch_2 :
    taken specGarnetWindowSet (sealed 0x0703 winP) (garnetS []) { bytes := winP } = true ∧ raw { bytes := winP } 0 2 = some 3
      ∧ raw { bytes := winP } 2 1 = some 21 ∧ raw { bytes := winP } 3 1 = some 9 ∧ (raw { bytes := winP } 4 2).getD 0xFFFF = 0xFFFF
      ∧ (raw { bytes := winP } 6 1).getD 1 = 1 ∧ raw { bytes := winP } 8 8 = some (2 ^ 21) ∧ (garnetS []).gn.shadowW = []
      ∧ commitWindows (garnetS []) = false ∧ bayBusy (garnetS []) 0xFFFF = false ∧ tdiLocked (garnetS []) 0xFFFF = false
      ∧ bit (garnetS []).sec.lock.toNat 5 = false := by decide +kernel

theorem witness_GarnetRulesChangeUnderTheEpoch_3 :
    taken specGarnetCommit (sealed 0x0704 (le 2 64)) (garnetS []) { bytes := le 2 64 } = true
      ∧ (raw { bytes := le 2 64 } 0 2).getD 0xFFFF = 64 ∧ (raw { bytes := le 2 64 } 4 2).getD 50 = 50 ∧ (garnetS []).ops = []
      ∧ taken specGarnetCommit (sealed 0x0704 (le 2 64)) (garnetS [accG]) { bytes := le 2 64 } = true
      ∧ (garnetS [accG]).gn.acc.any (oldAccess (commitMpu (entered (sealed 0x0704 (le 2 64)) (garnetS [accG])) 64) 64) = true
      ∧ taken specGarnetCommit (sealed 0x0704 []) (garnetS []) { bytes := [] } = true
      ∧ (raw { bytes := [] } 0 2).getD 0xFFFF = 0xFFFF := by decide +kernel

theorem witness_GarnetRulesChangeUnderTheEpoch_4 :
    taken specViolationRead (sealed 0x0705 (le 2 64)) (garnetS []) { bytes := le 2 64 } = true
      ∧ (raw { bytes := le 2 64 } 2 1).getD 0 = 0
      ∧ (let o : Op := { reply := baseReply 0x0704 (i3c []) true, kind := .garnet 64 }
         let s : State := { garnetS [] with ops := [o] }
         live s = true ∧ findOp s (.garnet 64) = some o ∧ s.gn.acc.any (oldAccess s 64) = false)
      ∧ (let s : State := { garnetS [] with gn := { waits := [(64, 9)] } }
         live s = true ∧ tget s.gn.waits 64 = some 9) := by decide +kernel

def secS : State := officer (one 8 (dp .up))
def sessB (d : Bool) : Session := { id := 9, role := .officer, origin := some .i3c, done := d }
def withSess (d : Bool) : State := setSec (fun x => { x with sessions := [sessB d] }) (one 8 (dp .up))
def withAnchor (s : State) : State := setNv (fun v => { v with anchors := [(some 1, false), (none, false), (none, false), (none, false)] }) s

theorem witness_SpdmSessionsOpenAndEnd_1 :
    partyRole secS (.link 8) = some (.link 8, none) ∧ sessionRoom secS (.link 8) = true ∧ findSession secS 9 = none
      ∧ (let s := setSec (fun x => { x with sessions := [{ id := 3, role := .link 8, origin := none }] }) secS
         sessionRoom s (.link 8) = false ∧ partyRole s (.link 8) = some (.link 8, none)) := by decide +kernel

theorem witness_SpdmSessionsOpenAndEnd_2 :
    findSession (withSess false) 9 = some (sessB false) ∧ anchorOk (withAnchor (withSess false)) 0 = true
      ∧ findSession (withAnchor (withSess false)) 9 = some (sessB false) ∧ (withSess false).boot.bedrock = true := by decide +kernel

theorem witness_SpdmSessionsOpenAndEnd_3 :
    spdmOpen (withSess true) .i3c = true ∧ sessionOn (withSess true) .i3c 9 = some (sessB true)
      ∧ enrolOk (withSess true) (sessB true) 1 false = true ∧ enrolOk (withAnchor (withSess true)) (sessB true) 0 true = true
      ∧ sessionOn (withSess true) .i3c 10 = none ∧ (withSess true).sec.identity = true := by decide +kernel

theorem witness_SpdmSessionsOpenAndEnd_4 :
    secS.sec.drbg = true ∧ live (withAnchor secS) = true ∧ anchorOk (withAnchor secS) 0 = true
      ∧ secS.sec.lock.getLsbD 1 = false ∧ (setSec (fun x => { x with lock := 7 }) secS).sec.token = false := by decide +kernel

def lockP (k es : Nat) (m : Nat) : Bytes := [k, 0, 0, 0] ++ le 4 m ++ le 8 es
def zeroP (k n : Nat) : Bytes := [k, 0] ++ le 2 n ++ le 4 0x5A45524F
def be48 (x : Nat) : Bytes := (le 48 x).reverse
def keyP : Bytes := [1, 0, 0, 0] ++ be48 gX ++ be48 gY

theorem witness_BedrockCommandsTakeEffect_1 :
    taken specSessionEnd (sealed 0x0701 []) secS { bytes := [] } = true ∧ taken specApprovedGet (sealed 0x070B []) secS { bytes := [] } = true
      ∧ (findSession (entered (sealed 0x070B []) secS) 7).isSome = true ∧ taken specDeviceInfo (i3c []) secS { bytes := [] } = true
      ∧ taken specSelftest (sealed 0x070A []) secS { bytes := [] } = true
      ∧ (setSec (fun x => { x with testing := some (5, true) }) secS).sec.testing = some (5, true) ∧ secS.dc < 5
      ∧ (setSec (fun x => { x with testing := some (0, false) }) secS).sec.testing = some (0, false) ∧ 0 ≤ secS.dc := by decide +kernel

theorem witness_BedrockCommandsTakeEffect_2 :
    taken specLockSet (sealed 0x0708 (lockP 0 0 8)) secS { bytes := lockP 0 0 8 } = true ∧ raw { bytes := lockP 0 0 8 } 0 1 = some 0
      ∧ (raw { bytes := lockP 0 0 8 } 4 4).getD 0 = 8 ∧ (BitVec.ofNat 6 8).getLsbD 0 = false
      ∧ taken specLockSet (sealed 0x0708 (lockP 1 5 0)) secS { bytes := lockP 1 5 0 } = true ∧ raw { bytes := lockP 1 5 0 } 0 1 = some 1
      ∧ (raw { bytes := lockP 1 5 0 } 8 8).getD 0 = 5 ∧ commitNames secS 0 = false := by decide +kernel

theorem witness_BedrockCommandsTakeEffect_3 :
    taken specZeroize (sealed 0x0709 (zeroP 0 0)) secS { bytes := zeroP 0 0 } = true ∧ raw { bytes := zeroP 0 0 } 4 4 = some 0x5A45524F
      ∧ (let s := officer (one 128 (sp .up))
         taken specZeroize (sealed 0x0709 (zeroP 1 128)) s { bytes := zeroP 1 128 } = true ∧ isType (entered (sealed 0x0709 (zeroP 1 128)) s) .span 128 = true)
      ∧ taken specZeroize (sealed 0x0709 (zeroP 2 8)) secS { bytes := zeroP 2 8 } = true
      ∧ isType (entered (sealed 0x0709 (zeroP 2 8)) secS) .d 8 = true := by decide +kernel

theorem witness_BedrockCommandsTakeEffect_4 :
    taken specFdidSet (i3c [3, 0, 0, 0]) secS { bytes := [3, 0, 0, 0] } = true ∧ raw { bytes := [3, 0, 0, 0] } 0 1 = some 3
      ∧ ((entered (i3c [3, 0, 0, 0]) secS).ports.all fun x => x.2.typ != .span) = true := by decide +kernel

theorem witness_BedrockCommandsTakeEffect_5 :
    taken specBundleKeySet (sealed 0x0103 keyP) secS { bytes := keyP } = true ∧ raw { bytes := keyP } 0 1 = some 1
      ∧ beVal (slice keyP 4 48) = gX ∧ beVal (slice keyP 52 48) = gY ∧ (raw { bytes := keyP } 4 48).isSome = true
      ∧ onP384 gX gY = true ∧ (entered (sealed 0x0103 keyP) secS).sec.lock.getLsbD 3 = false := by decide +kernel

/-- A bundle of 256 bytes with one command packet of 96 bytes. -/
def bundleW : Bytes :=
  signed384 (le 4 0x424E564C ++ [1, 0, 0, 0] ++ le 4 256 ++ le 4 5 ++ le 2 0xFFFF ++ le 2 0 ++ le 4 1 ++ List.replicate 40 0
    ++ ([1, 1, 0, 0, 80, 0, 0, 0] ++ List.replicate 88 0))
def loadP (l : Nat) (bs : Bytes) : Bytes := [1, l, 0, 0] ++ le 4 0 ++ le 8 0 ++ le 4 bs.length ++ List.replicate 4 0 ++ bs
def bundleKeyed : State := setNv (fun v => { v with bundleKeys := [(0, (gX, gY))] }) secS

theorem witness_BedrockCommandsTakeEffect_6 :
    taken specBundleLoad (sealed 0x0104 (loadP 0 [1])) secS { bytes := loadP 0 [1] } = true
      ∧ (raw { bytes := loadP 0 [1] } 0 1).getD 0 = 1 ∧ raw { bytes := loadP 0 [1] } 16 4 = some 1
      ∧ taken specBundleLoad (sealed 0x0104 (loadP 1 bundleW)) bundleKeyed { bytes := loadP 1 bundleW } = true
      ∧ (raw { bytes := loadP 1 bundleW } 1 1).getD 1 = 1
      ∧ (verifyBundle (entered (sealed 0x0104 (loadP 1 bundleW)) bundleKeyed)
          (stageWrite [] 0 (slice (loadP 1 bundleW) 24 256))).isRight = true
      ∧ (verifyBundle secS (stageWrite [] 0 (slice (loadP 1 bundleW) 24 256))).isLeft = true := by decide +kernel

/-- Packets of a bundle: PORT_DISABLE of a port that is DOWN, and of one that is not in use. -/
def bundlePkt (n : Nat) : Bytes := le 2 specPortDisable.code ++ [0, 0] ++ le 2 4 ++ [0, 0] ++ List.replicate 8 0 ++ le 4 n
def bundling (k : Nat) (l : List Bytes) : State :=
  { one 8 (dp .down) with bundle := some { cmd := sealed 0x0105 [], seq := 5, pkts := l, next := k } }

theorem witness_BedrockCommandsTakeEffect_7 :
    (let s : State := { secS with stage := { bytes := bundleW, verified := some (5, []) } }
     taken specBundleActivate (sealed 0x0105 []) s { bytes := [] } = true ∧ s.nv.bseq < 5
       ∧ (match bundleRun (sealed 0x0105 []) 0 [] (entered (sealed 0x0105 []) s) with | .ok _ => true | .error _ => false) = true)
    ∧ ([(8, true), (9, false)].all fun e : Nat × Bool =>
        (match bundleCommand (sealed 0x0105 []) (bundlePkt e.1) (bundling 0 [bundlePkt e.1]) with
         | .ok _ => true
         | .error _ => false) == e.2) = true
    ∧ (bundling 1 [bundlePkt 8]).bundle.map (fun r => r.pkts[r.next]?) = some none := by decide +kernel

def imageKeyed (s : State) : State :=
  setNv (fun v => { v with keySlots := (shaOf (Crypto.toBE 48 gX ++ Crypto.toBE 48 gY), false) :: v.keySlots.drop 1 }) s
def fwP : Bytes := le 8 4096 ++ le 4 160 ++ le 4 0
def fwC : Cmd := { sealed 0x0106 fwP with env := { hostData := bootImage, readBackOk := true } }

theorem witness_BedrockCommandsTakeEffect_8 :
    (let s := imageKeyed secS
     taken specFwUpdate fwC s { bytes := fwP } = true ∧ raw { bytes := fwP } 0 8 = some 4096 ∧ raw { bytes := fwP } 8 4 = some 160
       ∧ (imageOf (entered fwC s) (hostBytes fwC 160)).ilen = 160
       ∧ imageFault (entered fwC s) (imageOf (entered fwC s) (hostBytes fwC 160)) = 0 ∧ fwC.env.readBackOk = true)
    ∧ taken specFwSelect (sealed 0x0107 [0, 0]) secS { bytes := [0, 0] } = true ∧ raw { bytes := [0, 0] } 0 1 = some 0
    ∧ (let s := setNv (fun v => { v with images := [(0, imageOf (imageKeyed secS) bootImage)] }) (imageKeyed secS)
       taken specFwSelect (sealed 0x0107 [0, 1]) s { bytes := [0, 1] } = true
         ∧ (slotAccepted (entered (sealed 0x0107 [0, 1]) s) 0).isSome = true) := by decide +kernel

/-- An event of source 5, fired in CLK_A cycle 0. -/
def eventW : Event := { ts := 0, source := 5, cls := 1, react := 1, detail := 0 }
def atrS : State := { one 0 (hp .up) with dc := 16, atr := { pend := [(5, eventW)], first := some eventW, wired := [
  { source := 3, cause := 1, object := 0, actor := 0xFFF, react := 4, due := 20 }] } }

theorem witness_AtriumRecordsAndDetectors_1 :
    afterPtr (tgetD atrS.atr.lanePtr 0 255) ((lanePend atrS 0).filter fun e => decide (e.cyc < drainCycle atrS 0 (lanePend atrS 0)))
        = some eventW
      ∧ taken specEventReactionSet (i3c [70, 0, 2]) atrS { bytes := [70, 0, 2] } = true ∧ raw { bytes := [70, 0, 2] } 0 2 = some 70
      ∧ srcClass 70 ≠ 3 ∧ srcFixed 70 = false ∧ (raw { bytes := [70, 0, 2] } 2 1).getD (if srcClass 70 = 2 then 2 else 1) = 2 := by
  decide +kernel

theorem witness_AtriumRecordsAndDetectors_2 :
    (raw { bytes := [1] } 0 1).getD 0 = 1 ∧ taken specFirstEventRead (i3c [1]) atrS { bytes := [1] } = true
      ∧ atrS.atr.first = some eventW ∧ taken specHistoryRead (i3c [1]) atrS { bytes := [1] } = true
      ∧ taken specFirstEventRead (i3c []) (one 0 (hp .up)) { bytes := [] } = true ∧ (one 0 (hp .up)).atr.first = none
      ∧ taken specEventRingSet (i3c (le 8 4096)) atrS { bytes := le 8 4096 } = true ∧ raw { bytes := le 8 4096 } 0 8 = some 4096
      ∧ slotsApp 256 = 256 ∧ mgrReach atrS = true := by decide +kernel

theorem witness_AtriumRecordsAndDetectors_3 :
    live atrS = true ∧ (basaltNext atrS).isSome = true ∧ inUse atrS 0 = true
      ∧ (tget (tset atrS.cells 4 { msg := { cls := .wr }, hall := 0, cells := 1, acct := .pool none, src := 0 }) 4).isSome = true
      ∧ tripAt atrS ≤ 480 ∧ warnAt atrS ≤ 430 ∧ (0 : Int) ≤ warnAt atrS - 20 ∧ atrS.atr.hot.contains 3 = false
      ∧ (setAtr (fun a => { a with warm := [3] }) atrS).atr.warm.contains 3 = true := by decide +kernel

/-- A device with D port 8 and a channel 3 in some state, feed 0 good. -/
def powered (x : Chan) : State :=
  { running [(0, hp .up), (8, dp .up)] with nw := { chs := [(3, x)], feeds := [(0, { good := true, volt := 1200 })] } }
def chanW (st : ChState) : Chan := { st := st, present := true, requested := true }
def assocW : Chan := { chanW .on with assoc := BitVec.ofNat 32 (2 ^ 31 + 8) }

theorem witness_NewelCommandsSetChannels_1 :
    taken specNewelConfig (i3c [3]) (powered (chanW .off)) { bytes := [3] } = true ∧ raw { bytes := [3] } 0 1 = some 3
      ∧ (raw { bytes := [3] } 2 2).getD 100 = 100 ∧ (raw { bytes := [3] } 4 1).getD 20 = 20
      ∧ (raw { bytes := [3] } 8 2).getD 1000 = 1000 ∧ (raw { bytes := [3] } 12 1).getD 3 = 3
      ∧ (raw { bytes := [3] } 13 1).getD 0 = 0 ∧ (raw { bytes := [3] } 14 1).getD 0 = 0 ∧ (raw { bytes := [3] } 15 1).getD 0 = 0
      ∧ chanBusy (powered (chanW .off)) 3 = false ∧ gateOn (getChan (powered (chanW .off)) 3) = false := by decide +kernel

theorem witness_NewelCommandsSetChannels_2 :
    taken specNewelOn (i3c [3]) (powered (chanW .off)) { bytes := [3] } = true ∧ senseOk (chanW .off) = true
      ∧ taken specNewelClear (i3c [3]) (powered (chanW .lockout)) { bytes := [3] } = true
      ∧ (getChan (powered (chanW .lockout)) 3).st = .lockout ∧ taken specNewelClear (i3c [3]) (powered (chanW .off)) { bytes := [3] } = true
      ∧ taken specNewelOff (i3c [3]) (powered (chanW .on)) { bytes := [3] } = true ∧ bit (chanW .on).assoc.toNat 31 = false := by
  decide +kernel

theorem witness_NewelCommandsSetChannels_3 :
    taken specNewelOff (i3c [3]) (powered assocW) { bytes := [3] } = true ∧ bit assocW.assoc.toNat 31 = true
      ∧ isType (entered (i3c [3]) (powered assocW)) .d (assocW.assoc.toNat % 512) = true
      ∧ portSt (entered (i3c [3]) (powered assocW)) (assocW.assoc.toNat % 512) = some .up
      ∧ (amberWired (entered (i3c [3]) (powered assocW)) (assocW.assoc.toNat % 512)).any (fun w => w.due == 0) = false := by
  decide +kernel

theorem witness_NewelCommandsSetChannels_4 :
    taken specNewelStatus (i3c [3, 2]) (powered (chanW .on)) { bytes := [3, 2] } = true ∧ raw { bytes := [3, 2] } 0 1 = some 3
      ∧ raw { bytes := [3, 2] } 1 1 = some 2 ∧ taken specStairwellSet (i3c [1]) (powered (chanW .on)) { bytes := [1] } = true
      ∧ raw { bytes := [1] } 0 1 = some 1 ∧ (raw { bytes := [1] } 2 2).getD 40 = 40 ∧ (raw { bytes := [1] } 4 2).getD 1100 = 1100
      ∧ mgrReach (powered (chanW .on)) = true ∧ (powered (chanW .on)).boot.por = false ∧ (powered (chanW .on)).boot.pll = true := by
  decide +kernel

theorem witness_ChannelsStartThroughTheStairwell_1 :
    mayQueue (powered (chanW .wait)) (chanW .wait) = true ∧ (chanW .wait).expAt = none
      ∧ mayQueue (powered { chanW .wait with expAt := some 64 }) { chanW .wait with expAt := some 64 } = true
      ∧ stairCandidate (clockTo (clkP 0) (powered (chanW .queued))) 0 = some (3, chanW .queued)
      ∧ chargedTo (clockTo (clkP 0) (powered (chanW .queued))) 0 = 0 ∧ (getFeed (powered (chanW .queued)) 0).good = true
      ∧ (getFeed (powered (chanW .queued)) 0).lastAdm ≠ some (clkP 0) := by decide +kernel

theorem witness_ChannelsStartThroughTheStairwell_2 :
    gateOn (chanW .ramp) = true ∧ (chanW .ramp).pg = false ∧ ({ chanW .on with pg := true } : Chan).st = .on
      ∧ presEn { chanW .off with present := false } = true ∧ presEn (chanW .on) = true ∧ gateOn (chanW .off) = false
      ∧ ({ chanW .wait with timer := some 9 } : Chan).timer = some 9 ∧ doneNow (powered (chanW .queued)) = []
      ∧ (getChan (powered (chanW .queued)) 3).st = .queued ∧ feedFor (powered (chanW .queued)) (chanW .queued) = some 0
      ∧ (getFeed (powered (chanW .queued)) 0).droopy = false ∧ (powered (chanW .queued)).nw.under = false
      ∧ (powered (chanW .on)).boot.basalt = false ∧ gateOn (getChan (powered (chanW .on)) 3) = true := by decide +kernel

theorem witness_ChannelAndFeedFaults :
    getChan (powered (chanW .ramp)) 3 = chanW .ramp ∧ (powered (chanW .ramp)).boot.basalt = false
      ∧ (chanW .ramp).retries < (chanW .ramp).retryCnt ∧ (chanW .ramp).retryCnt ≤ 15
      ∧ doneNow (clockTo ((0 / 32 + 1) * 32) (powered (chanW .ramp))) = []
      ∧ gateOn (chanW .off) = false ∧ (chanW .off).st ≠ .short ∧ bit (chanW .off).assoc.toNat 31 = false
      ∧ ({ chanW .on with moving := some 0 } : Chan).moving = some 0 ∧ ({ chanW .on with blank := true } : Chan).blank = true
      ∧ (1000 : Nat) < (getFeed (powered (chanW .ramp)) 0).droop ∧ (getFeed (powered (chanW .ramp)) 0).droopy = false
      ∧ (getFeed (powered (chanW .ramp)) 0).droop + 20 < 1200 := by decide +kernel

def ringed (en : Bool) : Port := { hp .up with std := { bme := true, ready := true, rings := { enable := en } } }
def regS : State := { one 0 (ringed true) with atr := { ring := some (4096, 256, 0) }, tele := [(2, { block := 9, inst := 0, offset := 0, count := 1, period := 1 })] }

theorem witness_RegistersAreReadAndWritten_1 :
    live regS = true ∧ target regS 0 0x40000 = some (.reg 9 0 0) ∧ target regS 0 0x2800000 = some (.reg 15 0 0) ∧ target regS 0 0x3FFFFFC = none ∧ pf0Reach regS 0 = true
      ∧ mgrReach regS = true := by decide +kernel

theorem witness_RegistersAreReadAndWritten_2 :
    taken specCountersRead (i3c [9, 0, 0, 0, 0, 0, 0, 0]) regS { bytes := [9, 0, 0, 0, 0, 0, 0, 0] } = true
      ∧ raw { bytes := [9, 0, 0, 0, 0, 0, 0, 0] } 0 1 = some 9 ∧ raw { bytes := [9, 0, 0, 0, 0, 0, 0, 0] } 2 2 = some 0
      ∧ instOk (entered (i3c [9, 0, 0, 0, 0, 0, 0, 0]) regS) 9 0 = true ∧ raw { bytes := [9, 0, 0, 0, 0, 0, 0, 0] } 4 4 = some 0
      ∧ (raw { bytes := [9, 0, 0, 0, 0, 0, 0, 0] } 8 2).getD 1 = 1 ∧ taken specSensorsRead (i3c []) regS { bytes := [] } = true := by
  decide +kernel

theorem witness_RingsAndPacketsCarryCommands_1 :
    live regS = true ∧ pf0Reach regS 0 = true ∧ getPort regS 0 = some (ringed true) ∧ ringOcc (3 % 65536) 0 ≤ 2 ^ ringLog (ringed true).std.rings
      ∧ 2 ^ ringLog (ringed true).std.rings < ringOcc (20 % 65536) 0 ∧ getPort (one 0 (ringed false)) 0 = some (ringed false)
      ∧ bit (4 ||| 16) 4 = true ∧ bit 4 4 = false := by decide +kernel

theorem witness_RingsAndPacketsCarryCommands_2 :
    (specIn (specBundleActivate :: opTable) (unle (slice ([1, 1] ++ List.replicate 14 0) 0 2))).isSome = true
      ∧ assembled (mctpUnit regS .i3c) [[1, 1] ++ List.replicate 14 0] = some ([1, 1] ++ List.replicate 14 0)
      ∧ (assembled (mctpUnit regS (.vdm 0)) [List.replicate 61 1, List.replicate 64 2, [3]]).map List.length = some 126
      ∧ assembled 64 [List.replicate 60 1, [3]] = none
      ∧ (let b : Bytes := [3, 9, 0, 0, 0, 0, 0, 0, 1, 0, 5, 0]
         taken specTelemetryStream (i3c b) regS { bytes := b } = true ∧ raw { bytes := b } 0 1 = some 3 ∧ raw { bytes := b } 1 1 = some 9
         ∧ raw { bytes := b } 2 2 = some 0 ∧ raw { bytes := b } 4 4 = some 0 ∧ (raw { bytes := b } 10 2).getD 0 = 5
         ∧ regS.atr.ring.isSome = true)
      ∧ (tget regS.tele 2).isSome = true := by decide +kernel

/-- A state with some commands waiting. -/
def withWaiting (l : List Instr) (s : State) : State := { s with pending := l }

theorem witness_StepRunsTheFrontCommand :
    (withWaiting [.porNLow, .heartbeatExpiry 3] State.reset).pending = .porNLow :: [.heartbeatExpiry 3] ∧ State.reset.pending = [] := by
  decide +kernel

theorem witness_ColdResetHolds :
    (withWaiting [.railOutOfRange 1] State.reset).boot.por = true ∧ State.reset.boot.pll = false ∧ State.reset.boot.bedrock = false
      ∧ State.reset.boot.basalt = false ∧ State.reset.ports = [] ∧ State.reset.bays = [] ∧ State.reset.qps = []
      ∧ State.reset.sec.sessions = []
      ∧ (∀ st l, (withWaiting [.railOutOfRange 1] State.reset).pending.head? ≠ some (.porNRise st l))
      ∧ (∀ rail, (withWaiting [.railOutOfRange 1] State.reset).pending.head? ≠ some (.railRestored rail)) := by
  refine ⟨rfl, rfl, rfl, rfl, rfl, rfl, rfl, rfl, ?_, ?_⟩ <;> simp [withWaiting]

/-- A device in Basalt. -/
def inBasalt (l : List Instr) : State :=
  withWaiting l { one 16 (sp .up) with boot := { (running []).boot with basalt := true, mezz := .stopped } }

theorem witness_BasaltHolds :
    ((inBasalt [.eventDrain 0]).boot.basalt = true ∧ (inBasalt [.eventDrain 0]).boot.por = false
      ∧ (inBasalt [.eventDrain 0]).boot.pin = false ∧ (inBasalt [.eventDrain 0]).boot.rails = []
      ∧ (inBasalt [.eventDrain 0]).sec.sessions = [])
    ∧ (inBasalt [.eventDrain 0]).pending.head? ≠ some .porNLow
    ∧ (∀ rail, (inBasalt [.eventDrain 0]).pending.head? ≠ some (.railOutOfRange rail))
    ∧ (inBasalt [.eventDrain 0]).pending.head? ≠ some .deviceResetBegin := by
  refine ⟨⟨rfl, rfl, rfl, rfl, rfl⟩, ?_, ?_, ?_⟩ <;> simp [inBasalt, withWaiting]

/-- An event that a source has fired. -/
def fired (src cyc : Nat) : Event :=
  { ts := 0, source := src, cls := srcClass src, tInv := false, react := 2, detail := 0, cyc := cyc }

theorem witness_FiringASourceRecordsIt :
    (running []).atr.stopped = false ∧ (running []).boot.atr = true ∧ State.reset.boot.atr = false
      ∧ tget (running []).atr.pend 5 = none ∧ tget ({ running [] with atr := { pend := [(5, fired 5 0)] } } : State).atr.pend 5 = some (fired 5 0)
      ∧ (running []).atr.first = none ∧ ({ running [] with atr := { first := some (fired 9 0) } } : State).atr.first = some (fired 9 0)
      ∧ (running []).dc / 8 = (fired 9 0).cyc ∧ 5 < (fired 9 0).source ∧ (fired 9 0).source ≤ 9 ∧ (running []).dc / 8 ≠ (fired 9 3).cyc
      ∧ srcClass 130 < 2 ∧ 2 ≤ srcClass 5 ∧ 2 ≤ reactOf (running []) 5
      ∧ reactOf (running []) (srcCentral 1) = 4 := by decide +kernel

theorem witness_CheckOnlyChangesNothingButTheReply :
    passes specPortDisable { portCmd 16 [] with flags := 1 } (one 16 (sp .down)) = some { bytes := [16, 0] }
      ∧ bit ({ portCmd 16 [] with flags := 1 } : Cmd).flags 0 = true := by decide +kernel

/-- A command of a session that is not there, with a wrong tag, with a wrong length. -/
def inSession9 (c : Cmd) : Cmd := { c with session := 9 }

theorem witness_CommandsAreCheckedInTheOrderOfR64_1 :
    (i3c []).origin = .i3c ∧ pathOpen State.reset (i3c []).origin = false ∧ pathOpen (running []) (i3c []).origin = true
      ∧ tagBusy { running [] with ops := [{ reply := { origin := .i3c, opcode := 0x020E, tag := 0, status := 0, session := 0 },
                                            kind := .eyeScan 8 1 }] } specPortDisable.code (i3c []) = true
      ∧ tagBusy (intake .i3c (running [])) specPortDisable.code (i3c []) = false ∧ (inBasalt []).boot.basalt = true
      ∧ basaltCode specPortDisable.code = false ∧ pathOpen (inBasalt []) (i3c []).origin = true ∧ (running []).boot.basalt = false
      ∧ carrierOk { i3c [] with carrier := 15 } = false ∧ plainLengthOk specPortDisable.layout (paramLen (i3c [1])) = false := by
  decide +kernel

theorem witness_CommandsAreCheckedInTheOrderOfR64_2 :
    (let c := sealed 0x070A []
     let u := intake .i3c (officer (running []))
     carrierOk (inSession9 c) = true ∧ plainLengthOk specSelftest.layout (paramLen (inSession9 c)) = true
       ∧ sessionOn (intake .i3c (running [])) .i3c 9 = none ∧ (sessionOn u .i3c 7).isSome = true ∧ tagOk u 0x070A c = true
       ∧ tagOk u 0x0705 c = false)
    ∧ (let c := i3c (le 2 0 ++ le 2 9 ++ List.replicate 8 0)
       carrierOk c = true ∧ plainLengthOk specRouteSet.layout (paramLen c) = true ∧ c.session = 0
         ∧ lengthOk specRouteSet.layout (plain specRouteSet c (running [])) = false)
    ∧ lengthOk specSelftest.layout (plain specSelftest (i3c []) (running [])) = true
    ∧ roleOk specSelftest.priv .i3c none = false := by decide +kernel

theorem witness_CheckedRangesSplitAtEveryBoundary :
    let r : Rgn := { valid := true, owner := 0, base := 0, limit := 0x17FF, read := true, write := true, key := 0 }
    let w : Window := { valid := true, base := 0x2000, log := 12, colour := 1, owner := 0xFFFF }
    0x1000 < 0x3000 ∧ partsFrom 0x1000 0x3000 (cutsIn [(0, r)] [(0, w)] 0x1000 0x3000)
      = [(0x1000, 0x800), (0x1800, 0x800), (0x2000, 0x1000)] := by
  decide +kernel

theorem witness_RingDoorbellsFollowR51 :
    live regS = true ∧ pf0Reach regS 0 = true ∧ getPort regS 0 = some (ringed true) ∧ regS.atr.stopped = false
      ∧ ringOcc 16 (ringed true).std.rings.cmdCons ≤ 2 ^ ringLog (ringed true).std.rings
      ∧ 2 ^ ringLog (ringed true).std.rings < ringOcc 17 (ringed true).std.rings.cmdCons
      ∧ ringOcc 65535 (ringed true).std.rings.cmdCons = 65535 := by decide +kernel

theorem witness_EyeScanNeedsUpAndAFreeLane :
    let b : Bytes := [8, 0, 1, 0]
    let up := one 8 (dp .up)
    taken specEyeScan (i3c b) (one 8 (dp .training)) { bytes := b } = true ∧ taken specEyeScan (i3c b) up { bytes := b } = true
      ∧ raw { bytes := b } 0 2 = some 8 ∧ getPort (entered (i3c b) up) 8 = some (dp .up) ∧ raw { bytes := b } 2 2 = some 1
      ∧ 1 < (dp .up).width ∧ (raw { bytes := b } 4 2).getD 10 = 10 ∧ (raw { bytes := b } 6 1).getD 0 = 0
      ∧ (raw { bytes := b } 7 1).getD 6 = 6 ∧ (getLane up 9).scan = none
      ∧ taken specEyeScan (i3c b) { up with lanes := [(9, { scan := some { at_ := some 5, dwell := 10, eye := 0, thr := 6 } })] }
          { bytes := b } = true := by decide +kernel

theorem witness_BoardRegistersAreWrittenAtRest :
    regS.boot.por = false ∧ regS.boot.pll = true ∧ mgrReach regS = true ∧ 31 < 32 ∧ (getChan regS 31).st = .off
      ∧ (getChan { regS with nw := { regS.nw with chs := [(31, { st := .on })] } } 31).st = .on
      ∧ (∀ k, k < 32 → k ≠ 31 → bit (getChan regS k).assoc.toNat 31 = false) := by decide +kernel

theorem witness_TheRecordIsLostWithVddAonAlone :
    State.reset.boot.pin = true ∧ State.reset.boot.por = true ∧ State.reset.boot.rails = []
      ∧ (resetWaits 2).boot.resetPend = some (2, 9) := by decide +kernel

theorem witness_SpanAndTimeSettings_2 :
    let b : Bytes := [136, 0, 100, 0, 0x90, 1, 0, 0, 0xE8, 3, 0, 0]
    let s := one 136 (sp .up)
    taken specSpanTimers (i3c b) s { bytes := b } = true
      ∧ taken specSpanTimers { i3c b with flags := 2 } s { bytes := b, noClamp := true } = true
      ∧ raw { bytes := b } 0 2 = some 136 ∧ raw { bytes := b } 2 1 = some 100 ∧ raw { bytes := b } 4 2 = some 400
      ∧ raw { bytes := b } 8 4 = some 1000 ∧ getPort (entered (i3c b) s) 136 = some (sp .up) ∧ (sp .up).typ = .span
      ∧ portBusy s 136 = false := by decide +kernel

/-! ## Ill-formed terms, one for each check of WellFormed -/

/-- A well-formed command packet, and a message and the levels of 16 lanes that are well formed. -/
def goodCmd : Cmd := i3c [1]
def goodMsg : Msg := { cls := .wr, dpid := 1, spid := 2, dlen := 3 }
def goodRx16 : List (List Nat) := List.replicate 16 [0, 1, 2, 3]

theorem test_wellFormed_terms :
    (Instr.pidSet goodCmd).wf = true ∧ goodMsg.wf = true ∧ (Instr.flitRxData 511 goodRx16).wf = true
      ∧ (Instr.registerWrite 2559 0xFFFFFFFC 0xFFFFFFFF 15).wf = true := by decide

theorem test_illFormed_packet_header :
    [{ goodCmd with tag := 65536 }, { goodCmd with plen := 65536 }, { goodCmd with flags := 65536 },
     { goodCmd with session := 2 ^ 32 }, { goodCmd with rsv := 2 ^ 32 }, { goodCmd with params := [256] }, { goodCmd with params := [1, 2] },
     { goodCmd with origin := .ring 512 }, { goodCmd with origin := .vdm 512 }, { goodCmd with origin := .bay 2048 }].all
      (fun c => !(Instr.pidSet c).wf) = true := by decide

theorem test_illFormed_message :
    [{ goodMsg with kind := 16 }, { goodMsg with dpid := 4096 }, { goodMsg with spid := 4096 }, { goodMsg with dlen := 65536 },
     { goodMsg with ttl := 256 }, { goodMsg with service := 8 }, { goodMsg with group := 4096 }].all
      (fun m => !(Instr.galleryAck m).wf && !(Instr.mgtBroadcast (.central m)).wf) = true := by decide

theorem test_illFormed_packets_and_rings :
    [Instr.mctpCommandReceive .i3c [[256]] {}, .mctpCommandReceive (.vdm 512) [] {}, .cmdDoorbell 512 0,
     .cmdDoorbell 0 65536, .rplConsWrite 0 65536, .ringEnable 512 0, .ringStop 0 (2 ^ 32), .ringCommandFetch 512 [] {},
     .ringCommandFetch 0 [256] {}, .atEvrConsWrite 65536, .atIntStatusWrite (2 ^ 32)].all (fun i => !i.wf) = true := by
  decide

theorem test_illFormed_registers :
    [Instr.scLeafCfgWrite 8 0 0, .scLeafCfgWrite 0 4096 0, .scLeafCfgWrite 0 0 (2 ^ 32), .nwChBoardWrite 32 0 0,
     .nwChBoardWrite 0 2 0, .nwChAssocWrite 0 (2 ^ 32), .rcCounterRead 2560 0, .registerWrite 0 0 0 16,
     .registerWrite 0 (2 ^ 32) 0 15].all (fun i => !i.wf) = true := by decide

theorem test_illFormed_bays :
    [Instr.geCrDb 2048 0, .geCrDb 0 (2 ^ 32), .alTxDb .manager 2048, .alRxBufRead .manager 0 16, .alStatusWrite .bay 0 (2 ^ 32),
     .fifoPointerReset (.toManager 2048), .fifoPointerReset (.cmdRing 512 0), .fifoPointerReset (.evRing 65536 0),
     .functionLevelReset 2048, .pageResponse 0 (2 ^ 52) true, .lockInterfaceRequest 0 256, .bmeSet (.bay 2048),
     .bmeClear (.pf0 512), .vfEnableClear 0 65536, .configurationRequest (.bay 2048) .read,
     .configurationRequest (.pf0 0) (.maxPayload 64), .configurationRequest (.pf0 0) (.mctpUnit 513),
     .configurationRequest (.pf0 0) (.hdm 32 0 0 .own), .configurationRequest (.pf0 0) (.margin 0 16 0 0)].all (fun i => !i.wf) = true := by decide

theorem test_illFormed_boot :
    [Instr.porNRise { pmap := 16 } false, .porNRise { mgrHall := 8 } false, .railOutOfRange 4, .perstNAssert 64,
     .mezzException 4, .mezzanineImageVerified 2 none, .mezzanineImageVerified 0 (some [256]), .quadPllLockLoss 128, .hallLinkError 8, .uncorrectableMemoryError (.hallMem 8),
     .uncorrectableMemoryError (.cellData 512 0), .thermalSample 10 0].all (fun i => !i.wf) = true := by decide

theorem test_illFormed_links :
    [Instr.elasticSlip 512, .alignmentFound 0 [[4]] 0 [], .alignmentFound 0 [] 0 [25], .keyNext 0 65536, .keyxMgtMessage 0 [256] {}, .flitRxKeyx 0 [] { x := 2 ^ 384 },
     .ideKeyProg 0 16 0 0 0 (List.replicate 6 0), .ideKeyProg 0 0 2 0 0 (List.replicate 6 0), .ideKeyProg 0 0 0 0 0 [],
     .ideKeyProg 0 0 0 256 0 (List.replicate 6 0), .flitRxTrain 0 [] [16], .prbsCheckerLock 0 [4], .prbsLockLoss 512 [], .partnerPowerRequest 0 true 17, .unbindDrainExpiry 0 65536, .eyeScanEnd 0 512 {} {} {},
     .tagQuarantineRelease 0 65536, .flitRxIdle 512 [], .flitRxData 0 (List.replicate 17 [])].all (fun i => !i.wf) = true := by decide

theorem test_illFormed_switch :
    [Instr.deferHeadRelease 8 0, .deferHeadRelease 0 8192, .fenceRemoval 0 4096, .pauseDrained 64 0, .pauseDrained 0 256,
     .multicastCopyCross 0 8, .mgtBroadcast (.port 512), .mgtBroadcastCopyLeave 0 4 0 {}].all (fun i => !i.wf) = true := by
  decide

theorem test_illFormed_sessions_and_garnet :
    [Instr.keyExchange (.officer .i3c 4) 1 10, .keyExchange (.bay 2048) 1 10, .keyExchange (.link 512) 1 10,
     .keyExchange .enrol (2 ^ 32) 10, .keyExchange .enrol 1 256, .officerEnrol .i3c 1 4 false 0,
     .officerEnrol .i3c 1 0 false
       39402006196394479212279040100143613805079739270465446667948293404245721771497210611414266254884915640806627990306816, .debugToken 4 true, .oldEpochDrained 132, .eventDrain 8, .telemetryPeriod 16,
     .selfTestFailure 256, .contextWriteBackDone (2 ^ 20), .rtoExpiry 0 (2 ^ 24) 0, .mrDeregisterDone (2 ^ 32)].all
      (fun i => !i.wf) = true := by decide

theorem test_illFormed_power :
    [Instr.pgAssert 32, .stairwellAdmission 2, .feedBad 2 0, .feedGood 0 2048].all (fun i => !i.wf) = true := by decide

/-! ## Single steps against the figures of the manual -/

/-- No row of the opcode table has bits, so no word spells a command. -/
theorem test_no_word_spells_a_command : decodeTableWord 32 0 = none ∧ State.withFetchWord State.reset 32 0 = State.reset := by
  decide +kernel

/-- R263: the CRC-16 of the nine ASCII bytes is 0x31C3. -/
theorem test_crc16_of_nine_digits : crc16 [0x31, 0x32, 0x33, 0x34, 0x35, 0x36, 0x37, 0x38, 0x39] = 0x31C3 := by decide +kernel

/-- R136: the CRC-64 of the nine ASCII bytes is 0x995D_C9BB_DF19_39FA. -/
theorem test_crc64_of_nine_digits :
    crc64 [0x31, 0x32, 0x33, 0x34, 0x35, 0x36, 0x37, 0x38, 0x39] = 0x995DC9BBDF1939FA := by decide +kernel

/-- R136, R137: the CRC and the parity of a flit of TYPE 3 with no payload, computed outside the model. -/
theorem test_coded_flit :
    (codedFlit 3 []).drop 248 = le 8 3696101883383203749 ++ le 16 270128222832442278010973233014093669560 := by decide +kernel

/-- SHA-384 of the three letters abc, as FIPS 180-4 gives it. -/
theorem test_sha384_of_abc :
    Crypto.ofBE (Crypto.sha384 [0x61, 0x62, 0x63])
      = 0xcb00753f45a35e8bb5a03d699ac65007272c32ab0eded1631a8b605a43ff5bed8086072ba1e7cc2358baeca134c825a7 := by decide +kernel

/-- AES-256 on the example of FIPS 197, appendix C.3. -/
theorem test_aes256_example :
    Crypto.ofBE (Crypto.aesBlock (Crypto.roundKeys (List.range 32)) ((List.range 16).map fun k => 17 * k))
      = 0x8ea2b7ca516745bfeafc49904b496089 := by decide +kernel

/-- The outputs of a step's next state. -/
def outOf (o : Host.Outcome State Fault Refusal) : List Output :=
  match o with
  | .next t => t.out
  | _ => []

/-- The worked example of 02: SPAN_TIMERS 100, 400, 1,000 answers OK_CLAMPED with the records (1, 100, 64), (3, 1,000, 1,600). -/
theorem test_span_timers_worked_example :
    (outOf (exec (.spanTimers (i3c [136, 0, 100, 0, 0x90, 1, 0, 0, 0xE8, 3, 0, 0])) (one 136 (sp .up)))).map
        (fun o => match o with | .reply r _ _ => (r.status, r.clamps) | _ => (99, []))
      = [(1, [{ field := 1, requested := 100, applied := 64 }, { field := 3, requested := 1000, applied := 1600 }])] := by
  decide +kernel

/-- R81: PORT_RELEASE on a port that is not in AMBER is INVALID_STATE. -/
theorem test_port_release_outside_amber :
    (outOf (exec (.portRelease (portCmd 16 [])) (one 16 (sp .up)))).map
        (fun o => match o with | .reply r _ _ => r.status | _ => 99) = [0x20] := by decide +kernel

end Sys2Proof.Tests
end

/-! ## The doorbell of the command ring (R51) -/

namespace Sys2Proof.Machine

open Sys2Proof

/-- A free-running difference modulo 65,536 stays in 16 bits. -/
theorem ringOcc_lt (prod cons : Nat) : ringOcc prod cons < 65536 := Nat.mod_lt _ (by decide)

/-- The occupancy is what the consumer index lies behind the producer index, across the wrap too. -/
theorem add_ringOcc_mod {prod cons : Nat} (hp : prod < 65536) (hc : cons < 65536) :
    (cons + ringOcc prod cons) % 65536 = prod := by
  unfold ringOcc; omega

/-- CMD_DOORBELL on a ring its function reaches is the write of CM_CMD_PROD. -/
theorem exec_cmdDoorbell_reached {s : State} {n : Nat} (v : Nat) (hl : live s = true) (hr : pf0Reach s n = true) :
    exec (.cmdDoorbell n v) s = .next (writeCmdProd n v s) := by
  have hx : exec (.cmdDoorbell n v) s = execCmdDoorbell n v s := rfl
  rw [hx, execCmdDoorbell, act_live hl, if_pos hr]

/-- A producer index that keeps the occupancy within the ring's size is taken. -/
theorem writeCmdProd_of_fits {s : State} {n v : Nat} {q : Port} (hq : getPort s n = some q)
    (h : ringOcc (v % 65536) q.std.rings.cmdCons ≤ 2 ^ ringLog q.std.rings) :
    writeCmdProd n v s = setRings n (fun r => { r with cmdProd := v % 65536 }) s := by
  simp only [writeCmdProd, hq, if_neg (Nat.not_lt.mpr h)]

/-- A producer index that would overfill the ring is ignored, and its source fires. -/
theorem writeCmdProd_of_overfills {s : State} {n v : Nat} {q : Port} (hq : getPort s n = some q)
    (h : 2 ^ ringLog q.std.rings < ringOcc (v % 65536) q.std.rings.cmdCons) :
    writeCmdProd n v s = fire (srcCentral 9) 1 n noActor s := by
  simp only [writeCmdProd, hq, if_pos h]

@[simp] theorem getPort_setRings_self (s : State) (p : Nat) (f : Rings → Rings) :
    getPort (setRings p f s) p = (getPort s p).map fun q => { q with std := { q.std with rings := f q.std.rings } } := by
  simp [setRings]

@[simp] theorem setRings_atr (p : Nat) (f : Rings → Rings) (s : State) : (setRings p f s).atr = s.atr := rfl

/-- A firing that Atrium collects leaves its source pending, new or merged (R464, R465). -/
theorem fire_pend_isSome {s : State} (src cause object actor : Nat) (hb : s.boot.atr = true) (hs : s.atr.stopped = false) :
    (tget (fire src cause object actor s).atr.pend src).isSome = true := by
  simp only [fire, hs, hb, Bool.not_true, Bool.or_self, Bool.false_eq_true, if_false, setAtr]
  cases tget s.atr.pend src <;> simp

/-- Settles O10: the write either takes the index or fires central source 9, by the occupancy it would leave. -/
theorem ringDoorbellsFollowR51 : Obligations.RingDoorbellsFollowR51 := by
  unfold Obligations.RingDoorbellsFollowR51
  refine ⟨fun prod cons hp hc => ⟨ringOcc_lt prod cons, add_ringOcc_mod hp hc⟩, by decide, ?_⟩
  intro s n v q hl hr hq hv
  have hmod : v % 65536 = v := Nat.mod_eq_of_lt hv
  rw [exec_cmdDoorbell_reached v hl hr]
  constructor
  · intro hfits
    refine ⟨_, rfl, ?_⟩
    rw [writeCmdProd_of_fits hq (by rwa [hmod])]
    simp [hq, hmod]
  · intro hover
    refine ⟨_, rfl, ?_⟩
    rw [writeCmdProd_of_overfills hq (by rwa [hmod])]
    obtain ⟨-, -, hatr, -⟩ := live_boot hl
    exact ⟨fire_ports .., rfl, fire_pend_isSome _ _ _ _ hatr⟩

/-! ## PORT_DOWN on a port that went DOWN in the same cycle (R569) -/

theorem taken_iff {sp : OpSpec} {c : Cmd} {s : State} {p : Params} :
    taken sp c s p = true ↔ passes sp c s = some p ∧ bit c.flags 0 = false := by
  simp [taken]

@[simp] theorem closed_ops (sp : OpSpec) (c : Cmd) (s t : State) : (closed sp c s t).ops = t.ops := by
  simp [closed, closeEnded, noteApproved]

/-- A command answered at once adds no operation to those outstanding; one that begins an operation adds its own. -/
theorem opened_ne_replied (sp : OpSpec) (c : Cmd) (s : State) (k : OpKind) (data : Bytes) (t : State) :
    opened sp c s k [] [] t ≠ replied sp c s [] data t := by
  intro h
  have hops := congrArg (·.ops.length) h
  simp [opened, replied] at hops

/-- A DOWN by command leaves a port that is DOWN already as it is, where no wired AMBER reaction waits for the port. -/
theorem meetDown_of_down {s : State} {n : Nat} {q : Port} (hq : getPort s n = some q) (hst : q.st = .down)
    (hw : amberWired s n = []) : meetDown n s = (s, false) := by
  simp [meetDown, lossNow, hw, hq, hst]

/-- The port went DOWN in this very cycle, and the flush of that DOWN runs: a PORT_DOWN joins it (R569). -/
def joinsDown (s : State) (q : Port) : Bool := q.st == .down && (cameFrom s q).isSome && q.flush.any (·.active)

theorem joinsDown_iff {s : State} {q : Port} :
    joinsDown s q = true ↔ q.st = .down ∧ (∃ x, cameFrom s q = some x) ∧ ∃ f, q.flush = some f ∧ f.active = true := by
  cases hf : q.flush <;> simp [joinsDown, Option.isSome_iff_exists, hf, and_assoc]

/-- A PORT_DOWN that joins a DOWN of this cycle waits for the flush that runs. -/
theorem bodyPortDown_of_joins {s : State} {p : Params} (c : Cmd) {n : Nat} {q : Port} (hr : raw p 0 2 = some n)
    (hq : getPort s n = some q) (hj : joinsDown s q = true) :
    (bodyPortDown p c s).run [] = .ok (((meetDown n s).1, .later (.portDown n) []), []) := by
  have hu : inUse s n = true := by simp [inUse, hq]
  obtain ⟨hst, ⟨x, hcame⟩, f, hf, hact⟩ := joinsDown_iff.mp hj
  simp [bodyPortDown, portF_ok hr hu, thePort_ok hq, hst, hcame, hf, hact]
  rfl

/-- Such a PORT_DOWN begins an operation: it is not answered at once, and nothing else changes. -/
theorem exec_portDown_of_joins {s : State} {c : Cmd} {p : Params} {n : Nat} {q : Port}
    (ht : taken specPortDown c s p = true) (hr : raw p 0 2 = some n) (hq : getPort (entered c s) n = some q)
    (hj : joinsDown (entered c s) q = true) (hw : amberWired (entered c s) n = []) :
    exec (.portDown c) s = .next (opened specPortDown c s (.portDown n) [] [] (entered c s)) := by
  obtain ⟨hp, hflag⟩ := taken_iff.mp ht
  obtain ⟨hst, -⟩ := joinsDown_iff.mp hj
  have hb := bodyPortDown_of_joins c hr hq hj
  rw [meetDown_of_down hq hst hw] at hb
  exact command_later hp hflag hb

/-- A running device with one port: H port 0, UP, its PERST_N high. -/
def hostPort0Up : State :=
  { boot := { por := false, pin := false, pll := true, atr := true, bedrock := true, mezz := .running, mgr := some 0, perst := [0] },
    sec := { testsOk := true, identity := true, drbg := true },
    ports := [(0, { typ := .h, width := 16, widthNow := 16, st := .up, rate := 6, std := { bme := true } })] }

/-- The same device once PERST_N of H port 0 has fallen: the port is in DOWN and its flush runs (R527). -/
def hostPort0Fell : State :=
  setStd 0 (fun d => { d with perstDown := true, hotRst := false })
    (hostDown 0 (setBoot (fun b => { b with perst := [] }) hostPort0Up))

/-- PORT_DOWN of port 0, over I3C without session. -/
def portDown0 : Cmd := { origin := .i3c, plen := 2, carrier := 18, params := [0, 0] }

/-- The refuting state is one the model's own step reaches from a port in service. -/
theorem exec_perstNAssert_hostPort0Up : exec (.perstNAssert 0) hostPort0Up = .next hostPort0Fell := by rfl

theorem taken_portDown0_hostPort0Fell : taken specPortDown portDown0 hostPort0Fell { bytes := [0, 0] } = true := by decide +kernel

theorem amberWired_hostPort0Fell : amberWired (entered portDown0 hostPort0Fell) 0 = [] := by decide +kernel

theorem port0_joinsDown_hostPort0Fell :
    ∃ q, getPort (entered portDown0 hostPort0Fell) 0 = some q ∧ joinsDown (entered portDown0 hostPort0Fell) q = true :=
  ⟨_, rfl, by decide +kernel⟩

/-- Refutes O14: its PORT_DOWN clause. H port 0 is UP, PERST_N falls, and PORT_DOWN comes in the same cycle: the port is in DOWN
already, but the command joins that DOWN (R569) and replies with the counts of the flush once it has ended, where the clause
asks for an immediate reply with 32 zero bytes. -/
theorem not_portCommandsInOtherStates : ¬ Obligations.PortCommandsInOtherStates := by
  unfold Obligations.PortCommandsInOtherStates
  intro h
  obtain ⟨q, hq, hj⟩ := port0_joinsDown_hostPort0Fell
  have hraw : raw { bytes := [0, 0] } 0 2 = some 0 := by decide
  obtain ⟨hst, -⟩ := joinsDown_iff.mp hj
  obtain ⟨-, -, -, hdown, -⟩ := h hostPort0Fell portDown0 { bytes := [0, 0] } 0 q hraw hq
  have hnow := hdown taken_portDown0_hostPort0Fell (.inl hst)
  have hlater := exec_portDown_of_joins taken_portDown0_hostPort0Fell hraw hq hj amberWired_hostPort0Fell
  exact opened_ne_replied _ _ _ _ _ _ (Host.Outcome.next.inj (hlater.symm.trans hnow))

end Sys2Proof.Machine

/-! ## EYE_SCAN and the lanes of its port (R124) -/

namespace Sys2Proof.Machine

open Sys2Proof

theorem getLane_eq_of_lanes_eq {s t : State} (h : t.lanes = s.lanes) (k : Nat) : getLane t k = getLane s k := by
  simp [getLane, h]

theorem getLane_setLane_ne {l k : Nat} (f : Lane → Lane) (s : State) (h : k ≠ l) : getLane (setLane l f s) k = getLane s k := by
  simp [getLane, setLane, tgetD, tget_tset_ne _ _ h.symm]

@[simp] theorem startL1Exit_lanes (p : Nat) (s : State) : (startL1Exit p s).lanes = s.lanes := by
  unfold startL1Exit
  split
  · split <;> rfl
  · rfl

@[simp] theorem entered_lanes (c : Cmd) (s : State) : (entered c s).lanes = s.lanes := by rw [entered_eq]

@[simp] theorem closed_lanes (sp : OpSpec) (c : Cmd) (s t : State) : (closed sp c s t).lanes = t.lanes := by
  simp [closed, closeEnded, noteApproved]

@[simp] theorem opened_lanes (sp : OpSpec) (c : Cmd) (s : State) (k : OpKind) (clamps : List Clamp) (data : Bytes) (t : State) :
    (opened sp c s k clamps data t).lanes = t.lanes := by simp [opened]

/-- The fields of an EYE_SCAN in their ranges: PORT `n` in use with record `q`, LANE `l` of it, DWELL `d`, EYE `e`, THRESHOLD `h`. -/
structure EyeScanInRange (s : State) (p : Params) (n l d e h : Nat) (q : Port) : Prop where
  port : raw p 0 2 = some n
  record : getPort s n = some q
  lane : raw p 2 2 = some l
  lane_lt : l < q.width
  dwell : (raw p 4 2).getD 10 = d
  dwell_pos : 1 ≤ d
  dwell_le : d ≤ 1000
  eye : (raw p 6 1).getD 0 = e
  eye_le : e ≤ 3
  threshold : (raw p 7 1).getD 6 = h
  threshold_ge : 3 ≤ h
  threshold_le : h ≤ 12

/-- The scan that EYE_SCAN starts: on a port in L1 its DWELL waits for the exit (R221). -/
def scanBegun (s : State) (q : Port) (d e h : Nat) : Scan :=
  { at_ := if q.std.l1 then none else some s.dc, dwell := d, eye := e, thr := h }

/-- The state with the scan begun on a lane of the port. -/
def withScan (s : State) (n l : Nat) (x : Scan) : State := startL1Exit n (setLane (n + l) (fun y => { y with scan := some x }) s)

theorem getLane_withScan_self (s : State) (n l : Nat) (x : Scan) : (getLane (withScan s n l x) (n + l)).scan = some x := by
  rw [withScan, getLane_eq_of_lanes_eq (startL1Exit_lanes ..), getLane_setLane_self]

theorem getLane_withScan_ne (s : State) {n l k : Nat} (x : Scan) (h : k ≠ n + l) : getLane (withScan s n l x) k = getLane s k := by
  rw [withScan, getLane_eq_of_lanes_eq (startL1Exit_lanes ..), getLane_setLane_ne _ _ h]

section
variable {s : State} {p : Params} {n l d e h : Nat} {q : Port} (c : Cmd)

/-- Once its fields are in range, EYE_SCAN makes the two checks of R124 and starts the scan. -/
theorem bodyEyeScan_of_inRange (hr : EyeScanInRange s p n l d e h q) :
    bodyEyeScan p c s = (do
      rejectIf (q.st != .up) stInvalidState
      rejectIf (getLane s (n + l)).scan.isSome stBusy
      pure (withScan s n l (scanBegun s q d e h), .later (.eyeScan n l) [])) := by
  have hu : inUse s n = true := by simp [inUse, hr.record]
  have hl : decide (l < q.width) = true := decide_eq_true hr.lane_lt
  have he : decide (e ≤ 3) = true := decide_eq_true hr.eye_le
  simp only [bodyEyeScan, portF_ok hr.port hu, thePort_ok hr.record, idF_ok (ok := (· < q.width)) 1 hr.lane hl,
    rangeF_ok 2 hr.dwell hr.dwell_pos hr.dwell_le, elseF_ok (ok := (· ≤ 3)) 3 hr.eye he,
    rangeF_ok 4 hr.threshold hr.threshold_ge hr.threshold_le, pure_bind]
  rfl

theorem bodyEyeScan_not_up (hr : EyeScanInRange s p n l d e h q) (hst : q.st ≠ .up) :
    (bodyEyeScan p c s).run [] = .error { status := stInvalidState } := by
  have hne : (q.st != .up) = true := bne_iff_ne.mpr hst
  rw [bodyEyeScan_of_inRange c hr, hne]
  rfl

theorem bodyEyeScan_scanned (hr : EyeScanInRange s p n l d e h q) (hst : q.st = .up)
    (hscan : (getLane s (n + l)).scan.isSome = true) : (bodyEyeScan p c s).run [] = .error { status := stBusy } := by
  have hup : (q.st != .up) = false := by simp [hst]
  rw [bodyEyeScan_of_inRange c hr, hup, hscan]
  rfl

theorem bodyEyeScan_free (hr : EyeScanInRange s p n l d e h q) (hst : q.st = .up)
    (hscan : (getLane s (n + l)).scan = none) :
    (bodyEyeScan p c s).run [] = .ok ((withScan s n l (scanBegun s q d e h), .later (.eyeScan n l) []), []) := by
  have hup : (q.st != .up) = false := by simp [hst]
  have hfree : (getLane s (n + l)).scan.isSome = false := by simp [hscan]
  rw [bodyEyeScan_of_inRange c hr, rejectIf_ok _ hup, rejectIf_ok _ hfree]
  rfl

end

/-- Settles O11: with its fields in range, the two checks of R124 decide the answer, and the start of a scan writes its own lane
alone. FIELD 0xFFFF of both rejections rests on log 41, LANE below the configured width on log 81. -/
theorem eyeScanNeedsUpAndAFreeLane : Obligations.EyeScanNeedsUpAndAFreeLane := by
  unfold Obligations.EyeScanNeedsUpAndAFreeLane
  intro s c p n l d e h q ht hport hq hlane hl hd hd1 hd2 he he3 hh hh3 hh12
  obtain ⟨hp, hflag⟩ := taken_iff.mp ht
  have hr : EyeScanInRange (entered c s) p n l d e h q := ⟨hport, hq, hlane, hl, hd, hd1, hd2, he, he3, hh, hh3, hh12⟩
  have hentered (k : Nat) : getLane (entered c s) k = getLane s k := getLane_eq_of_lanes_eq (entered_lanes c s) k
  have hexec : exec (.eyeScan c) s = command specEyeScan c s := rfl
  rw [hexec, ← hentered (n + l)]
  refine ⟨fun hst => ?_, fun hst hscan => ?_, fun hst hscan => ?_⟩
  · exact command_error hp (bodyEyeScan_not_up c hr hst)
  · exact command_error hp (bodyEyeScan_scanned c hr hst hscan)
  · refine ⟨_, command_later hp hflag (bodyEyeScan_free c hr hst hscan), ?_, fun k hk => ?_⟩
    · simp [getLane_eq_of_lanes_eq (opened_lanes ..), getLane_withScan_self]
    · rw [getLane_eq_of_lanes_eq (opened_lanes ..), getLane_withScan_ne _ _ hk, hentered]

end Sys2Proof.Machine

/-! ## The hash of K (R262, R263) -/

namespace Sys2Proof.Machine

open Sys2Proof

/-- A bit-serial CRC-16 of polynomial 0x1021: the register takes one bit of the data at its most significant end. -/
def crc16Serial (r d : Nat) : Nat := (2 * r % 65536) ^^^ (if (r / 32768 + d) % 2 = 1 then 0x1021 else 0)

/-- The bits of a byte, most significant first (R263). -/
def bitsMsbFirst (b : Nat) : List Nat := (List.range 8).map fun k => b / 2 ^ (7 - k) % 2

theorem crc16Bit_eq (r : Nat) : crc16Bit r = (2 * r % 65536) ^^^ (if r / 32768 % 2 = 1 then 0x1021 else 0) := by
  simp only [crc16Bit, Nat.reducePow]
  split <;> simp

theorem crc16Bit_lt (r : Nat) : crc16Bit r < 65536 := by
  rw [crc16Bit_eq]
  exact Nat.xor_lt_two_pow (n := 16) (Nat.mod_lt _ (by decide)) (by split <;> decide)

theorem two_mul_xor (r x : Nat) : 2 * (r ^^^ x) = (2 * r) ^^^ (2 * x) := by
  simpa [Nat.shiftLeft_eq, Nat.mul_comm] using Nat.shiftLeft_xor_distrib (i := 1) (a := r) (b := x)

/-- Data already in the register and data still to come are the same: shifting the register with `x` xored into it takes in the
top bit of `x` and leaves the rest of `x` one place higher. -/
theorem crc16Bit_xor (r x : Nat) : crc16Bit (r ^^^ x) = crc16Serial r (x / 32768 % 2) ^^^ (2 * x % 65536) := by
  have hshift : 2 * (r ^^^ x) % 65536 = (2 * r % 65536) ^^^ (2 * x % 65536) := by
    rw [two_mul_xor]; exact Nat.xor_mod_two_pow (n := 16)
  have htop : (r ^^^ x) / 32768 % 2 = (r / 32768 + x / 32768 % 2) % 2 := by
    have hdiv : (r ^^^ x) / 32768 = (r / 32768) ^^^ (x / 32768) := Nat.xor_div_two_pow (n := 15)
    rw [hdiv, Nat.xor_mod_two_eq, Nat.add_mod_mod]
  rw [crc16Bit_eq, crc16Serial, hshift, htop, Nat.xor_right_comm]

theorem topBit_two_pow_mul_mod {n : Nat} (x : Nat) (hn : n ≤ 15) : 2 ^ n * x % 65536 / 32768 % 2 = x / 2 ^ (15 - n) % 2 := by
  have hsplit : 32768 = 2 ^ n * 2 ^ (15 - n) := by rw [← pow_add, Nat.add_sub_cancel' hn]; rfl
  have htop : 2 ^ n * x % (32768 * 2) / 32768 = 2 ^ n * x / 32768 % 2 := Nat.mod_mul_right_div_self ..
  rw [htop, Nat.mod_mod, hsplit, Nat.mul_div_mul_left _ _ (Nat.two_pow_pos n)]

/-- `n` shifts of the register with the 16 bits of `x` xored into it take in the first `n` bits of `x`. -/
theorem crc16Bit_iterate_xor (r x : Nat) {n : Nat} (hn : n ≤ 16) :
    crc16Bit^[n] (r ^^^ (x % 65536))
      = ((List.range n).map fun k => x / 2 ^ (15 - k) % 2).foldl crc16Serial r ^^^ (2 ^ n * x % 65536) := by
  induction n with
  | zero => simp
  | succ n ih =>
    have hrest : 2 * (2 ^ n * x % 65536) % 65536 = 2 ^ (n + 1) * x % 65536 := by
      rw [Nat.mul_mod_mod, ← Nat.mul_assoc, ← Nat.pow_succ']
    rw [Function.iterate_succ_apply', ih (Nat.le_of_succ_le hn), crc16Bit_xor, hrest,
      topBit_two_pow_mul_mod x (Nat.le_of_succ_le_succ hn), List.range_succ, List.map_append, List.foldl_append]
    rfl

theorem crc16Byte_eq_foldl (r b : Nat) : crc16Byte r b = (bitsMsbFirst b).foldl crc16Serial r := by
  have hbits : ((List.range 8).map fun k => b * 256 / 2 ^ (15 - k) % 2) = bitsMsbFirst b := by
    refine List.map_congr_left fun k hk => ?_
    have hk8 : k < 8 := List.mem_range.mp hk
    have hpow : 2 ^ (15 - k) = 2 ^ (7 - k) * 256 := by
      rw [show 15 - k = 7 - k + 8 by omega, pow_add]
      rfl
    rw [hpow, Nat.mul_div_mul_right _ _ (by decide)]
  calc crc16Byte r b
      = crc16Bit^[8] (r ^^^ (b * 256 % 65536)) := by rw [show b * 256 % 65536 = b % 256 * 256 by omega]; rfl
    _ = (bitsMsbFirst b).foldl crc16Serial r ^^^ (2 ^ 8 * (b * 256) % 65536) := by
        rw [crc16Bit_iterate_xor r (b * 256) (by decide), hbits]
    _ = (bitsMsbFirst b).foldl crc16Serial r := by rw [show 2 ^ 8 * (b * 256) % 65536 = 0 by omega, Nat.xor_zero]

theorem crc16_eq_foldl_bits (bs : Bytes) : crc16 bs = (bs.flatMap bitsMsbFirst).foldl crc16Serial 0 := by
  rw [List.foldl_flatMap, crc16]
  congr 1
  funext r b
  exact crc16Byte_eq_foldl r b

theorem crc16_lt (bs : Bytes) : crc16 bs < 65536 :=
  List.foldlRecOn (motive := (· < 65536)) bs crc16Byte (by decide) fun _ _ _ _ => crc16Bit_lt _

theorem le_eq_map_range (n v : Nat) : le n v = (List.range n).map fun k => v / 256 ^ k % 256 := by
  induction n generalizing v with
  | zero => rfl
  | succ n ih =>
    simp [le, ih, List.range_succ_eq_map, Nat.div_div_eq_div_mul, Nat.pow_succ', Function.comp_def]

/-- The bytes of K from bits 63:56 to bits 7:0 (R263). -/
theorem reverse_le_eight (v : Nat) : (le 8 v).reverse = (List.range 8).map fun k => v / 2 ^ (56 - 8 * k) % 256 := by
  have hrev : (List.range 8).reverse = (List.range 8).map (7 - ·) := by decide
  rw [le_eq_map_range, ← List.map_reverse, hrev, List.map_map]
  refine List.map_congr_left fun k _ => ?_
  have hpow : 256 ^ (7 - k) = 2 ^ (56 - 8 * k) := by
    rw [show 56 - 8 * k = 8 * (7 - k) by omega, pow_mul]
    rfl
  rw [Function.comp_apply, hpow]

/-- Settles O8: each byte of the model's CRC is eight steps of the bit-serial one, as `crc16Bit_xor` lets the byte be taken in
at once or bit by bit; R262 gives the bytes of K. -/
theorem theHashIsTheCrc16OfR263 : Obligations.TheHashIsTheCrc16OfR263 := by
  unfold Obligations.TheHashIsTheCrc16OfR263
  refine ⟨crc16_eq_foldl_bits, by decide +kernel, fun m => ?_, crc16_lt⟩
  rw [hashIdx, hashBytes, reverse_le_eight]
  rfl

end Sys2Proof.Machine

/-! ## The registers of a channel's board (R482, R508) -/

namespace Sys2Proof.Machine

open Sys2Proof

theorem chanOpen_iff {c : Chan} : chanOpen c = true ↔ c.st = .off ∨ c.st = .lockout ∨ c.st = .short := by
  simp [chanOpen, or_assoc]

theorem getChan_setChan_ne {c k : Nat} (f : Chan → Chan) (s : State) (h : k ≠ c) : getChan (setChan c f s) k = getChan s k := by
  simp [getChan, tgetD, tget_tset_ne _ _ h.symm]

@[simp] theorem getChan_clockTo (d : Nat) (s : State) (k : Nat) : getChan (clockTo d s) k = getChan s k := by simp [getChan]

@[simp] theorem mgrReach_clockTo (d : Nat) (s : State) : mgrReach (clockTo d s) = mgrReach s := by
  have hport : pf0Reach (clockTo d s) = pf0Reach s := by
    funext p
    simp [pf0Reach, isType, portSt, getPort]
  simp [mgrReach, live, hport]

/-- An event of a channel is taken up in a CLK_P cycle once PLL_ROOT has locked (R517, R522). -/
theorem chanAct_of_locked {s : State} {ch : Nat} (hpor : s.boot.por = false) (hpll : s.boot.pll = true) (hch : ch < 32)
    (f : State → State) : chanAct ch s f = .next (f (clockTo (clkP s.dc) s)) := by
  simp [chanAct, nwAct, hpor, hpll, hch]

theorem exec_nwChBoardWrite_reached {s : State} {ch reg : Nat} (v : Nat) (hpor : s.boot.por = false) (hpll : s.boot.pll = true)
    (hm : mgrReach s = true) (hch : ch < 32) (hreg : reg < 2) :
    exec (.nwChBoardWrite ch reg v) s = .next (writeBoard ch reg v (clockTo (clkP s.dc) s)) := by
  have hx : exec (.nwChBoardWrite ch reg v) s = execNwChBoardWrite ch reg v s := rfl
  simp [hx, execNwChBoardWrite, chanAct_of_locked hpor hpll hch, hm, hreg]

theorem exec_nwChAssocWrite_reached {s : State} {ch : Nat} (v : Nat) (hpor : s.boot.por = false) (hpll : s.boot.pll = true)
    (hm : mgrReach s = true) (hch : ch < 32) :
    exec (.nwChAssocWrite ch v) s = .next (writeAssoc ch v (clockTo (clkP s.dc) s)) := by
  have hx : exec (.nwChAssocWrite ch v) s = execNwChAssocWrite ch v s := rfl
  simp [hx, execNwChAssocWrite, chanAct_of_locked hpor hpll hch, hm]

/-- A write `f` to a register of channel `ch` under the rule of R482. -/
def writeAtRest (ch : Nat) (f : Chan → Chan) (s : State) : State := setChan ch (fun c => if !chanOpen c then c else f c) s

section
variable {s : State} {ch : Nat} (f : Chan → Chan)

theorem getChan_writeAtRest_of_open (h : chanOpen (getChan s ch) = true) :
    getChan (writeAtRest ch f s) ch = f (getChan s ch) := by simp [writeAtRest, h]

theorem getChan_writeAtRest_of_not_open (h : ¬chanOpen (getChan s ch) = true) :
    getChan (writeAtRest ch f s) ch = getChan s ch := by simp [writeAtRest, h]

theorem getChan_writeAtRest_ne {k : Nat} (h : k ≠ ch) : getChan (writeAtRest ch f s) k = getChan s k :=
  getChan_setChan_ne _ _ h

end

theorem writeBoard_eq_writeAtRest_board (ch v : Nat) (s : State) :
    writeBoard ch 0 v s = writeAtRest ch (fun c => { c with board := BitVec.ofNat 32 (v % 2 ^ 27) }) s := by
  simp [writeBoard, writeAtRest]

theorem writeBoard_eq_writeAtRest_therm (ch v : Nat) (s : State) :
    writeBoard ch 1 v s = writeAtRest ch (fun c => { c with therm := BitVec.ofNat 32 v }) s := by
  simp [writeBoard, writeAtRest]

/-- The write `v` of NW_CH_ASSOC of channel `ch` names a D port that is associated with another channel (R508). -/
def assocTaken (s : State) (ch v : Nat) : Bool :=
  bit v 31 && isType s .d (v % 512) && (List.range 32).any fun k =>
    k != ch && bit (getChan s k).assoc.toNat 31 && (getChan s k).assoc.toNat % 512 == v % 512

/-- What a write of NW_CH_ASSOC does to its channel at rest: PORT and VALID, or nothing where another channel has the port. -/
def withAssoc (s : State) (ch v : Nat) (c : Chan) : Chan :=
  if assocTaken s ch v then c else { c with assoc := BitVec.ofNat 32 (v % 512 + 2 ^ 31 * b2n (bit v 31)) }

theorem writeAssoc_eq_writeAtRest (ch v : Nat) (s : State) : writeAssoc ch v s = writeAtRest ch (withAssoc s ch v) s := by
  have hw : writeAssoc ch v s = setChan ch (fun c => if chanOpen c && !assocTaken s ch v then
      { c with assoc := BitVec.ofNat 32 (v % 512 + 2 ^ 31 * b2n (bit v 31)) } else c) s := rfl
  rw [hw, writeAtRest]
  congr 1
  funext c
  cases chanOpen c
  · rfl
  · cases htaken : assocTaken s ch v <;> simp [withAssoc, htaken]

theorem assocTaken_of_invalid (s : State) (ch : Nat) {v : Nat} (hv : bit v 31 = false) : assocTaken s ch v = false := by
  simp [assocTaken, hv]

theorem assocTaken_of_no_other {s : State} {ch : Nat} (v : Nat)
    (h : ∀ k, k < 32 → k ≠ ch → bit (getChan s k).assoc.toNat 31 = false) : assocTaken s ch v = false := by
  have hnone : ((List.range 32).any fun k =>
      k != ch && bit (getChan s k).assoc.toNat 31 && (getChan s k).assoc.toNat % 512 == v % 512) = false := by
    refine List.any_eq_false.mpr fun k hk => ?_
    by_cases hkc : k = ch
    · simp [hkc]
    · simp [h k (List.mem_range.mp hk) hkc]
  rw [assocTaken, hnone, Bool.and_false]

/-- VALID 0 frees the channel from its port, and is never refused. -/
theorem withAssoc_of_invalid (s : State) (ch : Nat) {v : Nat} (hv : bit v 31 = false) (c : Chan) :
    withAssoc s ch v c = { c with assoc := BitVec.ofNat 32 (v % 512) } := by
  simp [withAssoc, assocTaken_of_invalid s ch hv, hv, b2n]

/-- VALID 1 is taken where no other channel is associated. -/
theorem withAssoc_of_valid {s : State} {ch v : Nat} (hv : bit v 31 = true)
    (h : ∀ k, k < 32 → k ≠ ch → bit (getChan s k).assoc.toNat 31 = false) (c : Chan) :
    withAssoc s ch v c = { c with assoc := BitVec.ofNat 32 (v % 512 + 2 ^ 31) } := by
  simp [withAssoc, assocTaken_of_no_other v h, hv, b2n]

/-- Settles O12: each of the three writes is a write at rest (`writeAtRest`) on the state at the CLK_P cycle that takes it. -/
theorem boardRegistersAreWrittenAtRest : Obligations.BoardRegistersAreWrittenAtRest := by
  unfold Obligations.BoardRegistersAreWrittenAtRest
  intro s h v hpor hpll hm hh x rest
  have hopen : chanOpen (getChan (clockTo (clkP s.dc) s) h) = true ↔ rest := by rw [getChan_clockTo]; exact chanOpen_iff
  have held (f : Chan → Chan) (hn : ¬rest) : getChan (writeAtRest h f (clockTo (clkP s.dc) s)) h = x := by
    rw [getChan_writeAtRest_of_not_open f (mt hopen.mp hn), getChan_clockTo]
  have written (f : Chan → Chan) (hr : rest) : getChan (writeAtRest h f (clockTo (clkP s.dc) s)) h = f x := by
    rw [getChan_writeAtRest_of_open f (hopen.mpr hr), getChan_clockTo]
  have others (f : Chan → Chan) (k : Nat) (hk : k ≠ h) :
      getChan (writeAtRest h f (clockTo (clkP s.dc) s)) k = getChan s k := by
    rw [getChan_writeAtRest_ne f hk, getChan_clockTo]
  rw [exec_nwChBoardWrite_reached v hpor hpll hm hh (by decide), exec_nwChBoardWrite_reached v hpor hpll hm hh (by decide),
    exec_nwChAssocWrite_reached v hpor hpll hm hh, writeBoard_eq_writeAtRest_board, writeBoard_eq_writeAtRest_therm,
    writeAssoc_eq_writeAtRest]
  refine ⟨⟨_, rfl, held _, written _, others _⟩, ⟨_, rfl, held _, written _, others _⟩, ⟨_, rfl, held _, ?_, ?_, others _⟩⟩
  · intro hr hv
    rw [written _ hr, withAssoc_of_invalid _ _ hv]
  · intro hr hv hfree
    rw [written _ hr, withAssoc_of_valid hv (by simpa using hfree)]

end Sys2Proof.Machine

/-! ## The record in the VDD_AON store (R476, R516) -/

namespace Sys2Proof.Machine

open Sys2Proof

/-- What the VDD_AON store holds: FIRST_EVENT, the history, the two counts of AT_OVERFLOW and AT_BASALT (R476). -/
def storedRecord (a : Atrium) : Option Event × List Event × Nat × Nat × Option Nat :=
  (a.first, a.hist, a.ovHist, a.ovRing, a.basaltRec)

/-- A cold reset clears Atrium but for the record. -/
@[simp] theorem storedRecord_aonRecord (a : Atrium) : storedRecord (aonRecord a) = storedRecord a := rfl

/-- At power-on the store holds no valid record (R516). -/
theorem storedRecord_empty : storedRecord {} = (none, [], 0, 0, none) := rfl

@[simp] theorem coldState_atr (s : State) : (coldState s).atr = aonRecord s.atr := rfl

theorem storedRecord_coldCause (c : BitVec 7) (s : State) : storedRecord (coldCause c s).atr = storedRecord s.atr := by
  unfold coldCause
  split <;> simp

@[simp] theorem release_atr (s : State) : (release s).atr = s.atr := by
  unfold release
  split <;> rfl

theorem release_boot_of_free {s : State} (hpor : s.boot.por = true) (hpin : s.boot.pin = false) (hrails : s.boot.rails = []) :
    (release s).boot.por = false ∧ (release s).boot.cause = s.boot.causeNext := by
  simp [release, hpor, hpin, hrails]

/-- The state in which POR_N has risen and the straps are sampled, before the device leaves the reset (R518). -/
def sampled (st : Straps) (lost : Bool) (s : State) : State :=
  setBoot (fun b => { b with
    pin := false, straps := { st with pmap := st.pmap % 16, mgrHall := st.mgrHall % 8 },
    causeNext := if lost then b.causeNext ||| 0x41 else b.causeNext }) s

theorem exec_porNRise_of_low {s : State} (st : Straps) (lost : Bool) (hpin : s.boot.pin = true) :
    exec (.porNRise st lost) s
      = .next (release (if lost then setAtr (fun _ => {}) (sampled st lost s) else sampled st lost s)) := by
  have hx : exec (.porNRise st lost) s = execPorNRise st lost s := rfl
  simp [hx, execPorNRise, hpin, sampled]

theorem exec_porNRise_of_high {s : State} (st : Straps) (lost : Bool) (hpin : s.boot.pin = false) :
    exec (.porNRise st lost) s = .next s := by
  have hx : exec (.porNRise st lost) s = execPorNRise st lost s := rfl
  simp [hx, execPorNRise, hpin]

/-- A step whose next state holds the record of the state before it. -/
def KeepsRecord (i : Instr) (s : State) : Prop := ∃ t, exec i s = .next t ∧ storedRecord t.atr = storedRecord s.atr

/-- POR_N that rises with VDD_AON from below its range is a power-on (R516). -/
theorem porNRise_powerOn {s : State} (st : Straps) (hpin : s.boot.pin = true) (hpor : s.boot.por = true) :
    ∃ t, exec (.porNRise st true) s = .next t ∧ storedRecord t.atr = (none, [], 0, 0, none)
      ∧ (s.boot.rails = [] → t.boot.por = false ∧ t.boot.cause.getLsbD 6 = true) := by
  refine ⟨_, exec_porNRise_of_low st true hpin, ?_, fun hrails => ?_⟩
  · rw [if_pos rfl, release_atr, setAtr_atr, storedRecord_empty]
  · rw [if_pos rfl]
    obtain ⟨hout, hcause⟩ := release_boot_of_free (s := setAtr (fun _ => {}) (sampled st true s)) hpor rfl hrails
    exact ⟨hout, by rw [hcause]; simp [sampled]⟩

theorem porNRise_keepsRecord (s : State) (st : Straps) : KeepsRecord (.porNRise st false) s := by
  cases hpin : s.boot.pin with
  | false => exact ⟨s, exec_porNRise_of_high st false hpin, rfl⟩
  | true => exact ⟨_, exec_porNRise_of_low st false hpin, by simp [sampled]⟩

theorem porNLow_keepsRecord (s : State) : KeepsRecord .porNLow s := by
  refine ⟨_, rfl, ?_⟩
  split
  · rfl
  · rw [storedRecord_coldCause, setBoot_atr]

theorem railOutOfRange_keepsRecord (s : State) (rail : Nat) : KeepsRecord (.railOutOfRange rail) s := by
  refine ⟨_, rfl, ?_⟩
  split
  · rfl
  · rw [storedRecord_coldCause, setBoot_atr]

theorem railRestored_keepsRecord (s : State) (rail : Nat) : KeepsRecord (.railRestored rail) s := by
  refine ⟨_, rfl, ?_⟩
  split
  · rw [release_atr, setBoot_atr]
  · rfl

theorem exec_deviceResetBegin_cold {s : State} {t0 : Nat} (h : s.boot.resetPend = some (2, t0)) :
    exec .deviceResetBegin s = .next (
      let u := setBoot (fun b => { b with resetPend := none }) (clockTo t0 s)
      if u.boot.por then u else release (coldCause 8 u)) := by
  have hx : exec .deviceResetBegin s = execDeviceResetBegin s := rfl
  simp [hx, execDeviceResetBegin, h]

/-- KIND 2 of DEVICE_RESET is a cold reset with the rails untouched, so VDD_AON stays in its range (R535). -/
theorem deviceResetBegin_keepsRecord {s : State} {t0 : Nat} (h : s.boot.resetPend = some (2, t0)) :
    KeepsRecord .deviceResetBegin s := by
  refine ⟨_, exec_deviceResetBegin_cold h, ?_⟩
  dsimp only
  split
  · rw [setBoot_atr, clockTo_atr]
  · rw [release_atr, storedRecord_coldCause, setBoot_atr, clockTo_atr]

/-- Settles O13: Atrium is written by the rise of POR_N after a loss of VDD_AON and by `aonRecord`, which keeps the record. -/
theorem theRecordIsLostWithVddAonAlone : Obligations.TheRecordIsLostWithVddAonAlone := by
  unfold Obligations.TheRecordIsLostWithVddAonAlone
  refine ⟨fun s st hpin hpor => porNRise_powerOn st hpin hpor, porNRise_keepsRecord, porNLow_keepsRecord,
    fun s rail => ⟨railOutOfRange_keepsRecord s rail, railRestored_keepsRecord s rail⟩,
    fun s t0 h => deviceResetBegin_keepsRecord h⟩

end Sys2Proof.Machine

/-! ## Rows that act on a device that does not run (R515 to R517, R474) -/

namespace Sys2Proof.Machine

open Sys2Proof

/-- The events that do not wait for running core domains: resets and rails, boot, PLL_ROOT, packets and sessions of Bedrock,
Atrium's own collection and detectors, PERST_N, and the power control of Newel. -/
inductive Unclocked : Instr → Prop
  | deviceResetBegin : Unclocked .deviceResetBegin
  | mctpCommandReceive (o units env) : Unclocked (.mctpCommandReceive o units env)
  | ringCommandFetch (p slot env) : Unclocked (.ringCommandFetch p slot env)
  | porNLow : Unclocked .porNLow
  | porNRise (st lost) : Unclocked (.porNRise st lost)
  | railOutOfRange (r) : Unclocked (.railOutOfRange r)
  | railRestored (r) : Unclocked (.railRestored r)
  | pllRootLock : Unclocked .pllRootLock
  | atriumInitDone : Unclocked .atriumInitDone
  | rootPllLockLoss : Unclocked .rootPllLockLoss
  | keyExchange (party id period) : Unclocked (.keyExchange party id period)
  | spdmFinish (id ok) : Unclocked (.spdmFinish id ok)
  | heartbeatExpiry (id) : Unclocked (.heartbeatExpiry id)
  | getMeasurements (o) : Unclocked (.getMeasurements o)
  | drbgReseed : Unclocked .drbgReseed
  | endSession (o id) : Unclocked (.endSession o id)
  | heartbeat (o id) : Unclocked (.heartbeat o id)
  | keyUpdate (o id) : Unclocked (.keyUpdate o id)
  | officerEnrol (o id slot revoke hash) : Unclocked (.officerEnrol o id slot revoke hash)
  | eventDrain (lane) : Unclocked (.eventDrain lane)
  | atriumSelf (cause) : Unclocked (.atriumSelf cause)
  | thermalSample (die t) : Unclocked (.thermalSample die t)
  | uncorrectableMemoryError (err) : Unclocked (.uncorrectableMemoryError err)
  | hallLinkError (hall) : Unclocked (.hallLinkError hall)
  | perstNAssert (idx) : Unclocked (.perstNAssert idx)
  | perstNDeassert (idx) : Unclocked (.perstNDeassert idx)
  | fastTrip (ch) : Unclocked (.fastTrip ch)
  | vnewelUndervoltage : Unclocked .vnewelUndervoltage
  | stairwellAdmission (f) : Unclocked (.stairwellAdmission f)
  | feedBad (f v) : Unclocked (.feedBad f v)
  | feedGood (f v) : Unclocked (.feedGood f v)
  | feedDroop (f v) : Unclocked (.feedDroop f v)
  | feedDroopEnd (f v) : Unclocked (.feedDroopEnd f v)
  | vnewelRestored : Unclocked .vnewelRestored
  | nwChBoardWrite (ch r v) : Unclocked (.nwChBoardWrite ch r v)
  | nwChAssocWrite (ch v) : Unclocked (.nwChAssocWrite ch v)
  | waitToQueued (ch) : Unclocked (.waitToQueued ch)
  | pgAssert (ch) : Unclocked (.pgAssert ch)
  | pgLoss (ch) : Unclocked (.pgLoss ch)
  | startTimeout (ch) : Unclocked (.startTimeout ch)
  | ocTimeout (ch) : Unclocked (.ocTimeout ch)
  | overTemperature (ch) : Unclocked (.overTemperature ch)
  | retryTimerExpiry (ch) : Unclocked (.retryTimerExpiry ch)
  | pgHold10s (ch) : Unclocked (.pgHold10s ch)
  | boardInsertion (ch) : Unclocked (.boardInsertion ch)
  | boardRemoval (ch) : Unclocked (.boardRemoval ch)
  | fetShort (ch) : Unclocked (.fetShort ch)
  | deadTimeExpiry (ch) : Unclocked (.deadTimeExpiry ch)
  | pgBlankingEnd (ch mv) : Unclocked (.pgBlankingEnd ch mv)
  | diodeMeasure (ch a b c) : Unclocked (.diodeMeasure ch a b c)
  | thermalModelUpdate (ch v i) : Unclocked (.thermalModelUpdate ch v i)
  | nwPerstNRise (ch) : Unclocked (.nwPerstNRise ch)

/-- The step of a row whose effect waits for a running device, without one. -/
theorem next_of_not_live {s t : State} (h : live s = false) :
    (Host.Outcome.next (if live s then t else s) : Host.Outcome State Fault Refusal) = .next s := by simp [h]

/-- On a device that does not run, a row does nothing, is a command packet, or is one of those that do not wait for it. -/
theorem exec_of_not_live {s : State} (h : live s = false) (i : Instr) :
    exec i s = .next s ∨ (∃ sp ∈ specBundleActivate :: opTable, ∃ c, exec i s = command sp c s) ∨ Unclocked i := by
  cases i
  case deviceInfo | fdidSet | bundleKeySet | bundleLoad | bundleActivate | fwUpdate | fwSelect | deviceReset | portMapSet |
      portEnable | portDisable | portDown | portRelease | portStatus | spanResize | spanTimers | spanPolicy | hpPower | vhBind |
      vhUnbind | laneTest | eyeScan | pidSet | routeSet | groupSet | groupIndirSet | mcastSet | bufferSet | mgtTreeSet |
      leafAssign | subscriberSet | serviceSet | lengthModeSet | flightLoad | meterSet | timeConfig | ctxTableSet | qpCreate |
      qpModify | qpDestroy | qpQuery | mrRegister | mrDeregister | qpClassSet | bayCreate | bayResize | bayReset | bayRemove |
      bayQuery | sessionEnd | mpuWrite | garnetWindowSet | garnetCommit | violationRead | ideStreamSet | spanRekey | lockSet |
      zeroize | selftest | approvedGet | eventReactionSet | firstEventRead | historyRead | eventRingSet | newelConfig |
      newelOn | newelOff | newelStatus | stairwellSet | newelClear | countersRead | sensorsRead | telemetryStream =>
    exact .inr (.inl ⟨_, by simp [opTable], _, rfl⟩)
  case cmdDoorbell | rplConsWrite | ringEnable | ringStop | atEvrConsWrite | atIntStatusWrite | geSqDb | geRqDb | geCrDb |
      geSqPush | alTxDb | alRxPop | alRxBufRead | flushRx | flushTx | fifoFlushTakeEffect | alStatusWrite | fifoPointerReset |
      scLeafCfgWrite | latchedLoRead | rcCounterRead | registerWrite | bmeClear | bmeSet | functionLevelReset | vfEnableClear |
      hotReset | bedrockReady | mezzanineImageVerified | mezzanineRunning | watchdogExpiry | mezzException | quadPllLockLoss |
      elasticSlip | cdrLockLoss | alignWordMiss | alignmentFound | flitRxData | flitRxIdle | flitRxTrain | flitRxKeyx |
      flitRxInit | leakIdleReset | resizeReq | resizeAck | resizeSwitch | ackTmrExpiry | replayTmrExpiry | replayStall |
      eqTimeout | keyxTimeout | initTimeout | freshTrainingRetry | idleHalfWidth | keyLimitReached | keyNext |
      keyIndexExhausted | keyxMgtMessage | timeExchangeStart | timeReq | timeRsp | ptmExchange | messageIngress | tlpReceive |
      engineMessageWait | deferHeadRelease | messageTransmitStart | transmissionEnd | fenceRemoval | wheelRelease |
      flightEntryBoundary | flightTakeover | holdGraceExpiry | pauseDrained | rebalWaitExpiry | multicastCopyCross |
      mgtBroadcast | mgtBroadcastCopyLeave | flushCompletionIssue | flushEnd | amberEntry | linkUp | linkTrainingFail |
      linkDown | loopbackRequest | ideIntegrityFail | ideKeyProg | l1IdleExpiry | l1ExitComplete | l0pHalve | l0pFullWidth |
      partnerPowerRequest | unbindDrainExpiry | eyeScanEnd | prbsLockLoss | packetFirstSend | contextFetchComplete |
      contextWriteBackDone | galleryWrite | galleryReadReq | galleryReadRsp | gallerySend | galleryDatagram | galleryAck |
      galleryNak | retryLaterResend | rtoExpiry | completionWrite | atsInvalidation | pageResponse | mrDeregisterDone |
      bayDrainEnd | drainLimitExpiry | bayResetComplete | deviceNoticePost | tagQuarantineRelease | stopInterface |
      selfTestFailure | debugToken | oldEpochDrained | commitWaitExpiry | wiredBayReset | basaltEntry | telemetryPeriod |
      receiverDetect | lockInterfaceRequest | startInterfaceRequest | configurationRequest | hotResetExit | prbsCheckerLock |
      debugHalt =>
    exact .inl (next_of_not_live h)
  all_goals exact .inr (.inr (by constructor))

end Sys2Proof.Machine

/-! ## A cold reset holds the device (R515 to R517, R522) -/

namespace Sys2Proof.Machine

open Sys2Proof

/-- What a cold reset leaves and holds. -/
def InReset (s : State) : Prop :=
  s.boot.por = true ∧ s.boot.pll = false ∧ s.boot.bedrock = false ∧ s.boot.basalt = false ∧ s.ports = [] ∧ s.bays = []
    ∧ s.qps = [] ∧ s.sec.sessions = []

/-- A next state that a cold reset still holds, with OTP and flash as they were and a clock that has not gone back. -/
def StaysInReset (s : State) (o : Host.Outcome State Fault Refusal) : Prop :=
  ∃ t, o = .next t ∧ InReset t ∧ t.nv = s.nv ∧ s.dc ≤ t.dc

theorem le_clockTo_dc (d : Nat) (s : State) : s.dc ≤ (clockTo d s).dc := by
  unfold clockTo
  split
  · rfl
  · exact Nat.le_of_not_le ‹_›

section
variable {s : State} (h : InReset s)
include h

theorem staysInReset_self : StaysInReset s (.next s) := ⟨s, rfl, h, rfl, le_rfl⟩

theorem staysInReset_of_true {c : Bool} {t : State} (hc : c = true) : StaysInReset s (.next (if c then s else t)) := by
  rw [if_pos hc]
  exact staysInReset_self h

theorem staysInReset_of_false {c : Bool} {t : State} (hc : c = false) : StaysInReset s (.next (if c then t else s)) := by
  rw [if_neg (by simp [hc])]
  exact staysInReset_self h

theorem InReset.por : s.boot.por = true := h.1

theorem InReset.not_live : live s = false := by simp [live, h.por]

theorem InReset.pathOpen (o : Origin) : pathOpen s o = false := by simp [Machine.pathOpen, h.por]

theorem InReset.spdmOpen (o : Origin) : spdmOpen s o = false := by cases o <;> simp [Machine.spdmOpen, h.pathOpen]

theorem InReset.findSession (id : Nat) : findSession s id = none := by
  obtain ⟨-, -, -, -, -, -, -, hsess⟩ := h
  simp [Machine.findSession, hsess]

/-- No party reaches Bedrock before it is loaded. -/
theorem InReset.partyRole (party : Party) : partyRole s party = none := by
  cases party <;> simp [Machine.partyRole, h.spdmOpen, h.not_live]

theorem staysInReset_command (sp : OpSpec) (c : Cmd) : StaysInReset s (command sp c s) :=
  staysInReset_of_false h (h.pathOpen c.origin)

theorem staysInReset_runPacket (o : Origin) (bytes : Bytes) (carrier : Nat) (env : Env) :
    StaysInReset s (.next (runPacket o bytes carrier env s)) := by
  simpa [runPacket, h.pathOpen] using staysInReset_self h

/-- A next state that differs from a held one outside what a cold reset holds. -/
theorem staysInReset_of_eq {t : State} (hb : t.boot.por = true ∧ t.boot.pll = false ∧ t.boot.bedrock = false ∧ t.boot.basalt = false)
    (hrest : (t.ports, t.bays, t.qps, t.sec.sessions, t.nv) = (s.ports, s.bays, s.qps, s.sec.sessions, s.nv)) (hdc : s.dc ≤ t.dc) :
    StaysInReset s (.next t) := by
  obtain ⟨-, -, -, -, hports, hbays, hqps, hsess⟩ := h
  simp only [Prod.mk.injEq] at hrest
  obtain ⟨eports, ebays, eqps, esess, env⟩ := hrest
  obtain ⟨hpor, hpll, hbed, hbas⟩ := hb
  exact ⟨t, rfl, ⟨hpor, hpll, hbed, hbas, eports.trans hports, ebays.trans hbays, eqps.trans hqps, esess.trans hsess⟩, env, hdc⟩

/-- The parts of the boot state that a cold reset holds, where only others of its fields change. -/
theorem staysInReset_setBoot {f : Boot → Boot} (hf : (f s.boot).por = s.boot.por ∧ (f s.boot).pll = s.boot.pll
    ∧ (f s.boot).bedrock = s.boot.bedrock ∧ (f s.boot).basalt = s.boot.basalt) : StaysInReset s (.next (setBoot f s)) := by
  obtain ⟨hpor, hpll, hbed, hbas, -⟩ := id h
  obtain ⟨fpor, fpll, fbed, fbas⟩ := hf
  exact staysInReset_of_eq h ⟨fpor.trans hpor, fpll.trans hpll, fbed.trans hbed, fbas.trans hbas⟩ rfl le_rfl

theorem staysInReset_porNLow : StaysInReset s (exec .porNLow s) := by
  have hx : exec .porNLow s = .next (if s.boot.pin then s else coldCause 2 (setBoot (fun b => { b with pin := true }) s)) := rfl
  rw [hx]
  split
  · exact staysInReset_self h
  · simp only [coldCause, setBoot_boot, h.por, if_true]
    exact staysInReset_setBoot h (f := fun b => { b with pin := true, causeNext := b.causeNext ||| 2 }) ⟨rfl, rfl, rfl, rfl⟩

theorem staysInReset_railOutOfRange (rail : Nat) : StaysInReset s (exec (.railOutOfRange rail) s) := by
  have hx : exec (.railOutOfRange rail) s = .next (if decide (4 ≤ rail) || s.boot.rails.contains rail then s
    else coldCause 4 (setBoot (fun b => { b with rails := b.rails ++ [rail] }) s)) := rfl
  rw [hx]
  split
  · exact staysInReset_self h
  · simp only [coldCause, setBoot_boot, h.por, if_true]
    exact staysInReset_setBoot h (f := fun b => { b with rails := b.rails ++ [rail], causeNext := b.causeNext ||| 4 })
      ⟨rfl, rfl, rfl, rfl⟩

/-- A reset by command that falls due during a cold reset is forgotten. -/
theorem staysInReset_deviceResetBegin : StaysInReset s (exec .deviceResetBegin s) := by
  have hx : exec .deviceResetBegin s = execDeviceResetBegin s := rfl
  rw [hx, execDeviceResetBegin]
  cases s.boot.resetPend with
  | none => exact staysInReset_self h
  | some x =>
    obtain ⟨hpor, hpll, hbed, hbas, -⟩ := id h
    have hp : (setBoot (fun b => { b with resetPend := none }) (clockTo x.2 s)).boot.por = true := by simp [hpor]
    simp only [hp, if_true]
    exact staysInReset_of_eq h (by simp [hpor, hpll, hbed, hbas]) (by simp) (le_clockTo_dc x.2 s)

theorem staysInReset_perstNAssert (idx : Nat) : StaysInReset s (exec (.perstNAssert idx) s) := by
  have hx : exec (.perstNAssert idx) s = execPerstNAssert idx s := rfl
  rw [hx, execPerstNAssert, h.not_live]
  exact staysInReset_setBoot h (f := fun b => { b with perst := b.perst.filter (· != idx) }) ⟨rfl, rfl, rfl, rfl⟩

theorem staysInReset_perstNDeassert (idx : Nat) : StaysInReset s (exec (.perstNDeassert idx) s) := by
  have hx : exec (.perstNDeassert idx) s = execPerstNDeassert idx s := rfl
  rw [hx, execPerstNDeassert, h.not_live]
  exact staysInReset_setBoot h
    (f := fun b => { b with perst := if b.perst.contains idx then b.perst else b.perst ++ [idx] }) ⟨rfl, rfl, rfl, rfl⟩

theorem staysInReset_drbgReseed : StaysInReset s (exec .drbgReseed s) := by
  have hx : exec .drbgReseed s = execDrbgReseed s := rfl
  obtain ⟨hpor, hpll, hbed, hbas, -⟩ := id h
  rw [hx, execDrbgReseed]
  split
  · exact staysInReset_of_eq h ⟨hpor, hpll, hbed, hbas⟩ rfl le_rfl
  · exact staysInReset_self h

theorem staysInReset_mctpCommandReceive (o : Origin) (units : List Bytes) (env : Env) :
    StaysInReset s (exec (.mctpCommandReceive o units env) s) := by
  have hx : exec (.mctpCommandReceive o units env) s = execMctpCommandReceive o units env s := rfl
  rw [hx]
  unfold execMctpCommandReceive
  split
  · exact staysInReset_self h
  · exact staysInReset_self h
  · split
    · exact staysInReset_self h
    · exact staysInReset_runPacket h _ _ _ _

/-- Of the rows that do not wait for a running device, the rise of POR_N and the return of a rail alone end a cold reset. -/
theorem staysInReset_of_unclocked {i : Instr} (hi : Unclocked i) (hrise : ∀ st l, i ≠ .porNRise st l)
    (hrail : ∀ rail, i ≠ .railRestored rail) : StaysInReset s (exec i s) := by
  have hpor := h.por
  cases hi
  case porNRise => exact absurd rfl (hrise _ _)
  case railRestored => exact absurd rfl (hrail _)
  case porNLow => exact staysInReset_porNLow h
  case railOutOfRange => exact staysInReset_railOutOfRange h _
  case deviceResetBegin => exact staysInReset_deviceResetBegin h
  case perstNAssert => exact staysInReset_perstNAssert h _
  case perstNDeassert => exact staysInReset_perstNDeassert h _
  case drbgReseed => exact staysInReset_drbgReseed h
  case mctpCommandReceive => exact staysInReset_mctpCommandReceive h _ _ _
  case ringCommandFetch => exact staysInReset_runPacket h _ _ _ _
  case keyExchange party id period =>
    have hx : exec (.keyExchange party id period) s = execKeyExchange party id period s := rfl
    rw [hx]
    unfold execKeyExchange
    rw [h.partyRole]
    exact staysInReset_self h
  case spdmFinish id ok =>
    have hx : exec (.spdmFinish id ok) s = execSpdmFinish id ok s := rfl
    rw [hx, execSpdmFinish, h.findSession]
    exact staysInReset_self h
  case heartbeatExpiry id =>
    have hx : exec (.heartbeatExpiry id) s = execHeartbeatExpiry id s := rfl
    rw [hx, execHeartbeatExpiry, h.findSession]
    exact staysInReset_self h
  case pllRootLock | atriumInitDone | rootPllLockLoss | getMeasurements | endSession | heartbeat | keyUpdate | officerEnrol | eventDrain | thermalSample |
      uncorrectableMemoryError =>
    exact staysInReset_of_true h (by simp [hpor, h.spdmOpen])
  all_goals exact staysInReset_of_false h (by simp [hpor, powerDie])

theorem staysInReset_exec (i : Instr) (hrise : ∀ st l, i ≠ .porNRise st l) (hrail : ∀ rail, i ≠ .railRestored rail) :
    StaysInReset s (exec i s) := by
  rcases exec_of_not_live h.not_live i with hx | ⟨sp, -, c, hx⟩ | hi
  · rw [hx]
    exact staysInReset_self h
  · rw [hx]
    exact staysInReset_command h sp c
  · exact staysInReset_of_unclocked h hi hrise hrail

theorem staysInReset_tick : StaysInReset s (.next (tick s)) := by
  obtain ⟨hpor, hpll, hbed, hbas, -⟩ := id h
  have hnot : live (clockTo (s.dc + 1) s) = false := by rw [live_of_boot (clockTo_boot ..), h.not_live]
  rw [tick, hnot]
  exact staysInReset_of_eq h (by simp [hpor, hpll, hbed, hbas]) (by simp) (le_clockTo_dc _ s)

end

/-- Settles O3: a cold reset is kept by every row but the two that may end it, and by a CLK_D cycle on an empty queue. -/
theorem coldResetHolds : Obligations.ColdResetHolds := by
  unfold Obligations.ColdResetHolds
  intro s t h hrise hrail hstep
  have hstays : StaysInReset s (step s) := by
    cases hq : s.pending with
    | nil =>
      have hs : step s = .next (tick s) := by rw [step, hq]
      rw [hs]
      exact staysInReset_tick h
    | cons i r =>
      have hs : step s = exec i { s with pending := r } := by rw [step, hq]
      rw [hs]
      exact staysInReset_exec (s := { s with pending := r }) h i
        (fun st l hi => hrise st l (by rw [hq, hi, List.head?_cons])) (fun rail hi => hrail rail (by rw [hq, hi, List.head?_cons]))
  obtain ⟨u, hu, hin, hnv, hdc⟩ := hstays
  cases hstep.symm.trans hu
  exact ⟨hin, hnv, hdc⟩

end Sys2Proof.Machine

/-! ## Basalt and a port table that is not in rising order (R475) -/

namespace Sys2Proof.Machine

open Sys2Proof

/-- A CONTAINED event that a lane has not drained yet, with the reaction LOG. -/
def waitingEvent : Event := { ts := 0, source := 0, cls := 2, react := 1, detail := 0 }

/-- A device in Basalt whose port table lists port 5 before port 3, and whose managing H port 3 is to be told of an event. -/
def basaltUnsorted : State :=
  { State.reset with
    boot := { por := false, pin := false, atr := true, basalt := true, mgr := some 3 },
    ports := [(5, { typ := .h, width := 1 }), (3, { typ := .h, width := 1 })],
    atr := { pend := [(0, waitingEvent)], msiEn := true },
    pending := [.eventDrain 0] }

theorem step_basaltUnsorted :
    step basaltUnsorted = .next (drained 0 waitingEvent (clockTo 8 { basaltUnsorted with pending := [] })) := rfl

/-- The vector held pending for port 3 is written at the place of 3 in a rising table, before port 5. -/
theorem tkeys_ports_step_basaltUnsorted :
    tkeys (drained 0 waitingEvent (clockTo 8 { basaltUnsorted with pending := [] })).ports = [3, 5, 3] := by decide

/-- Refutes O4: the statement speaks of every port table, also one whose numbers do not rise; EVENT_DRAIN that raises EVENT
writes the pending vector of PF0 of the managing port, and on such a table the write adds an entry. -/
theorem not_basaltHolds : ¬ Obligations.BasaltHolds := by
  unfold Obligations.BasaltHolds
  intro h
  have hports := (h basaltUnsorted _ ⟨rfl, rfl, rfl, rfl, rfl⟩ (by decide) (fun rail => by simp [basaltUnsorted]) (by decide) step_basaltUnsorted).2
  have hkeys := congrArg (List.map (·.1)) hports
  simp only [List.map_map] at hkeys
  exact absurd (tkeys_ports_step_basaltUnsorted.symm.trans hkeys) (by decide)

end Sys2Proof.Machine

/-! ## One step of the queue, and the state after power-on (R513 to R517) -/

namespace Sys2Proof.Machine

open Sys2Proof

theorem step_cons {s : State} {i : Instr} {r : List Instr} (h : s.pending = i :: r) : step s = exec i { s with pending := r } := by
  rw [step, h]

theorem step_nil {s : State} (h : s.pending = []) : step s = .next (tick s) := by rw [step, h]

theorem clockTo_succ_dc (s : State) : clockTo (s.dc + 1) s = { s with dc := s.dc + 1, ft := slewBy s.ft ((s.dc + 1) / 2) } := by
  simp [clockTo]

/-- A device that does not run lets its clock run. -/
theorem tick_of_not_live {s : State} (h : live s = false) : tick s = clockTo (s.dc + 1) s := by
  have hu : live (clockTo (s.dc + 1) s) = false := by rw [live_of_boot (clockTo_boot ..), h]
  simp [tick, hu]

/-- Nothing of the state goes on by itself in a CLK_D cycle. -/
def atRest (s : State) : Prop := s.ports = [] ∧ s.qps = [] ∧ s.cells = [] ∧ s.bundle = none ∧ s.sec.testing = none

section
variable {s : State} (h : atRest s)
include h

theorem settleCross_of_atRest : settleCross s = s := by
  obtain ⟨-, -, hcells, -⟩ := h
  simp [settleCross, hcells]

theorem rtoTick_of_atRest : rtoTick s = s := by
  obtain ⟨-, hqps, -⟩ := h
  simp [rtoTick, hqps, tkeys]

theorem linesTick_of_atRest : linesTick s = s := by
  obtain ⟨hports, -⟩ := h
  simp [linesTick, hports, tkeys]

theorem bundleStep_of_atRest : bundleStep s = s := by
  obtain ⟨-, -, -, hbundle, -⟩ := h
  simp [bundleStep, hbundle]

theorem endSelftest_of_atRest : endSelftest s = s := by
  obtain ⟨-, -, -, -, htest⟩ := h
  simp [endSelftest, htest]

theorem tick_of_atRest : tick s = clockTo (s.dc + 1) s := by
  have hu : atRest (clockTo (s.dc + 1) s) := by simpa [atRest] using h
  simp only [tick, settleCross_of_atRest hu, rtoTick_of_atRest hu, linesTick_of_atRest hu, bundleStep_of_atRest hu, ite_self,
    endSelftest_of_atRest hu]

end

/-- Settles O1: the step by its definition, and the CLK_D cycle of a device with nothing in it that goes on by itself. -/
theorem stepRunsTheFrontCommand : Obligations.StepRunsTheFrontCommand := by
  unfold Obligations.StepRunsTheFrontCommand
  refine ⟨fun s i r h => step_cons h, fun s h => ⟨step_nil h, fun hidle => ?_⟩⟩
  rw [← clockTo_succ_dc]
  rcases hidle with hlive | hrest
  · exact tick_of_not_live hlive
  · exact tick_of_atRest hrest

theorem inReset_reset : InReset State.reset := ⟨rfl, rfl, rfl, rfl, rfl, rfl, rfl, rfl⟩

/-- Settles O2: the fields of `State.reset`, whose command paths are shut as a cold reset holds it. -/
theorem resetHoldsTheDevice : Obligations.ResetHoldsTheDevice := by
  unfold Obligations.ResetHoldsTheDevice
  refine ⟨rfl, rfl, rfl, rfl, rfl, rfl, rfl, rfl, rfl, rfl, rfl, rfl, rfl, rfl, rfl, inReset_reset.not_live, fun sp c => ?_⟩
  rw [command, inReset_reset.pathOpen]
  rfl

/-! ## The checks before a body, and CHECK_ONLY (R64, R66) -/

/-- On MCTP over I3C a reply always leaves. -/
theorem sendReply_of_i3c {r : Reply} (h : r.origin = .i3c) (s : State) : sendReply r s = putReply r none s := by
  simp [sendReply, h]

/-- A reply in plaintext is an output, and counts in no session. -/
theorem putReply_of_plain {r : Reply} (h : r.enc = false) (k : Option Nat) (s : State) :
    putReply r k s = { s with out := .reply r k (replyBytes s r) :: s.out } := by
  simp [putReply, h, emit]

/-- A rejection on MCTP over I3C leaves its reply. -/
theorem rejected_of_i3c {r : Reply} (h : r.origin = .i3c) (e : Rej) (s : State) :
    rejected r e s = putReply { r with status := e.status, field := e.field } none s :=
  sendReply_of_i3c (r := { r with status := e.status, field := e.field }) h s

theorem command_of_open {sp : OpSpec} {c : Cmd} {s : State} (h : pathOpen s c.origin = true) :
    command sp c s = .next (runCommand sp c (intake c.origin s)) := by simp [command, h]

theorem command_of_shut {sp : OpSpec} {c : Cmd} {s : State} (h : pathOpen s c.origin = false) : command sp c s = .next s := by
  simp [command, h]

section
variable {sp : OpSpec} {c : Cmd} {u : State}

theorem runCommand_of_tagBusy (h : tagBusy u sp.code c = true) :
    runCommand sp c u = rejected (baseReply sp.code c false) { status := stBusy } u := by simp [runCommand, h]

theorem runCommand_of_basalt (h : tagBusy u sp.code c = false) (hb : u.boot.basalt = true) (hc : basaltCode sp.code = false) :
    runCommand sp c u = rejected (baseReply sp.code c false) { status := stNotReady } u := by simp [runCommand, h, hb, hc]

theorem runCommand_of_preTag_error {e : Rej} (h : tagBusy u sp.code c = false) (hb : u.boot.basalt = false)
    (hp : preTag sp c u = .error e) : runCommand sp c u = rejected (baseReply sp.code c false) e u := by
  simp [runCommand, h, hb, hp]

theorem preTag_of_length (h : carrierOk c = false ∨ plainLengthOk sp.layout (paramLen c) = false) :
    preTag sp c u = .error { status := stInvalidLength } := by
  rcases h with h | h <;> simp [preTag, h] <;> rfl

theorem preTag_of_no_session (hc : carrierOk c = true) (hl : plainLengthOk sp.layout (paramLen c) = true) (h0 : c.session ≠ 0)
    (hs : sessionOn u c.origin c.session = none) : preTag sp c u = .error { status := stDenied } := by
  simp [preTag, hc, hl, h0, hs]
  rfl

theorem preTag_of_bad_tag (hc : carrierOk c = true) (hl : plainLengthOk sp.layout (paramLen c) = true) (h0 : c.session ≠ 0)
    (hs : (sessionOn u c.origin c.session).isSome = true) (ht : tagOk u sp.code c = false) :
    preTag sp c u = .error { status := stAuthFail } := by
  obtain ⟨x, hx⟩ := Option.isSome_iff_exists.mp hs
  simp [preTag, hc, hl, h0, hx, ht]
  rfl

theorem preTag_ok (hc : carrierOk c = true) (hl : plainLengthOk sp.layout (paramLen c) = true)
    (h : c.session = 0 ∨ ((sessionOn u c.origin c.session).isSome = true ∧ tagOk u sp.code c = true)) :
    preTag sp c u = .ok () := by
  rcases h with h | ⟨hs, ht⟩
  · simp [preTag, hc, hl, h]
    rfl
  · obtain ⟨x, hx⟩ := Option.isSome_iff_exists.mp hs
    simp [preTag, hc, hl, hx, ht]
    rfl

theorem postTag_of_length {bs : Bytes} (h : lengthOk sp.layout bs = false) :
    postTag sp c bs u = .error { status := stInvalidLength } := by
  simp [postTag, h]
  rfl

theorem postTag_of_role {bs : Bytes} (h : lengthOk sp.layout bs = true)
    (hr : roleOk sp.priv c.origin (if c.session = 0 then none else sessionOn u c.origin c.session) = false) :
    postTag sp c bs u = .error { status := stDenied } := by
  simp [postTag, h, hr]
  rfl

end

/-- A command whose tag is checked and that fails a later check: its session has counted it, and nothing else is applied. -/
theorem command_of_postTag_error {sp : OpSpec} {c : Cmd} {s : State} {e : Rej} (ho : pathOpen s c.origin = true)
    (h : tagBusy (intake c.origin s) sp.code c = false) (hb : (intake c.origin s).boot.basalt = false)
    (hp : preTag sp c (intake c.origin s) = .ok ()) (he : postTag sp c (plain sp c s) (entered c s) = .error e) :
    command sp c s = .next (rejected (baseReply sp.code c (c.session != 0)) e (noteApproved c.session true (entered c s))) := by
  have hrun : runCommand sp c (intake c.origin s) =
      match postTag sp c (plain sp c s) (entered c s) with
      | .error e => rejected (baseReply sp.code c (c.session != 0)) e (noteApproved c.session true (entered c s))
      | .ok p => closeEnded (noteApproved c.session (approvedUse sp.code p.bytes (entered c s))
          (commit sp c p (baseReply sp.code c (c.session != 0)) (entered c s))) := by
    simp only [runCommand, h, hb, hp, Bool.false_eq_true, Bool.false_and, if_false]
    rfl
  rw [command_of_open ho, hrun, he]

/-- Settles O5: each clause is the branch of the engine that its hypotheses select. -/
theorem commandsAreCheckedInTheOrderOfR64 : Obligations.CommandsAreCheckedInTheOrderOfR64 := by
  unfold Obligations.CommandsAreCheckedInTheOrderOfR64
  refine ⟨fun r e s ho => ⟨rejected_of_i3c ho e s, fun henc => (rejected_of_i3c ho e s).trans (putReply_of_plain ?_ none s)⟩,
    fun sp c s => ⟨command_of_shut, fun ho => ?_⟩⟩
  · exact henc
  · refine ⟨fun ht => ?_, fun ht => ⟨fun hb hc => ?_, fun hb => ⟨fun hl => ?_, fun hc hl h0 hs => ?_, fun hc hl h0 hs htag => ?_,
      fun hc hl hs => ⟨fun hlen => ?_, fun hlen hr => ?_⟩⟩⟩⟩
    · rw [command_of_open ho, runCommand_of_tagBusy ht]
      rfl
    · rw [command_of_open ho, runCommand_of_basalt ht hb hc]
      rfl
    · rw [command_of_open ho, runCommand_of_preTag_error ht hb (preTag_of_length hl)]
      rfl
    · rw [command_of_open ho, runCommand_of_preTag_error ht hb (preTag_of_no_session hc hl h0 hs)]
      rfl
    · rw [command_of_open ho, runCommand_of_preTag_error ht hb (preTag_of_bad_tag hc hl h0 hs htag)]
      rfl
    · exact command_of_postTag_error ho ht hb (preTag_ok hc hl hs) (postTag_of_length hlen)
    · exact command_of_postTag_error ho ht hb (preTag_ok hc hl hs) (postTag_of_role hlen hr)

/-- Settles O6: with CHECK_ONLY every branch of the engine after the body leaves the reply on the state the body ran on, but
for the free values that the body drew. -/
theorem checkOnlyChangesNothingButTheReply : Obligations.CheckOnlyChangesNothingButTheReply := by
  unfold Obligations.CheckOnlyChangesNothingButTheReply
  intro sp c s p hp hflag
  rw [command_passes hp]
  unfold closed
  rw [commit_free (passes_free hp)]
  cases hb : (sp.body p c (entered c s)).run [] with
  | error e =>
    exact ⟨_, (entered c s).freeN, rfl, rfl, rfl, by simp only [rejected, baseReply]; rfl⟩
  | ok x =>
    obtain ⟨⟨t, a⟩, clamps⟩ := x
    cases a with
    | done st data => exact ⟨_, t.freeN, rfl, rfl, rfl, by simp only [hflag, if_true, baseReply]; rfl⟩
    | later k data => exact ⟨_, (entered c s).freeN, rfl, rfl, rfl, by simp only [hflag, if_true, baseReply]; rfl⟩

end Sys2Proof.Machine

/-! ## A source that fires (R461, R464, R465, R467, R468) -/

namespace Sys2Proof.Machine

open Sys2Proof

/-- The capture of a firing. -/
def firing (src cause object actor : Nat) (s : State) : Event :=
  { ts := fabricNs { s with dc := s.dc / 8 * 8 }, source := src, cls := srcClass src, tInv := !s.ft.valid, react := reactNow s src,
    detail := detailOf cause object actor, cyc := s.dc / 8 }

/-- The wired reaction that a firing queues (R461). -/
def wiredOf (src cause object actor : Nat) (s : State) : Wired :=
  { source := src, react := reactNow s src, cause := cause, object := object, actor := actor,
    due := s.dc + (if reactNow s src = 4 then 10 else 6) }

/-- No source fires once collection has stopped, or before Atrium is up (R474). -/
theorem fire_of_stopped {s : State} (src cause object actor : Nat) (h : s.atr.stopped = true ∨ s.boot.atr = false) :
    fire src cause object actor s = s := by
  rcases h with h | h <;> simp [fire, h]

section
variable {s : State} (src cause object actor : Nat) (hs : s.atr.stopped = false) (hb : s.boot.atr = true)
include hs hb

theorem fire_eq : fire src cause object actor s = { s with atr := { s.atr with
    pend := match tget s.atr.pend src with
      | some old => tset s.atr.pend src { old with merged := true }
      | none => tset s.atr.pend src (firing src cause object actor s),
    again := match tget s.atr.pend src with
      | some old => tset s.atr.again src (againAfter (tget s.atr.again src) old (firing src cause object actor s))
      | none => s.atr.again,
    first := firstAfter s.atr.first (firing src cause object actor s),
    fired := some (lowestFired s.atr.fired (firing src cause object actor s)),
    wired := s.atr.wired ++ if srcClass src ≥ 2 && reactNow s src ≥ 2 then [wiredOf src cause object actor s] else [] } } := by
  unfold fire
  rw [hs, hb]
  rfl

theorem fire_first : (fire src cause object actor s).atr.first = firstAfter s.atr.first (firing src cause object actor s) := by
  rw [fire_eq src cause object actor hs hb]

theorem fire_wired : (fire src cause object actor s).atr.wired =
    s.atr.wired ++ if srcClass src ≥ 2 && reactNow s src ≥ 2 then [wiredOf src cause object actor s] else [] := by
  rw [fire_eq src cause object actor hs hb]

/-- The pending bit of another source stays as it is. -/
theorem fire_pend_ne {k : Nat} (hk : k ≠ src) : tget (fire src cause object actor s).atr.pend k = tget s.atr.pend k := by
  rw [fire_eq src cause object actor hs hb]
  dsimp only
  split <;> exact tget_tset_ne _ _ hk.symm

/-- A clear pending bit is set with the capture of this firing. -/
theorem fire_pend_of_clear (h : tget s.atr.pend src = none) :
    tget (fire src cause object actor s).atr.pend src = some (firing src cause object actor s) := by
  rw [fire_eq src cause object actor hs hb]
  simp [h]

/-- A set pending bit keeps its capture, marked merged. -/
theorem fire_pend_of_set {o : Event} (h : tget s.atr.pend src = some o) :
    tget (fire src cause object actor s).atr.pend src = some { o with merged := true } := by
  rw [fire_eq src cause object actor hs hb]
  simp [h]

end

/-- FIRST_EVENT stays frozen but for a lower source of its own CLK_A cycle. -/
theorem firstAfter_of_frozen {g e : Event} (h : e.cyc ≠ g.cyc ∨ g.source ≤ e.source) : firstAfter (some g) e = some g := by
  have hc : ¬(g.cyc = e.cyc ∧ e.source < g.source) := by omega
  simp [firstAfter, hc]

theorem firstAfter_of_lower {g e : Event} (hc : e.cyc = g.cyc) (hl : e.source < g.source) : firstAfter (some g) e = some e := by
  simp [firstAfter, hc, hl]

/-- Settles O7: the event of the statement is the capture of this firing. -/
theorem firingASourceRecordsIt : Obligations.FiringASourceRecordsIt := by
  unfold Obligations.FiringASourceRecordsIt
  intro s src cause object actor
  refine ⟨fire_of_stopped src cause object actor, fun hs hb => ?_⟩
  have hwired := fire_wired src cause object actor hs hb
  refine ⟨firing src cause object actor s, rfl, rfl, rfl, rfl, rfl, rfl, rfl,
    fun k hk => fire_pend_ne src cause object actor hs hb hk, fire_pend_of_clear src cause object actor hs hb,
    fun o ho => fire_pend_of_set src cause object actor hs hb ho, ?_, ?_, ?_, ?_, ?_, ?_, ?_⟩
  · intro hf
    rw [fire_first src cause object actor hs hb, hf]
    rfl
  · intro g hg hfrozen
    rw [fire_first src cause object actor hs hb, hg]
    exact firstAfter_of_frozen hfrozen
  · intro g hg hc hl
    rw [fire_first src cause object actor hs hb, hg]
    exact firstAfter_of_lower hc hl
  · intro hno
    have hcond : (srcClass src ≥ 2 && reactNow s src ≥ 2) = false := by
      rcases hno with h | h <;> simp [Nat.not_le.mpr h]
    rw [hwired, hcond]
    simp
  · intro hcls hreact
    refine ⟨wiredOf src cause object actor s, ?_, rfl, rfl, rfl⟩
    rw [hwired]
    simp [hcls, hreact]
  · intro hwas
    simp [reactNow, hwas]
  · rw [fire_eq src cause object actor hs hb]

/-! ## The parts of a checked range (R447) -/

/-- The cuts that lie inside a range from `lo` to `hi`, in rising order. -/
def Rising (lo hi : Nat) (cs : List Nat) : Prop := (lo :: cs).Pairwise (· < ·) ∧ ∀ c ∈ cs, c < hi

theorem rising_tail {lo hi c : Nat} {cs : List Nat} (h : Rising lo hi (c :: cs)) : lo < c ∧ c < hi ∧ Rising c hi cs := by
  obtain ⟨hp, hhi⟩ := h
  refine ⟨List.rel_of_pairwise_cons hp (List.mem_cons_self ..), hhi c (List.mem_cons_self ..), hp.of_cons, fun d hd => ?_⟩
  exact hhi d (List.mem_cons_of_mem _ hd)

theorem mem_insertCut {n a : Nat} {l : List Nat} : a ∈ insertCut n l ↔ a = n ∨ a ∈ l := by
  induction l with
  | nil => simp [insertCut]
  | cons b r ih =>
    unfold insertCut
    split
    · simp
    · split
      · simp_all
      · simp only [List.mem_cons, ih]
        tauto

theorem pairwise_insertCut {n : Nat} {l : List Nat} (h : l.Pairwise (· < ·)) : (insertCut n l).Pairwise (· < ·) := by
  induction l with
  | nil => simp [insertCut]
  | cons b r ih =>
    obtain ⟨hb, hr⟩ := List.pairwise_cons.mp h
    unfold insertCut
    split
    · next hlt =>
      refine List.pairwise_cons.mpr ⟨fun x hx => ?_, h⟩
      rcases List.mem_cons.mp hx with rfl | hx
      · exact hlt
      · exact hlt.trans (hb x hx)
    · split
      · exact h
      · refine List.pairwise_cons.mpr ⟨fun x hx => ?_, ih hr⟩
        rcases mem_insertCut.mp hx with rfl | hx
        · omega
        · exact hb x hx

theorem foldl_insertCut (l acc : List Nat) (h : acc.Pairwise (· < ·)) :
    (l.foldl (fun l a => insertCut a l) acc).Pairwise (· < ·)
      ∧ ∀ a, a ∈ l.foldl (fun l a => insertCut a l) acc ↔ a ∈ l ∨ a ∈ acc := by
  induction l generalizing acc with
  | nil => simp [h]
  | cons b r ih =>
    obtain ⟨hsorted, hmem⟩ := ih (insertCut b acc) (pairwise_insertCut h)
    refine ⟨hsorted, fun a => ?_⟩
    rw [List.foldl_cons, hmem, mem_insertCut, List.mem_cons]
    tauto

/-- A boundary of a valid region or window of the tables. -/
def Boundary (rg : Tab Rgn) (ws : Tab Window) (a : Nat) : Prop :=
  (∃ e ∈ rg, e.2.valid = true ∧ (a = e.2.base ∨ a = e.2.limit + 1))
    ∨ ∃ e ∈ ws, e.2.valid = true ∧ (a = e.2.base ∨ a = e.2.base + 2 ^ e.2.log)

theorem mem_cutsIn {rg : Tab Rgn} {ws : Tab Window} {lo hi a : Nat} :
    a ∈ cutsIn rg ws lo hi ↔ Boundary rg ws a ∧ lo < a ∧ a < hi := by
  unfold cutsIn Boundary
  rw [(foldl_insertCut _ [] List.Pairwise.nil).2]
  simp [winSize, and_assoc, or_and_right]

theorem rising_cutsIn (rg : Tab Rgn) (ws : Tab Window) (lo hi : Nat) : Rising lo hi (cutsIn rg ws lo hi) := by
  refine ⟨List.pairwise_cons.mpr ⟨fun a ha => (mem_cutsIn.mp ha).2.1, ?_⟩, fun a ha => (mem_cutsIn.mp ha).2.2⟩
  exact (foldl_insertCut _ [] List.Pairwise.nil).1

theorem sum_partsFrom {lo hi : Nat} {cs : List Nat} (h : Rising lo hi cs) (hlo : lo ≤ hi) :
    ((partsFrom lo hi cs).map (·.2)).sum = hi - lo := by
  induction cs generalizing lo with
  | nil => unfold partsFrom; split <;> simp; omega
  | cons c r ih =>
    obtain ⟨hlc, hch, hr⟩ := rising_tail h
    simp only [partsFrom, List.map_cons, List.sum_cons, ih hr hch.le]
    omega

theorem head_partsFrom {lo hi : Nat} (h : lo < hi) (cs : List Nat) : (partsFrom lo hi cs).head?.map (·.1) = some lo := by
  cases cs with
  | nil => simp [partsFrom, h]
  | cons c r => simp [partsFrom]

/-- Each part ends where the next begins. -/
theorem chain_partsFrom {lo hi : Nat} {cs : List Nat} (h : Rising lo hi cs) (k : Nat) (a b : Nat × Nat)
    (ha : (partsFrom lo hi cs)[k]? = some a) (hb : (partsFrom lo hi cs)[k + 1]? = some b) : a.1 + a.2 = b.1 := by
  induction cs generalizing lo k with
  | nil =>
    unfold partsFrom at hb
    split at hb <;> simp at hb
  | cons c r ih =>
    obtain ⟨hlc, hch, hr⟩ := rising_tail h
    cases k with
    | zero =>
      have hhead := head_partsFrom hch r
      rw [partsFrom, List.getElem?_cons_succ, ← List.head?_eq_getElem?] at hb
      rw [hb, Option.map_some, Option.some.injEq] at hhead
      rw [partsFrom, List.getElem?_cons_zero, Option.some.injEq] at ha
      rw [hhead, ← ha]
      dsimp only
      omega
    | succ k =>
      rw [partsFrom, List.getElem?_cons_succ] at ha hb
      exact ih hr k ha hb

/-- A part is not empty, lies inside the range, and holds no cut. -/
theorem mem_partsFrom {lo hi : Nat} {cs : List Nat} (h : Rising lo hi cs) {a : Nat × Nat} (ha : a ∈ partsFrom lo hi cs) :
    0 < a.2 ∧ lo ≤ a.1 ∧ a.1 + a.2 ≤ hi ∧ ∀ c ∈ cs, ¬(a.1 < c ∧ c < a.1 + a.2) := by
  induction cs generalizing lo with
  | nil =>
    unfold partsFrom at ha
    split at ha
    · simp only [List.mem_singleton] at ha
      subst ha
      simp
      omega
    · simp at ha
  | cons c r ih =>
    obtain ⟨hlc, hch, hr⟩ := rising_tail h
    have hafter : ∀ d ∈ r, c < d := fun d hd => List.rel_of_pairwise_cons hr.1 hd
    rcases List.mem_cons.mp ha with rfl | ha
    · refine ⟨by dsimp only; omega, le_rfl, by dsimp only; omega, fun d hd => ?_⟩
      rcases List.mem_cons.mp hd with rfl | hd
      · dsimp only
        omega
      · have := hafter d hd
        dsimp only
        omega
    · obtain ⟨hpos, hge, hle, hno⟩ := ih hr ha
      refine ⟨hpos, by omega, hle, fun d hd => ?_⟩
      rcases List.mem_cons.mp hd with rfl | hd
      · omega
      · exact hno d hd

/-- Settles O9: the cuts are the boundaries inside the range in rising order, and the parts run from cut to cut. -/
theorem checkedRangesSplitAtEveryBoundary : Obligations.CheckedRangesSplitAtEveryBoundary := by
  unfold Obligations.CheckedRangesSplitAtEveryBoundary
  intro rg ws lo hi hlt ps
  have hrise := rising_cutsIn rg ws lo hi
  have hfree : ∀ a ∈ ps, ∀ b, Boundary rg ws b → ¬(a.1 < b ∧ b < a.1 + a.2) := by
    intro a ha b hb hin
    obtain ⟨-, hge, hle, hno⟩ := mem_partsFrom hrise ha
    exact hno b (mem_cutsIn.mpr ⟨hb, by omega, by omega⟩) hin
  refine ⟨sum_partsFrom hrise hlt.le, head_partsFrom hlt _, chain_partsFrom hrise, fun a ha => (mem_partsFrom hrise ha).1,
    fun a ha e he hv => ⟨hfree a ha _ ?_, hfree a ha _ ?_⟩, fun a ha e he hv => ⟨hfree a ha _ ?_, hfree a ha _ ?_⟩⟩
  · exact .inl ⟨e, he, hv, .inl rfl⟩
  · exact .inl ⟨e, he, hv, .inr rfl⟩
  · exact .inr ⟨e, he, hv, .inl rfl⟩
  · exact .inr ⟨e, he, hv, .inr rfl⟩

end Sys2Proof.Machine

/-! ## Cold resets and the boot timeline (R513 to R526) -/

namespace Sys2Proof.Machine

open Sys2Proof

theorem coldCause_of_running {s : State} (c : BitVec 7) (h : s.boot.por = false) :
    coldCause c s = coldState (setBoot (fun b => { b with causeNext := c ||| (if b.basalt then 0x20 else 0) }) s) := by
  simp [coldCause, h]

theorem exec_porNLow_of_high {s : State} (h : s.boot.pin = false) :
    exec .porNLow s = .next (coldCause 2 (setBoot (fun b => { b with pin := true }) s)) := by
  have hx : exec .porNLow s = execPorNLow s := rfl
  simp [hx, execPorNLow, h]

theorem exec_railOutOfRange_of_good {s : State} {rail : Nat} (hr : rail < 4) (h : s.boot.rails.contains rail = false) :
    exec (.railOutOfRange rail) s = .next (coldCause 4 (setBoot (fun b => { b with rails := b.rails ++ [rail] }) s)) := by
  have hx : exec (.railOutOfRange rail) s = execRailOutOfRange rail s := rfl
  rw [hx, execRailOutOfRange, h, if_neg (by simp [Nat.not_le.mpr hr])]

/-- The gates that a cold reset commands off. -/
def gatesOff (s : State) : List Output :=
  ((s.nw.chs.filter fun e => gateOn e.2).map fun e => Output.newelGate e.1 false).reverse

/-- Settles O15: `coldState` lists what a cold reset keeps. -/
theorem coldResetKeepsOnlyWhatR516Names : Obligations.ColdResetKeepsOnlyWhatR516Names := by
  unfold Obligations.ColdResetKeepsOnlyWhatR516Names
  intro kept
  refine ⟨fun s hpor hpin => ⟨gatesOff s, ?_⟩, fun s rail hpor hr hrail => ⟨gatesOff s, ?_⟩⟩
  · rw [exec_porNLow_of_high hpin, coldCause_of_running 2 (by exact hpor)]
    rfl
  · rw [exec_railOutOfRange_of_good hr hrail, coldCause_of_running 4 (by exact hpor)]
    rfl

theorem release_of_free {s : State} (hpor : s.boot.por = true) (hpin : s.boot.pin = false) (hrails : s.boot.rails = []) :
    release s = { s with
      dc := 0, ft := {},
      boot := { s.boot with por := false, cause := s.boot.causeNext, causeNext := 0, pmapBad := decide (5 < s.boot.straps.pmap) } } := by
  simp [release, hpor, hpin, hrails, setBoot]

theorem exec_railRestored_of_out {s : State} {rail : Nat} (h : s.boot.rails.contains rail = true) :
    exec (.railRestored rail) s = .next (release (setBoot (fun b => { b with rails := b.rails.filter (· != rail) }) s)) := by
  have hx : exec (.railRestored rail) s = execRailRestored rail s := rfl
  rw [hx, execRailRestored, h, if_pos rfl]

/-- Settles O16: `release` ends the reset when the last of POR_N and the rails lets go. -/
theorem releaseStartsTimeZero : Obligations.ReleaseStartsTimeZero := by
  unfold Obligations.ReleaseStartsTimeZero
  refine ⟨fun s st lost hpin hpor hrails => ?_, fun s rail hrails hpin hpor => ?_⟩
  · rw [exec_porNRise_of_low st lost hpin]
    cases lost
    · rw [if_neg (by decide), release_of_free (s := sampled st false s) hpor rfl hrails]
      rfl
    · rw [if_pos rfl, release_of_free (s := setAtr (fun _ => {}) (sampled st true s)) hpor rfl hrails]
      rfl
  · rw [exec_railRestored_of_out (by simp [hrails])]
    have hgone : s.boot.rails.filter (· != rail) = [] := by simp [hrails]
    rw [release_of_free (s := setBoot (fun b => { b with rails := b.rails.filter (· != rail) }) s) hpor hpin hgone, setBoot]
    simp only [hgone]

/-! ### The boot timeline -/

/-- The ports that PLL_ROOT's lock brings (R519, R521). -/
def bootPorts (s : State) : Tab Port := (strapMap s.boot.straps.pmap).map fun e => (e.1, bootPort e (nsNow s))

theorem bootPort_width_typ (e : MapEnt) (ns : Nat) : (bootPort e ns).width = e.2.1 ∧ (bootPort e ns).typ = e.2.2 := by
  unfold bootPort
  dsimp only
  split <;> exact ⟨rfl, rfl⟩

theorem bootPorts_shape (s : State) : (bootPorts s).map (fun e => (e.1, e.2.width, e.2.typ)) = strapMap s.boot.straps.pmap := by
  rw [bootPorts, List.map_map]
  refine (List.map_congr_left fun e _ => ?_).trans (List.map_id _)
  obtain ⟨hw, ht⟩ := bootPort_width_typ e (nsNow s)
  simp [hw, ht]

/-- The H ports of a table of ports. -/
theorem hPorts_eq {s : State} {m : List MapEnt} (h : s.ports.map (fun e => (e.1, e.2.width, e.2.typ)) = m) :
    hPorts s = (m.filter fun e => e.2.2 == .h).map (·.1) := by
  subst h
  simp [hPorts, List.filter_map, Function.comp_def]

theorem refreshValid_of_invalid {s : State} (h : s.ft.valid = false) :
    refreshValid s = setFt (fun f => { f with valid := grandmaster s || s.ft.exch }) s := by simp [refreshValid, h]

/-- The state after the lock of PLL_ROOT, before NW_AUTO requests channels. -/
def rootLocked (s : State) : State :=
  refreshValid (setBoot (fun b => { b with pll := true, mgr := firstH { s with ports := bootPorts s } b.straps.mgrHall })
    { s with ports := bootPorts s })

theorem rootLocked_eq {s : State} (h : s.ft.valid = false) : rootLocked s = { s with
    ports := bootPorts s,
    boot := { s.boot with pll := true, mgr := firstH { s with ports := bootPorts s } s.boot.straps.mgrHall },
    ft := (rootLocked s).ft } := by
  unfold rootLocked
  rw [refreshValid_of_invalid (by exact h)]
  rfl

/-- What NW_AUTO requests leaves everything but the channels as it is. -/
theorem requestAll_eq (l : List Nat) (s : State) : ∃ nw, l.foldl (fun s ch => requestChan ch s) s = { s with nw := nw } := by
  induction l generalizing s with
  | nil => exact ⟨s.nw, rfl⟩
  | cons ch r ih =>
    obtain ⟨nw, hnw⟩ := ih (requestChan ch s)
    exact ⟨nw, hnw⟩

/-- PLL_ROOT locks (R519 to R522): the map, the managing H port, and beside them the clock and Newel's channels alone. -/
theorem exec_pllRootLock_eq {s : State} (hpor : s.boot.por = false) (hpll : s.boot.pll = false) (hbas : s.boot.basalt = false) :
    ∃ dc ft nw, exec .pllRootLock s = .next { rootLocked s with dc := dc, ft := ft, nw := nw } := by
  have hx : exec .pllRootLock s = .next (if s.boot.por || s.boot.pll || s.boot.basalt then s else
      if (rootLocked s).boot.straps.nwAuto then
        (List.range 32).foldl (fun s ch => requestChan ch s) (clockTo (clkP ((rootLocked s).dc + 1)) (rootLocked s))
      else rootLocked s) := rfl
  rw [hx, hpor, hpll, hbas, if_neg (by decide)]
  split
  · obtain ⟨nw, hnw⟩ := requestAll_eq (List.range 32) (clockTo (clkP ((rootLocked s).dc + 1)) (rootLocked s))
    rw [hnw, clockTo_eq]
    exact ⟨_, _, nw, rfl⟩
  · exact ⟨_, _, _, rfl⟩

theorem exec_atriumInitDone_of_locked {s : State} (hpor : s.boot.por = false) (hpll : s.boot.pll = true)
    (hbas : s.boot.basalt = false) : exec .atriumInitDone s = .next (setBoot (fun b => { b with atr := true }) s) := by
  have hx : exec .atriumInitDone s = execAtriumInitDone s := rfl
  simp [hx, execAtriumInitDone, hpor, hpll, hbas]

theorem exec_bedrockReady_passed {s : State} {patchOk : Bool} (hl : live s = true) (hbed : s.boot.bedrock = false)
    (hpatch : s.nv.patch = true → patchOk = true) :
    exec (.bedrockReady patchOk true) s = .next ((hPorts s).foldl trainHost
      { s with boot := { s.boot with bedrock := true, mezz := .loading, rejected := [], image := none },
               sec := { s.sec with testsOk := true, identity := true, drbg := true, drbgReqs := 0 } }) := by
  have hx : exec (.bedrockReady patchOk true) s = execBedrockReady patchOk true s := rfl
  have hp : (s.nv.patch && !patchOk) = false := by
    cases hnv : s.nv.patch
    · rfl
    · simp [hpatch hnv]
  rw [hx, execBedrockReady, act_live hl, hbed, hp, if_neg (by decide), if_neg (by decide), if_neg (by decide)]
  rfl

theorem exec_mezzanineImageVerified_accepted {s : State} {slot : Nat} {flash : Bytes} (hl : live s = true)
    (hbed : s.boot.bedrock = true) (hm : s.boot.mezz = .loading) (hs : loadSlot s = some slot)
    (hf : imageFault (setNv (fun v => { v with images := tset v.images slot (imageOf s flash) }) s) (imageOf s flash) = 0) :
    exec (.mezzanineImageVerified slot (some flash)) s = .next
      (setBoot (fun b => { b with mezz := .started, slot := slot, image := some (imageOf s flash) })
        (setNv (fun v => { v with images := tset v.images slot (imageOf s flash) }) s)) := by
  have hx : exec (.mezzanineImageVerified slot (some flash)) s = execMezzanineImageVerified slot (some flash) s := rfl
  rw [hx, execMezzanineImageVerified, act_live hl, if_neg (by simp [hbed, hm, hs])]
  dsimp only
  rw [if_pos hf]

theorem mem_hPorts {s : State} {p : Nat} (h : isType s .h p = true) : p ∈ hPorts s := by
  unfold isType at h
  cases hq : getPort s p with
  | none => simp [hq] at h
  | some q =>
    rw [hq] at h
    exact List.mem_map.mpr ⟨(p, q), List.mem_filter.mpr ⟨tget_mem hq, h⟩, rfl⟩

/-- `ready` is set at every listed port that exists, and stays set. -/
theorem ready_foldl (l : List Nat) (s : State) (p : Nat) (q : Port) (hq : getPort s p = some q)
    (h : p ∈ l ∨ q.std.ready = true) :
    (getPort (l.foldl (fun s p => setStd p (fun d => { d with ready := true }) s) s) p).map (·.std.ready) = some true := by
  induction l generalizing s q with
  | nil => simpa [hq] using h
  | cons k r ih =>
    rw [List.foldl_cons]
    by_cases hk : k = p
    · subst hk
      exact ih _ { q with std := { q.std with ready := true } } (by simp [hq]) (.inr rfl)
    · refine ih _ q (by simp [setStd, getPort_setPort, hk, hq]) ?_
      rcases h with h | h
      · exact .inl ((List.mem_cons.mp h).resolve_left (Ne.symm hk))
      · exact .inr h

theorem ready_readyAll {s : State} {p : Nat} (h : isType s .h p = true) :
    (getPort (readyAll s) p).map (·.std.ready) = some true := by
  obtain ⟨q, hq⟩ : ∃ q, getPort s p = some q := by
    cases hq : getPort s p with
    | none => simp [isType, hq] at h
    | some q => exact ⟨q, rfl⟩
  exact ready_foldl _ s p q hq (.inl (mem_hPorts h))

theorem readyAll_keeps (s : State) : ((readyAll s).boot, (readyAll s).atr, (readyAll s).sec, (readyAll s).nv, (readyAll s).out)
    = (s.boot, s.atr, s.sec, s.nv, s.out) :=
  foldl_keeps (fun t => (t.boot, t.atr, t.sec, t.nv, t.out)) (fun s p => setStd p (fun d => { d with ready := true }) s)
    (fun _ _ => rfl) (hPorts s) s

theorem exec_mezzanineRunning_started {s : State} (hl : live s = true) (hm : s.boot.mezz = .started) :
    exec .mezzanineRunning s = .next (readyAll (setBoot (fun b => { b with mezz := .running, warm := false }) s)) := by
  have hx : exec .mezzanineRunning s = execMezzanineRunning s := rfl
  rw [hx, execMezzanineRunning, act_live hl, hm]
  rfl

/-- Settles O17: each step of the timeline in its own lemma. -/
theorem bootTimelineRunsInOrder : Obligations.BootTimelineRunsInOrder := by
  unfold Obligations.BootTimelineRunsInOrder
  refine ⟨fun s hpor hpll hbas hft => ?_, fun s => exec_atriumInitDone_of_locked, fun s patchOk => exec_bedrockReady_passed,
    fun s slot flash hl hbed hm hs => ?_, fun s hl hm => ?_⟩
  · obtain ⟨dc, ft, nw, hx⟩ := exec_pllRootLock_eq hpor hpll hbas
    rw [rootLocked_eq hft] at hx
    refine ⟨_, hx, rfl, bootPorts_shape s, ?_, rfl, rfl, rfl, rfl, rfl, rfl⟩
    rw [← hPorts_eq (s := { s with ports := bootPorts s }) (bootPorts_shape s)]
    rfl
  · intro im hf
    exact exec_mezzanineImageVerified_accepted hl hbed hm hs hf
  · have hkeep := readyAll_keeps (setBoot (fun b => { b with mezz := .running, warm := false }) s)
    simp only [Prod.mk.injEq] at hkeep
    obtain ⟨hboot, hatr, hsec, hnv, hout⟩ := hkeep
    exact ⟨_, exec_mezzanineRunning_started hl hm, hboot, fun p hp => ready_readyAll hp, hatr, hsec, hnv, hout⟩

/-! ## A stop of Mezzanine and the sessions of the commands it ends (R59, R76, R531) -/

/-- A PORT_DOWN of session 1 that has not replied yet. -/
def sealedOp : Op :=
  { reply := { origin := .i3c, opcode := 0x0204, tag := 0, status := 0, session := 1, enc := true }, kind := .portDown 0 }

/-- A running device with an established session on MCTP over I3C and one command of it outstanding. -/
def sealedRunning : State :=
  { State.reset with
    boot := { por := false, pin := false, pll := true, atr := true, bedrock := true, mezz := .running,
              resetPend := some (1, 0) },
    sec := { sessions := [{ id := 1, role := .officer, origin := some .i3c, done := true }] },
    ops := [sealedOp] }

theorem exec_watchdogExpiry_sealedRunning : exec .watchdogExpiry sealedRunning = .next (stopMezz 1 0 sealedRunning) := rfl

/-- The ABORTED reply of the outstanding command is encrypted, and its session counts it. -/
theorem stopMezz_counts_sealed_reply : (stopMezz 1 0 sealedRunning).sec.sessions.map (·.rsps) = [1] := by decide

/-- Refutes O18: the security state changes when a command of a session is outstanding, as its ABORTED reply counts there. -/
theorem not_mezzanineStopRestartsUntilTheFifth : ¬ Obligations.MezzanineStopRestartsUntilTheFifth := by
  unfold Obligations.MezzanineStopRestartsUntilTheFifth
  intro h
  obtain ⟨⟨t, ht, -, -, -, -, -, hsec⟩, -⟩ := h sealedRunning (by decide) rfl rfl
  cases exec_watchdogExpiry_sealedRunning.symm.trans ht
  exact absurd (stopMezz_counts_sealed_reply.symm.trans (congrArg (·.sessions.map (·.rsps)) hsec)) (by decide)

theorem exec_deviceResetBegin_sealedRunning : exec .deviceResetBegin sealedRunning =
    .next (mezzRestart (setBoot (fun b => { b with resetPend := none }) (clockTo 0 sealedRunning))) := rfl

theorem mezzRestart_counts_sealed_reply :
    (mezzRestart (setBoot (fun b => { b with resetPend := none }) (clockTo 0 sealedRunning))).sec.sessions.map (·.rsps) = [1] := by
  decide

/-- Refutes O19: KIND 1 answers the outstanding commands of Mezzanine, and an encrypted reply counts in its session. -/
theorem not_deviceResetFollowsItsReplyBy100us : ¬ Obligations.DeviceResetFollowsItsReplyBy100us := by
  unfold Obligations.DeviceResetFollowsItsReplyBy100us
  intro h
  obtain ⟨t, ht, -, -, -, -, -, hsec, -⟩ := h.2.2 sealedRunning 0 rfl rfl rfl rfl
  cases exec_deviceResetBegin_sealedRunning.symm.trans ht
  exact absurd (mezzRestart_counts_sealed_reply.symm.trans (congrArg (·.sessions.map (·.rsps)) hsec)) (by decide)

end Sys2Proof.Machine

/-! ## Commands on ports (R81, R89, R94, R232) -/

namespace Sys2Proof.Machine

open Sys2Proof

theorem entered_ops (c : Cmd) (s : State) : (entered c s).ops = s.ops := by rw [entered_eq]
theorem entered_atr (c : Cmd) (s : State) : (entered c s).atr = s.atr := by rw [entered_eq]
theorem entered_boot (c : Cmd) (s : State) : (entered c s).boot = s.boot := by rw [entered_eq]

theorem portBusy_entered (c : Cmd) (s : State) (n : Nat) : portBusy (entered c s) n = portBusy s n := by
  simp only [portBusy, entered_ops]

theorem tested_entered (c : Cmd) (s : State) (n : Nat) (q : Port) : tested (entered c s) n q = tested s n q := by
  simp only [tested, getLane, entered_lanes]

theorem amberWired_entered (c : Cmd) (s : State) (n : Nat) : amberWired (entered c s) n = amberWired s n := by
  simp only [amberWired, entered_atr]

theorem inUse_of_getPort {s : State} {n : Nat} {q : Port} (h : getPort s n = some q) : inUse s n = true := by simp [inUse, h]

/-! ### What a reply leaves of a port -/

/-- Type, width and state of a port, with the state it had at the start of the cycle. -/
def linkView (q : Port) : PortType × Nat × PortState × Option Was := (q.typ, q.width, q.st, q.was)

theorem map_getPort_setPort {β : Type} (g : Port → β) {f : Port → Port} (hf : ∀ q, g (f q) = g q) (p n : Nat) (s : State) :
    (getPort (setPort p f s) n).map g = (getPort s n).map g := by
  rw [getPort_setPort]
  split
  · next h =>
    subst h
    simp [Function.comp_def, hf]
  · rfl

@[simp] theorem linkView_setStd (p n : Nat) (f : Std → Std) (s : State) :
    (getPort (setStd p f s) n).map linkView = (getPort s n).map linkView :=
  map_getPort_setPort (f := fun q => { q with std := f q.std }) linkView (fun _ => rfl) p n s

@[simp] theorem linkView_putReply (r : Reply) (k : Option Nat) (s : State) (n : Nat) :
    (getPort (putReply r k s) n).map linkView = (getPort s n).map linkView := by
  simp [putReply, getPort]
  split <;> rfl

@[simp] theorem linkView_bumpPort (p off k n : Nat) (s : State) :
    (getPort (bumpPort p off k s) n).map linkView = (getPort s n).map linkView := by
  refine map_getPort_setPort linkView ?_ p n (putInc _ s)
  exact fun _ => rfl

@[simp] theorem linkView_msix (fn : Fn) (v n : Nat) (s : State) :
    (getPort (msix fn v s) n).map linkView = (getPort s n).map linkView := by
  have hemit : ∀ u o, getPort (emit o u) n = getPort u n := fun _ _ => rfl
  have hbay : ∀ u b f, getPort (setBay b f u) n = getPort u n := fun _ _ _ => rfl
  unfold msix
  repeat' split
  all_goals simp only [hemit, hbay, linkView_setStd]

/-- A reply moves no port. -/
@[simp] theorem linkView_sendReply (r : Reply) (s : State) (n : Nat) :
    (getPort (sendReply r s) n).map linkView = (getPort s n).map linkView := by
  unfold sendReply
  dsimp only
  repeat' split
  all_goals simp

@[simp] theorem linkView_abortOp (k : OpKind) (s : State) (n : Nat) :
    (getPort (abortOp k s) n).map linkView = (getPort s n).map linkView := by
  have hops : ∀ o, getPort { s with ops := o } n = getPort s n := fun _ => rfl
  unfold abortOp endOp
  dsimp only
  repeat' split
  all_goals simp only [linkView_sendReply, hops]

/-- An aborted operation leaves a port's type, width and state. -/
theorem getPort_abortOp {s : State} {n : Nat} {q : Port} (k : OpKind) (h : getPort s n = some q) :
    ∃ r, getPort (abortOp k s) n = some r ∧ r.typ = q.typ ∧ r.width = q.width ∧ r.st = q.st ∧ r.was = q.was := by
  have hv := linkView_abortOp k s n
  rw [h] at hv
  obtain ⟨r, hr, hview⟩ := Option.map_eq_some_iff.mp hv
  simp only [linkView, Prod.mk.injEq] at hview
  exact ⟨r, hr, hview⟩

/-! ### The bodies of the commands -/

theorem taken_done {sp : OpSpec} {c : Cmd} {s t : State} {p : Params} {clamps : List Clamp} {data : Bytes}
    (ht : taken sp c s p = true) (hb : (sp.body p c (entered c s)).run [] = .ok ((t, .done 0 data), clamps)) :
    command sp c s = .next (replied sp c s clamps data t) := by
  obtain ⟨hp, hflag⟩ := taken_iff.mp ht
  exact command_done hp hflag hb

theorem taken_later {sp : OpSpec} {c : Cmd} {s t : State} {p : Params} {k : OpKind} {clamps : List Clamp} {data : Bytes}
    (ht : taken sp c s p = true) (hb : (sp.body p c (entered c s)).run [] = .ok ((t, .later k data), clamps)) :
    command sp c s = .next (opened sp c s k clamps data t) := by
  obtain ⟨hp, hflag⟩ := taken_iff.mp ht
  exact command_later hp hflag hb

section
variable {s : State} {p : Params} {n : Nat} {q : Port} (c : Cmd) (hr : raw p 0 2 = some n) (hq : getPort s n = some q)
include hr hq

theorem bodyPortEnable_ok (hst : q.st = .disabled) (ht : tested s n q = false) (hb : portBusy s n = false) :
    (bodyPortEnable p c s).run [] = .ok ((startTraining n s, .done 0 []), []) := by
  simp [bodyPortEnable, portF_ok hr (inUse_of_getPort hq), thePort_ok hq, rejectIf_ok, hst, ht, hb]
  rfl

theorem bodyPortDisable_ok (hst : q.st = .down) (hb : portBusy s n = false) :
    (bodyPortDisable p c s).run []
      = .ok ((portTo n .disabled (setStd n (fun d => { d with amberCause := 0 }) s), .done 0 []), []) := by
  simp [bodyPortDisable, portF_ok hr (inUse_of_getPort hq), thePort_ok hq, rejectIf_ok, hst, hb]
  rfl

theorem bodyPortRelease_ok (hst : q.st = .amber) (hb : portBusy s n = false) :
    (bodyPortRelease p c s).run []
      = .ok ((startTraining n (if q.typ == .h then pf0Reset n s else s), .done 0 []), []) := by
  simp [bodyPortRelease, portF_ok hr (inUse_of_getPort hq), thePort_ok hq, rejectIf_ok, hst, hb]
  rfl

/-- PORT_DOWN on an open port begins a DOWN; a PORT_DOWN outstanding on it is aborted first. -/
theorem bodyPortDown_of_open (hst : q.st ≠ .down) (hdis : q.st ≠ .disabled) :
    (bodyPortDown p c s).run [] = .ok (((meetDown n (abortOp (.portDown n) s)).1, .later (.portDown n) []), []) := by
  simp [bodyPortDown, portF_ok hr (inUse_of_getPort hq), thePort_ok hq, hst, hdis]
  rfl

end

/-- A DOWN by command takes the port where no AMBER reaction waits for it, and none took it in this cycle. -/
theorem meetDown_of_open {s : State} {n : Nat} {q : Port} (hq : getPort s n = some q) (hst : q.st ≠ .down)
    (hw : amberWired s n = []) (ha : q.st = .amber → cameFrom s q = none) :
    meetDown n s = (enterDown n .down (unHold n s), false) := by
  have hamber : (q.st == .amber && (cameFrom s q).isSome) = false := by
    by_cases h : q.st = .amber
    · simp [ha h]
    · simp [h]
  simp [meetDown, lossNow, hw, hq, hamber, hst]

theorem cameFrom_congr {s t : State} {q r : Port} (hd : t.dc = s.dc) (hst : r.st = q.st) (hw : r.was = q.was) :
    cameFrom t r = cameFrom s q := by simp [cameFrom, hd, hst, hw]

/-- Settles O20: each body's branch for the state of the port. -/
theorem portCommandsMoveThePort : Obligations.PortCommandsMoveThePort := by
  unfold Obligations.PortCommandsMoveThePort
  refine ⟨?_, ?_, ?_, ?_, ?_⟩
  · intro s c p n q ht hr hq hst htest hb
    exact taken_done ht (bodyPortEnable_ok c hr hq hst (by rwa [tested_entered]) (by rwa [portBusy_entered]))
  · intro s c p n q ht hr hq hst hb
    exact taken_done ht (bodyPortDisable_ok c hr hq hst (by rwa [portBusy_entered]))
  · intro s c p n q ht hr hq hst hdis hw ha
    have hbody := bodyPortDown_of_open c hr hq hst hdis
    obtain ⟨r, hr', -, -, hrst, hrwas⟩ := getPort_abortOp (.portDown n) hq
    have hcame : cameFrom (abortOp (.portDown n) (entered c s)) r = cameFrom (entered c s) q :=
      cameFrom_congr (by simp) hrst hrwas
    rw [meetDown_of_open hr' (by rwa [hrst]) (by rw [amberWired, abortOp_atr, ← amberWired, amberWired_entered, hw])
      (by rw [hrst, hcame]; exact ha)] at hbody
    exact taken_later ht hbody
  · intro s c p n q ht hr hq hst hb
    exact taken_done ht (bodyPortRelease_ok c hr hq hst (by rwa [portBusy_entered]))
  · intro s c p n k ht hr hk h1 h64 hsum
    refine taken_done ht ?_
    have hf : idF p 0 0 2 none (· < 512) = pure n := idF_ok 0 hr (by simp; omega)
    have hn : rangeF p 1 2 2 1 1 (min 64 (512 - n)) = pure k := rangeF_ok 1 hk h1 (by omega)
    simp only [specPortStatus, bodyPortStatus, hf, hn, pure_bind]
    rfl

/-! ### The port map -/

/-- Settles O21: no entry of the map in force that goes or changes stops the command. -/
theorem portMapSetAppliesALegalMap : Obligations.PortMapSetAppliesALegalMap := by
  unfold Obligations.PortMapSetAppliesALegalMap
  intro s c p n es ht hr hn hes hfault hgone
  refine taken_done ht ?_
  have hf : idF p 0 0 2 none (· ≤ 512) = pure n := idF_ok 0 hr (by simpa using hn)
  simp only [specPortMapSet, bodyPortMapSet, hf, hes, hfault, pure_bind]
  rw [List.find?_eq_none.mpr, List.find?_eq_none.mpr]
  · rfl
  · intro e he
    obtain ⟨hmem, hdiff⟩ := List.mem_filter.mp he
    rcases hgone e hmem with h | ⟨-, -, hb, htest⟩
    · simp [h] at hdiff
    · simp [hb, htest]
  · intro e he
    obtain ⟨hmem, hdiff⟩ := List.mem_filter.mp he
    rcases hgone e hmem with h | ⟨hst, hmgr, -, -⟩
    · simp [h] at hdiff
    · rw [entered_boot]
      rcases hst with h | h <;> simp [h, hmgr]

end Sys2Proof.Machine

/-! ## LINK_UP and a table of bays that is not in rising order (R192) -/

namespace Sys2Proof.Machine

open Sys2Proof

/-- What a step leaves, as `g` reads it. -/
def leftBy {α : Type} (g : State → α) (o : Host.Outcome State Fault Refusal) : Option α :=
  match o with
  | .next t => some (g t)
  | _ => none

/-- A running device whose H port 0 trains, with two bays listed in falling order. -/
def linkUpUnsorted : State :=
  { State.reset with
    boot := { por := false, pin := false, pll := true, atr := true },
    ports := [(0, { typ := .h, width := 1, st := .training })],
    bays := [(5, { hport := 0, loc := 0 }), (3, { hport := 0, loc := 1 })] }

theorem bays_linkUpUnsorted : leftBy (·.bays.length) (exec (.linkUp 0 { width := 1 }) linkUpUnsorted) = some 3 := by decide

/-- Refutes O22: LINK_UP sends the pending vectors of the port's bays, and on a table of bays whose numbers do not rise the
write of a bay adds an entry. -/
theorem not_linkEventsMoveStandardPorts : ¬ Obligations.LinkEventsMoveStandardPorts := by
  unfold Obligations.LinkEventsMoveStandardPorts
  intro h
  obtain ⟨⟨hup, -⟩, -⟩ := h
  obtain ⟨t, r, ht, -, -, -, -, -, -, -, hlen, -⟩ := hup linkUpUnsorted 0 { typ := .h, width := 1, st := .training }
    { width := 1 } (by decide) (by decide) (by decide) (by decide) (by decide) (by decide) (by decide) (by decide)
  have hthree := bays_linkUpUnsorted
  rw [ht] at hthree
  exact absurd (Option.some.inj hthree) (by dsimp only; rw [hlen]; decide)

end Sys2Proof.Machine

/-! ## A checker that holds 64 errors (R122) -/

namespace Sys2Proof.Machine

open Sys2Proof

/-- A locked checker that lists 64 errors: no run of it comes here, as the 64th loses lock. -/
def overfullChecker : Lane := { chkSeed := 7, prbsLock := true, chkErrs := List.replicate 64 0 }

theorem checkBit_overfullChecker : (checkBit 1 (overfullChecker, 0, 0) (prbsShift 1 0 % 2)).2 = (1, 1) := by decide

/-- Refutes O23: the clause on a right bit speaks of every locked checker, also one that lists 64 errors already, and there
`checkBit` counts a loss of lock. -/
theorem not_laneTestsAndEyeScans : ¬ Obligations.LaneTestsAndEyeScans := by
  unfold Obligations.LaneTestsAndEyeScans
  intro h
  obtain ⟨-, -, hbit, -⟩ := h
  obtain ⟨-, hlocked⟩ := hbit 1 overfullChecker 0 0 (prbsShift 1 0 % 2) (by decide)
  have hright := (hlocked rfl).1 (fun hbad => hbad rfl)
  exact absurd (checkBit_overfullChecker.symm.trans hright) (by decide)

/-! ## Faults of clocks and lanes (R28, R39, R99, R101, R120) -/

theorem exec_rootPllLockLoss_of_locked {s : State} (hpor : s.boot.por = false) (hpll : s.boot.pll = true) :
    exec .rootPllLockLoss s = .next (setBoot (fun b => { b with pll := false })
      (setAtr (fun a => { a with stopped := true }) (enterBasalt (srcCentral 0) s))) := by
  have hx : exec .rootPllLockLoss s = execRootPllLockLoss s := rfl
  simp [hx, execRootPllLockLoss, hpor, hpll]

theorem exec_quadPllLockLoss_new {s : State} {k : Nat} (hl : live s = true) (hk : k < 128)
    (hnew : s.boot.quadLost.contains k = false) :
    exec (.quadPllLockLoss k) s = .next
      ((s.ports.filter fun e => ((portLanes e.1 e.2).map quadOf).contains k).foldl (fun s e =>
        if e.2.typ == .span then loseLock e.1 3 s else loseLink e.1 3 s)
        (setBoot (fun b => { b with quadLost := s.boot.quadLost ++ [k] }) s)) := by
  have hx : exec (.quadPllLockLoss k) s = execQuadPllLockLoss k s := rfl
  rw [hx, execQuadPllLockLoss, act_live hl, if_neg (Nat.not_le.mpr hk)]
  simp only [setBoot, hnew, Bool.false_eq_true, if_false]

section
variable {s : State} {l n : Nat} {q : Port} (hl : live s = true) (hp : lanePort s l = some (n, q))
include hl hp

theorem exec_elasticSlip_in_use : exec (.elasticSlip l) s = .next (fireDegr n 1 (bumpLane l 0x10 1 s)) := by
  have hx : exec (.elasticSlip l) s = execElasticSlip l s := rfl
  rw [hx, execElasticSlip, act_live hl, hp]

theorem exec_cdrLockLoss_in_use (hw : l < n + q.widthNow) :
    exec (.cdrLockLoss l) s = .next (loseLock n 4 (setLane l (fun x => { x with cdr := false }) s)) := by
  have hx : exec (.cdrLockLoss l) s = execCdrLockLoss l s := rfl
  have hp' : lanePort (setLane l (fun x => { x with cdr := false }) s) l = some (n, q) := hp
  rw [hx, execCdrLockLoss, act_live hl]
  dsimp only
  rw [hp']
  simp only [hw, if_true]

/-- A miss of the alignment word in a span that is UP, on a lane in use. -/
theorem exec_alignWordMiss_up (ht : q.typ = .span) (hst : q.st = .up) (hw : l < n + q.widthNow) :
    exec (.alignWordMiss l) s = .next (
      let next := (getLane s l).missAt + wordEvery q
      let run := decide (0 < (getLane s l).misses) && decide (s.dc ≤ next)
      let s := if run then clockTo next s else s
      let k := if run then (getLane s l).misses + 1 else 1
      let s := bumpLane l 0x14 1 (setLane l (fun x => { x with misses := k, missAt := s.dc }) s)
      if 3 ≤ k then loseLock n 4 s else s) := by
  have hx : exec (.alignWordMiss l) s = execAlignWordMiss l s := rfl
  have hlane : ∀ d, getLane (clockTo d s) l = getLane s l := fun d => getLane_eq_of_lanes_eq (clockTo_lanes d s) l
  rw [hx, execAlignWordMiss, act_live hl, hp]
  dsimp only
  rw [if_neg (by simp [ht, hst, Nat.not_le.mpr hw])]
  split <;> simp only [hlane]

end

theorem loseLock_of_up {s : State} {n : Nat} {q : Port} (cause : Nat) (hq : getPort s n = some q) (ht : q.typ = .span)
    (hst : q.st = .up) :
    (q.scfg.amber = 1 → loseLock n cause s = fire (srcLink n) cause n noActor s)
      ∧ (q.scfg.amber = 0 → loseLock n cause s = enterHold n s) := by
  constructor <;> intro h <;> simp [loseLock, hq, ht, hst, h]

/-- Settles O24: each fault by its lemma; the counts of misses 2 and 0 select the two cases of ALIGN_WORD_MISS. -/
theorem clockAndLaneFaults : Obligations.ClockAndLaneFaults := by
  unfold Obligations.ClockAndLaneFaults
  refine ⟨⟨fun s => exec_rootPllLockLoss_of_locked, fun s k => exec_quadPllLockLoss_new, fun s l n q => exec_elasticSlip_in_use,
    fun s l n q => exec_cdrLockLoss_in_use, fun s l n q hl hp ht hst hw hm hd => ?_, fun s l n q hl hp ht hst hw hm => ?_⟩,
    fun s n cause q => loseLock_of_up cause⟩
  · have hlane : ∀ d, getLane (clockTo d s) l = getLane s l := fun d => getLane_eq_of_lanes_eq (clockTo_lanes d s) l
    rw [exec_alignWordMiss_up hl hp ht hst hw]
    simp [hm, hd, hlane]
  · rw [exec_alignWordMiss_up hl hp ht hst hw]
    simp [hm]

end Sys2Proof.Machine

/-! ## The CRC-64 of a flit (R136) -/

namespace Sys2Proof.Machine

open Sys2Proof

/-- A bit-serial CRC-64 in the reflected form: the register takes one bit of the data at its least significant end. -/
def crc64Serial (r d : Nat) : Nat := (r / 2) ^^^ (if (r + d) % 2 = 1 then 0xC96C5795D7870F42 else 0)

/-- The bits of a byte, least significant first (R136). -/
def bitsLsbFirst (b : Nat) : List Nat := (List.range 8).map fun k => b / 2 ^ k % 2

theorem crc64Bit_eq (r : Nat) : crc64Bit r = (r / 2) ^^^ (if r % 2 = 1 then 0xC96C5795D7870F42 else 0) := by
  unfold crc64Bit
  split <;> simp

/-- Data in the register and data still to come are the same: a shift with `x` xored into the register takes in the lowest bit
of `x` and leaves the rest of `x` one place lower. -/
theorem crc64Bit_xor (r x : Nat) : crc64Bit (r ^^^ x) = crc64Serial r (x % 2) ^^^ (x / 2) := by
  have hdiv : (r ^^^ x) / 2 = (r / 2) ^^^ (x / 2) := Nat.xor_div_two_pow (n := 1)
  have hmod : (r ^^^ x) % 2 = (r + x % 2) % 2 := by rw [Nat.xor_mod_two_eq, Nat.add_mod_mod]
  rw [crc64Bit_eq, hdiv, hmod, crc64Serial, Nat.xor_assoc, Nat.xor_assoc, Nat.xor_comm (x / 2)]

theorem crc64Bit_iterate_xor (r x n : Nat) :
    crc64Bit^[n] (r ^^^ x) = ((List.range n).map fun k => x / 2 ^ k % 2).foldl crc64Serial r ^^^ (x / 2 ^ n) := by
  induction n with
  | zero => simp
  | succ n ih =>
    rw [Function.iterate_succ_apply', ih, crc64Bit_xor, List.range_succ, List.map_append, List.foldl_append,
      Nat.div_div_eq_div_mul, ← Nat.pow_succ]
    rfl

theorem crc64Byte_eq_foldl (r b : Nat) : crc64Byte r b = (bitsLsbFirst b).foldl crc64Serial r := by
  have hbits : ((List.range 8).map fun k => b % 256 / 2 ^ k % 2) = bitsLsbFirst b := by
    refine List.map_congr_left fun k hk => ?_
    have hpow : 256 = 2 ^ k * 2 ^ (8 - k) := by rw [← pow_add, Nat.add_sub_cancel' (List.mem_range.mp hk).le]; rfl
    have htwo : 2 ∣ 2 ^ (8 - k) := dvd_pow_self 2 (Nat.sub_ne_zero_of_lt (List.mem_range.mp hk))
    rw [hpow, Nat.mod_mul_right_div_self, Nat.mod_mod_of_dvd _ htwo]
  calc crc64Byte r b = crc64Bit^[8] (r ^^^ (b % 256)) := rfl
    _ = (bitsLsbFirst b).foldl crc64Serial r := by
      rw [crc64Bit_iterate_xor, hbits, Nat.div_eq_of_lt (show b % 256 < 2 ^ 8 from Nat.mod_lt _ (by decide)), Nat.xor_zero]

theorem crc64_eq_foldl_bits (bs : Bytes) :
    crc64 bs = (bs.flatMap bitsLsbFirst).foldl crc64Serial (2 ^ 64 - 1) ^^^ (2 ^ 64 - 1) := by
  have hbyte : crc64Byte = fun r b => (bitsLsbFirst b).foldl crc64Serial r := by
    funext r b
    exact crc64Byte_eq_foldl r b
  rw [List.foldl_flatMap, crc64, hbyte]

theorem crc64Serial_lt {r : Nat} (d : Nat) (h : r < 2 ^ 64) : crc64Serial r d < 2 ^ 64 :=
  Nat.xor_lt_two_pow (n := 64) (by omega) (by split <;> decide)

theorem crc64_lt (bs : Bytes) : crc64 bs < 2 ^ 64 := by
  rw [crc64_eq_foldl_bits]
  refine Nat.xor_lt_two_pow (n := 64) ?_ (by decide)
  exact List.foldlRecOn (motive := (· < 2 ^ 64)) _ crc64Serial (by decide) fun r hr d _ => crc64Serial_lt d hr

/-! ## The receiver of a span (R135, R138, R155, R157) -/

/-- A running device with a span in UP at a port. -/
theorem portIs_iff {s : State} {n : Nat} {q : Port} {t : PortType} {st : PortState} :
    portIs s n q t st = true ↔ live s = true ∧ getPort s n = some q ∧ q.typ = t ∧ q.st = st := by
  simp [portIs, and_assoc]

@[simp] theorem getPort_bumpPort_self (p off k : Nat) (s : State) :
    getPort (bumpPort p off k s) p
      = (getPort s p).map fun q => { q with cnt := tput q.cnt off (satAdd 32 (cntVal s (.port p off)) k) } :=
  getPort_setPort_self (putInc _ s) p _

@[simp] theorem getPort_firePipe (p c n : Nat) (s : State) : getPort (firePipe p c s) n = getPort s n := by simp [getPort]

theorem getPort_foldl_setLane (p n : Nat) (f : State → Nat → Lane → Lane) (l : List Nat) (s : State) :
    getPort (l.foldl (fun s k => setLane (p + k) (f s k) s) s) n = getPort s n := by
  have hports : (l.foldl (fun s k => setLane (p + k) (f s k) s) s).ports = s.ports := by
    refine foldl_keeps (·.ports) _ ?_ l s
    exact fun _ _ => rfl
  rw [getPort, hports, getPort]

/-- Reading a flit moves a span's slot count on, and nothing else of its port. -/
theorem getPort_rxAdvance {s : State} {n : Nat} {q : Port} (rx : List (List Nat)) (hq : getPort s n = some q) :
    ∃ k, getPort (rxAdvance n rx s) n = some { q with span := { q.span with rxSlots := k } } := by
  refine ⟨if wordPlace q rx then 1 else q.span.rxSlots + 1, ?_⟩
  simp only [rxAdvance, hq, getPort_setSpan_self]
  rw [getPort_foldl_setLane, hq]
  rfl

theorem getPort_leakGood {s : State} {n : Nat} {q : Port} (h : BitVec 64) (hq : getPort s n = some q) :
    ∃ c, getPort (leakGood n h s) n = some { q with scfg := c } := by
  rw [leakGood, getPort_setPort_self, hq, Option.map_some]
  split
  · exact ⟨q.scfg, rfl⟩
  · exact ⟨_, rfl⟩

/-- The estimate of lost credits is kept in M1280 mode alone (R190). -/
theorem leakFail_of_not_compat {s : State} {n : Nat} (h : ∀ r, getPort s n = some r → r.span.compat = false) :
    leakFail n s = s := by
  unfold leakFail
  split
  · next r hr => simp [h r hr]
  · rfl

section
variable {s : State} {n : Nat} {q : Port} (rx : List (List Nat)) (hp : portIs s n q .span .up = true)
include hp

theorem hears_of_up : hears s n = true := by
  obtain ⟨-, hq, ht, hst⟩ := portIs_iff.mp hp
  simp [hears, hq, ht, hst]

/-- A flit of the type that its row names, or that fails its CRC, passes to the checks. -/
theorem receive_of_up {ty : Nat} (go : RxFlit → State → State)
    (h : (lineFlit s n rx).crcOk = false ∨ typeKnown (hType (lineFlit s n rx).hdr) = false ∨ hType (lineFlit s n rx).hdr = ty) :
    receive n rx ty go s =
      let c := rxCheck n (lineFlit s n rx) (rxAdvance n rx s)
      if !c.2 then c.1
      else if !typeKnown (hType (lineFlit s n rx).hdr) then fireDegr n 2 (bumpPort n oTypeErr 1 c.1)
      else
        match getPort c.1 n with
        | some q => if typeSent q (hType (lineFlit s n rx).hdr) then go (lineFlit s n rx) c.1 else bumpPort n oTypeErr 1 c.1
        | none => c.1 := by
  have hgo : (!hears s n || ((lineFlit s n rx).crcOk && typeKnown (hType (lineFlit s n rx).hdr)
      && hType (lineFlit s n rx).hdr != ty)) = false := by
    rw [hears_of_up hp]
    rcases h with h | h | h <;> simp [h]
  exact if_neg (by simp [hgo])

/-- A span that is not in M1280 mode counts a bad flit, and keeps no estimate of lost credits. -/
theorem leakFail_of_bad_flit (hc : q.span.compat = false) (cause off : Nat) :
    leakFail n (firePipe n cause (bumpPort n off 1 (rxAdvance n rx s)))
      = firePipe n cause (bumpPort n off 1 (rxAdvance n rx s)) := by
  obtain ⟨-, hq, -, -⟩ := portIs_iff.mp hp
  obtain ⟨k, hk⟩ := getPort_rxAdvance rx hq
  refine leakFail_of_not_compat fun r hr => ?_
  rw [getPort_firePipe, getPort_bumpPort_self, hk] at hr
  cases hr
  exact hc

/-- A flit that FEC cannot correct. -/
theorem rxCheck_of_uncorrectable (hc : q.span.compat = false) {f : RxFlit} (hf : f.fec = .uncorrectable) :
    rxCheck n f (rxAdvance n rx s) = (firePipe n 1 (bumpPort n oFecUncorr 1 (rxAdvance n rx s)), false) := by
  rw [rxCheck, hf]
  dsimp only
  rw [leakFail_of_bad_flit rx hp hc]

theorem rxCheck_of_bad_crc (hc : q.span.compat = false) {f : RxFlit} (hf : f.fec = .corrected 0) (hcrc : f.crcOk = false) :
    rxCheck n f (rxAdvance n rx s) = (firePipe n 2 (bumpPort n oCrcErr 1 (rxAdvance n rx s)), false) := by
  rw [rxCheck, hf, hcrc]
  dsimp only
  rw [if_pos rfl, if_pos (by decide), leakFail_of_bad_flit rx hp hc]

end

/-- A flit that passes, with no credit record and no NAK: its acknowledgement acts. -/
theorem rxCheck_of_good {f : RxFlit} (n : Nat) (u : State) (hf : f.fec = .corrected 0) (hcrc : f.crcOk = true)
    (hnak : hNak f.hdr = false) (hcr : hCrValid f.hdr = false) :
    rxCheck n f u
      = (if hAck f.hdr then judgeAck n (hAckSeq f.hdr) false (leakGood n f.hdr u) else leakGood n f.hdr u, true) := by
  simp [rxCheck, hf, hcrc, hnak, hcr]

section
variable {f : RxFlit} {n : Nat} {v : State} {r : Port} (hr : getPort v n = some r) (hseq : hSeq f.hdr = r.span.exp)
include hr hseq

/-- A DATA flit with the SEQ expected whose keys open it is accepted. -/
theorem rxSequence_of_opened {body : Bytes}
    (hb : openBody (rxKeysFor (setSpan n (fun x => { x with idleAt := v.dc }) v) r (hPhase f.hdr)) f = some body) :
    rxSequence n f v = (acceptFlit n (rxKeysFor (setSpan n (fun x => { x with idleAt := v.dc }) v) r (hPhase f.hdr))
      (setSpan n (fun x => { x with idleAt := v.dc }) v), some body) := by
  have hd : (hSeq f.hdr + 4096 - r.span.exp) % 4096 = 0 := by rw [hseq, Nat.add_sub_cancel_left, Nat.mod_self]
  simp only [rxSequence, hr, hd, if_true, hb]

/-- One whose tag fails is asked for again. -/
theorem rxSequence_of_bad_tag
    (hb : openBody (rxKeysFor (setSpan n (fun x => { x with idleAt := v.dc }) v) r (hPhase f.hdr)) f = none) :
    rxSequence n f v = (sendNak n (fireDegr n 8 (bumpPort n oTagErr 1 (setSpan n (fun x => { x with idleAt := v.dc }) v))), none) := by
  have hd : (hSeq f.hdr + 4096 - r.span.exp) % 4096 = 0 := by rw [hseq, Nat.add_sub_cancel_left, Nat.mod_self]
  simp only [rxSequence, hr, hd, if_true, hb]

end

/-- What FLIT_RX_DATA does with a flit that passes: the slots of an accepted body are delivered. -/
theorem exec_flitRxData_live {s : State} (n : Nat) (rx : List (List Nat)) (hl : live s = true) :
    ∃ go, exec (.flitRxData n rx) s = .next (receive n rx 1 go s) ∧ ∀ f u v,
      (∀ body, rxSequence n f u = (v, some body) → go f u = rxSlots n (Crypto.blocks 16 body) v)
        ∧ (rxSequence n f u = (v, none) → go f u = v) :=
  ⟨_, act_live hl _, fun f u v => ⟨fun body h => by rw [h], fun h => by rw [h]⟩⟩

theorem exec_flitRxIdle_live {s : State} (n : Nat) (rx : List (List Nat)) (hl : live s = true) :
    exec (.flitRxIdle n rx) s = .next (receive n rx 0 (fun _ s => s) s) := act_live hl _

/-- Settles O25: the CRC bit by bit, and the branch of the receiver that each clause's header selects. -/
theorem receivedFlitsFollowTheirOrder : Obligations.ReceivedFlitsFollowTheirOrder := by
  unfold Obligations.ReceivedFlitsFollowTheirOrder
  refine ⟨⟨crc64_eq_foldl_bits, by decide +kernel, crc64_lt⟩, fun s n q rx hp hc => ?_⟩
  intro f u
  obtain ⟨hl, hq, ht, hst⟩ := portIs_iff.mp hp
  obtain ⟨k, hk⟩ := getPort_rxAdvance rx hq
  obtain ⟨go, hdata, hgo⟩ := exec_flitRxData_live n rx hl
  have hidle := exec_flitRxIdle_live n rx hl
  refine ⟨fun hfec hty => ?_, fun hfec hcrc => ?_, fun hfec hcrc hack hnak hcr => ?_, fun hfec hcrc hty hack hnak hcr => ?_⟩
  · rw [hdata, receive_of_up rx hp _ (hty.elim (fun h => .inr (.inr h)) .inl), rxCheck_of_uncorrectable rx hp hc hfec]
    rfl
  · rw [hdata, receive_of_up rx hp _ (.inl hcrc), rxCheck_of_bad_crc rx hp hc hfec hcrc]
    rfl
  · intro v
    obtain ⟨c, hv⟩ := getPort_leakGood f.hdr hk
    have hcheck : rxCheck n f u = (v, true) := by
      rw [rxCheck_of_good n u hfec hcrc hnak hcr, hack]
      rfl
    refine ⟨fun hty => ?_, fun hty => ?_, fun r hr hty hseq _ => ?_⟩
    · have hunknown : typeKnown (hType (lineFlit s n rx).hdr) = false := by rw [show hType (lineFlit s n rx).hdr = 3 from hty]; rfl
      rw [hidle, receive_of_up rx hp _ (.inr (.inl hunknown)), hcheck, hunknown]
      rfl
    · rw [hidle, receive_of_up rx hp _ (.inr (.inr hty)), hcheck, hty]
      dsimp only
      rw [hv]
      rfl
    · intro w key
      rw [hv] at hr
      cases hr
      have hrun : exec (.flitRxData n rx) s = .next (go f v) := by
        rw [hdata, receive_of_up rx hp _ (.inr (.inr hty)), hcheck, hty]
        dsimp only
        rw [hv]
        simp only [typeSent, hst]
        rfl
      rw [hrun]
      exact ⟨fun body hbody => congrArg _ ((hgo f v _).1 body (rxSequence_of_opened hv hseq hbody)),
        fun hbody => congrArg _ ((hgo f v _).2 (rxSequence_of_bad_tag hv hseq hbody))⟩
  · have hcheck : rxCheck n f u = (judgeAck n (hAckSeq f.hdr) false (leakGood n f.hdr u), true) := by
      rw [rxCheck_of_good n u hfec hcrc hnak hcr, hack]
      rfl
    rw [hidle, receive_of_up rx hp _ (.inr (.inr hty)), hcheck, hty]
    dsimp only
    cases getPort (judgeAck n (hAckSeq f.hdr) false (leakGood n f.hdr u)) n <;> rfl

end Sys2Proof.Machine

/-! ## The timers of a span and the bounds of its training (R111, R156, R159, R161, R162, R166) -/

namespace Sys2Proof.Machine

open Sys2Proof

section
variable {s : State} {n : Nat} {q : Port} (h : portIs s n q .span .up = true)
include h

theorem exec_ackTmrExpiry_up {t : Nat} (ha : q.span.ackAt = some t) :
    exec (.ackTmrExpiry n) s = .next (sendAck n false (clockTo (t + 2 * q.span.ackTmr) s)) := by
  have hx : exec (.ackTmrExpiry n) s = execAckTmrExpiry n s := rfl
  obtain ⟨hl, hq, ht, hst⟩ := portIs_iff.mp h
  rw [hx, execAckTmrExpiry, act_live hl]
  simp [hq, ha, ht, hst]

theorem exec_replayTmrExpiry_up (hland : q.span.landing ≠ []) :
    exec (.replayTmrExpiry n) s = .next (setSpan n (fun x => { x with
      replayDue := some (clockTo (q.span.replayAt + 2 * q.span.replayTmr) s).dc })
      (clockTo (q.span.replayAt + 2 * q.span.replayTmr) s)) := by
  have hx : exec (.replayTmrExpiry n) s = execReplayTmrExpiry n s := rfl
  obtain ⟨hl, hq, ht, hst⟩ := portIs_iff.mp h
  rw [hx, execReplayTmrExpiry, act_live hl]
  simp [hq, ht, hst, hland]

theorem exec_replayStall_up (hland : q.span.landing ≠ []) :
    exec (.replayStall n) s = .next (forceRetrain n (fireDegr n 6 (clockTo (q.span.stallAt + 2000000) s))) := by
  have hx : exec (.replayStall n) s = execReplayStall n s := rfl
  obtain ⟨hl, hq, ht, hst⟩ := portIs_iff.mp h
  rw [hx, execReplayStall, act_live hl]
  simp [hq, ht, hst, hland]

theorem exec_leakIdleReset_up (k : Cls) (hc : q.span.compat = true) (hland : q.span.landing = []) :
    exec (.leakIdleReset n k) s = .next (leakCheck n (setScfg n (fun c => { c with
      estH := cset c.estH k ((cget q.span.consH k + 4096 - cget q.span.retH k) % 4096 * 2 ^ 16),
      estD := cset c.estD k ((cget q.span.consD k + 65536 - cget q.span.retD k) % 65536 * 2 ^ 16) })
      (clockTo (cget q.span.sentAt k + 16000) s))) := by
  have hx : exec (.leakIdleReset n k) s = execLeakIdleReset n k s := rfl
  obtain ⟨hl, hq, ht, hst⟩ := portIs_iff.mp h
  rw [hx, execLeakIdleReset, act_live hl]
  simp [hq, ht, hst, hc, hland]

end

section
variable {s : State} {n : Nat} {q : Port} (h : portIs s n q .span .training = true)
include h

theorem phaseBound_of_training {b : Nat} {f : Phase → Bool} (hr : q.span.resting = false) (hf : f q.span.phase = true) :
    phaseBound n b f s = failAttempt n (clockTo (q.span.since + b) s) := by
  obtain ⟨-, hq, ht, hst⟩ := portIs_iff.mp h
  simp [phaseBound, hq, ht, hst, hr, hf]

theorem exec_eqTimeout_training (hr : q.span.resting = false)
    (hph : q.span.phase = .align ∨ q.span.phase = .param ∨ q.span.phase = .rate ∨ q.span.phase = .eq) :
    exec (.eqTimeout n) s = .next (failAttempt n (clockTo (q.span.since + 40000000) s)) := by
  have hx : exec (.eqTimeout n) s = execEqTimeout n s := rfl
  rw [hx, execEqTimeout, act_live (portIs_iff.mp h).1, phaseBound_of_training h hr]
  rcases hph with hph | hph | hph | hph <;> rw [hph] <;> rfl

theorem exec_keyxTimeout_training (hr : q.span.resting = false) (hph : q.span.phase = .keyx) :
    exec (.keyxTimeout n) s = .next (failAttempt n (clockTo (q.span.since + 100000000) s)) := by
  have hx : exec (.keyxTimeout n) s = execKeyxTimeout n s := rfl
  rw [hx, execKeyxTimeout, act_live (portIs_iff.mp h).1, phaseBound_of_training h hr (by rw [hph]; rfl)]

theorem exec_initTimeout_training (hr : q.span.resting = false) (hph : q.span.phase = .init) :
    exec (.initTimeout n) s = .next (failAttempt n (clockTo (q.span.since + 200000) s)) := by
  have hx : exec (.initTimeout n) s = execInitTimeout n s := rfl
  rw [hx, execInitTimeout, act_live (portIs_iff.mp h).1, phaseBound_of_training h hr (by rw [hph]; rfl)]

theorem exec_freshTrainingRetry_resting (hr : q.span.resting = true) :
    exec (.freshTrainingRetry n) s = .next (freshAttempt n (clockTo (q.span.since + 2000000) s)) := by
  have hx : exec (.freshTrainingRetry n) s = execFreshTrainingRetry n s := rfl
  obtain ⟨hl, hq, ht, hst⟩ := portIs_iff.mp h
  rw [hx, execFreshTrainingRetry, act_live hl]
  simp [hq, ht, hst, hr]

end

/-- Settles O27: each timer and each bound by its lemma. -/
theorem spanTimersAndTrainingBounds : Obligations.SpanTimersAndTrainingBounds := by
  unfold Obligations.SpanTimersAndTrainingBounds
  refine ⟨fun s n q h => ⟨fun t => exec_ackTmrExpiry_up h, fun hland => ⟨exec_replayTmrExpiry_up h hland,
    exec_replayStall_up h hland⟩, fun k => exec_leakIdleReset_up h k⟩, fun s n q h => ⟨fun hr => ⟨exec_eqTimeout_training h hr,
    exec_keyxTimeout_training h hr, exec_initTimeout_training h hr⟩, exec_freshTrainingRetry_resting h⟩⟩

end Sys2Proof.Machine

/-! ## Key changes of a span (R185, R186, R431, R433) -/

namespace Sys2Proof.Machine

open Sys2Proof

/-- Entering a command counts it in its session: the lock bits stay. -/
theorem entered_lock (c : Cmd) (s : State) : (entered c s).sec.lock = s.sec.lock := by
  have hin : (intake c.origin s).sec = s.sec := by rw [intake_eq]
  unfold entered
  split
  · rw [hin]
  · simp [countCommand, setSec, hin]

theorem isType_of_getPort {s : State} {n : Nat} {q : Port} {t : PortType} (hq : getPort s n = some q) (ht : q.typ = t) :
    isType s t n = true := by simp [isType, hq, ht]

theorem taken_error {sp : OpSpec} {c : Cmd} {s : State} {p : Params} {e : Rej} (ht : taken sp c s p = true)
    (hb : (sp.body p c (entered c s)).run [] = .error e) : command sp c s = .next (refusedWith sp c s e.status e.field) :=
  command_error (taken_iff.mp ht).1 hb

section
variable {s : State} {p : Params} {n : Nat} {q : Port} (c : Cmd) (hr : raw p 0 2 = some n) (hq : getPort s n = some q)
  (ht : q.typ = .span)
include hr hq ht

theorem bodySpanRekey_of_closed (hc : q.span.compat = true) (hlock : s.sec.lock.getLsbD 0 = true) :
    (bodySpanRekey p c s).run [] = .error { status := stNotApproved, field := 0xFFFF } := by
  simp only [bodySpanRekey, typedPortF_ok hr (isType_of_getPort hq ht), thePort_ok hq, pure_bind, hc, hlock]
  rfl

theorem bodySpanRekey_ok (hopen : q.span.compat = false ∨ s.sec.lock.getLsbD 0 = false) (hst : q.st = .up)
    (hk : rekeying q = false) (hb : portBusy s n = false) :
    (bodySpanRekey p c s).run [] = .ok ((startRekey n s, .later (.rekey n) []), []) := by
  have hshut : (q.span.compat && s.sec.lock.getLsbD 0) = false := by
    rcases hopen with h | h
    · rw [h, Bool.false_and]
    · rw [h, Bool.and_false]
  simp only [bodySpanRekey, typedPortF_ok hr (isType_of_getPort hq ht), thePort_ok hq, pure_bind, hshut, hst, hk, hb]
  rfl

end

section
variable {s : State} {n : Nat} {q : Port} (h : portIs s n q .span .up = true)
include h

theorem exec_keyLimitReached_up (hn : 2 ^ 31 ≤ q.scfg.keys.txN) (hk : rekeying q = false) (hidx : q.scfg.keys.txIdx < 65535) :
    exec (.keyLimitReached n) s = .next (sendKeyNext n (q.scfg.keys.txIdx + 1) s) := by
  have hx : exec (.keyLimitReached n) s = execKeyLimitReached n s := rfl
  obtain ⟨hl, hq, ht, hst⟩ := portIs_iff.mp h
  rw [hx, execKeyLimitReached, act_live hl]
  simp only [hq, ht, hst, hk, decide_eq_true hn, startRekey, if_neg (Nat.not_le.mpr hidx)]
  rfl

theorem exec_keyIndexExhausted_up (hn : 2 ^ 31 ≤ q.scfg.keys.txN) (hk : rekeying q = false) (hidx : q.scfg.keys.txIdx = 65535) :
    exec (.keyIndexExhausted n) s = .next (startExchange n s) := by
  have hx : exec (.keyIndexExhausted n) s = execKeyIndexExhausted n s := rfl
  obtain ⟨hl, hq, ht, hst⟩ := portIs_iff.mp h
  rw [hx, execKeyIndexExhausted, act_live hl]
  simp only [hq, ht, hst, hk, decide_eq_true hn, hidx]
  rfl

theorem exec_keyNext_up {k : Nat} (hk : k < 65536) :
    exec (.keyNext n k) s = .next (setScfg n (fun c => { c with keys := { c.keys with rxNext := some k } }) s) := by
  have hx : exec (.keyNext n k) s = execKeyNext n k s := rfl
  obtain ⟨hl, hq, ht, hst⟩ := portIs_iff.mp h
  rw [hx, execKeyNext, act_live hl, Nat.mod_eq_of_lt hk]
  simp [isType_of_getPort hq ht, portSt, hq, hst]

section
variable (hf : q.scfg.keys.fresh = true) {t : State} {b : Bytes} {e : KeyxEnv}
include hf

theorem exec_keyxMgtMessage_bad (htake : keyxTake n b e s = (t, true)) :
    exec (.keyxMgtMessage n b e) s = .next (fireDegr n 13
      (setScfg n (fun c => { c with keys := { c.keys with fresh := false } }) t)) := by
  have hx : exec (.keyxMgtMessage n b e) s = execKeyxMgtMessage n b e s := rfl
  obtain ⟨hl, hq, ht, hst⟩ := portIs_iff.mp h
  rw [hx, execKeyxMgtMessage, act_live hl]
  simp [hq, ht, hst, hf, htake]

/-- A payload after which neither CERT nor SIG is due: the exchange goes on, or is complete. -/
theorem exec_keyxMgtMessage_taken {r : Port} (htake : keyxTake n b e s = (t, false)) (hr : getPort t n = some r)
    (hsig : q.span.sig.isEmpty = false ∨ r.span.sig.isEmpty = true) (hall : q.span.gotAll.1 = true ∨ r.span.gotAll.1 = false) :
    exec (.keyxMgtMessage n b e) s = .next (if r.span.gotAll.1 && r.span.gotAll.2 then
      sendKeyNext n 0 (drawn (setScfg n (fun c => { c with keys := { c.keys with
        fresh := false, newPrk := some (exchangePrk t r) } }) t)) else t) := by
  have hx : exec (.keyxMgtMessage n b e) s = execKeyxMgtMessage n b e s := rfl
  obtain ⟨hl, hq, ht, hst⟩ := portIs_iff.mp h
  have hs : (q.span.sig.isEmpty && !r.span.sig.isEmpty) = false := by rcases hsig with h | h <;> simp [h]
  have ha : (!q.span.gotAll.1 && r.span.gotAll.1) = false := by rcases hall with h | h <;> simp [h]
  rw [hx, execKeyxMgtMessage, act_live hl]
  simp only [hq, ht, hst, hf, if_true, htake, hr, Option.map_some, Option.any_some, hs, ha]
  rfl

end
end

/-- Settles O29: the two branches of SPAN_REKEY's body, and each event's branch. -/
theorem keyChangesOfASpan : Obligations.KeyChangesOfASpan := by
  unfold Obligations.KeyChangesOfASpan
  refine ⟨fun s c p n q ht hr hq hty => ⟨fun hc hlock => ?_, fun hopen hst hk hb => ?_⟩, fun s n q h hn hk =>
    ⟨exec_keyLimitReached_up h hn hk, exec_keyIndexExhausted_up h hn hk⟩, fun s n k q h hk => exec_keyNext_up h hk, ?_⟩
  · exact taken_error ht (bodySpanRekey_of_closed c hr hq hty hc (by rwa [entered_lock]))
  · exact taken_later ht (bodySpanRekey_ok c hr hq hty (by rwa [entered_lock]) hst hk (by rwa [portBusy_entered]))
  · intro s t n q r b e bad h hf htake hr
    refine ⟨fun hbad => ?_, fun hbad hsig hall => ?_⟩
    · subst hbad
      exact exec_keyxMgtMessage_bad h hf htake
    · subst hbad
      rw [exec_keyxMgtMessage_taken h hf htake hr hsig hall]
      exact ⟨fun hg => by simp [hg], fun hg => by simp [hg]⟩

end Sys2Proof.Machine

/-! ## SPAN_TIMERS, SPAN_POLICY and TIME_CONFIG (R156, R159, R176, R312, R313) -/

namespace Sys2Proof.Machine

open Sys2Proof

/-- A value that its range bounds is recorded as a clamp. -/
theorem rangeF_clamped {c : Params} {off w d lo hi v app : Nat} (i : Nat) (h : (raw c off w).getD d = v)
    (happ : nearer lo hi v = app) (hne : v ≠ app) (hno : c.noClamp = false) :
    rangeF c i off w d lo hi = (do modify (recordClamp i v app); pure app) := by
  simp only [rangeF, cfgF, h, clamped, happ, if_neg hne, hno]
  rfl

/-- Under NO_CLAMP such a value is refused, naming its field. -/
theorem rangeF_refused {c : Params} {off w d lo hi v app : Nat} (i : Nat) (h : (raw c off w).getD d = v)
    (happ : nearer lo hi v = app) (hne : v ≠ app) (hno : c.noClamp = true) :
    rangeF c i off w d lo hi = rejectAt stOutOfRange i := by
  simp only [rangeF, cfgF, h, clamped, happ, if_neg hne, hno, if_true]

theorem noClamp_of_taken {sp : OpSpec} {c : Cmd} {s : State} {p : Params} (ht : taken sp c s p = true) :
    p.noClamp = bit c.flags 1 := by rw [passes_bytes (taken_iff.mp ht).1]

/-- The highest ROLE that TIME_CONFIG takes on a port of each type (R312). -/
def topRole : PortType → Nat
  | .span => 2
  | .h => 1
  | .d => 0

section
variable {s : State} {p : Params} {n : Nat} {q : Port} (c : Cmd) (hr : raw p 0 2 = some n) (hq : getPort s n = some q)
  (hb : portBusy s n = false)
include hr hq hb

section
variable (ht : q.typ = .span)
include ht

theorem bodySpanTimers_ok {a t r : Nat} (ha : (raw p 2 1).getD 16 = a) (ha1 : 1 ≤ a) (ha64 : a ≤ 64)
    (hat : (raw p 4 2).getD 100 = t) (ht10 : 10 ≤ t) (ht1000 : t ≤ 1000) (har : (raw p 8 4).getD 2000 = r) (hr500 : 500 ≤ r)
    (hr4 : 4 * t ≤ r) (hrmax : r ≤ 100000) :
    (bodySpanTimers p c s).run []
      = .ok ((setSpan n (fun x => { x with ackCoal := a, ackTmr := t, replayTmr := r }) s, .done 0 []), []) := by
  simp only [bodySpanTimers, typedPortF_ok hr (isType_of_getPort hq ht), rangeF_ok 1 ha ha1 ha64, rangeF_ok 2 hat ht10 ht1000,
    rangeF_ok 3 har (Nat.max_le.mpr ⟨hr500, hr4⟩) hrmax, rejectIf_ok _ hb, pure_bind]
  rfl

theorem bodySpanPolicy_ok {a t i : Nat} (ha : (raw p 2 1).getD q.scfg.amber = a) (ha1 : a ≤ 1)
    (hat : (raw p 3 1).getD q.scfg.threshold = t) (ht1 : 1 ≤ t) (ht100 : t ≤ 100) (hai : (raw p 4 4).getD q.scfg.idle = i)
    (hi : i ≤ 1000000) :
    (bodySpanPolicy p c s).run []
      = .ok ((setScfg n (fun x => { x with amber := a, threshold := t, idle := i }) s, .done 0 []), []) := by
  simp only [bodySpanPolicy, typedPortF_ok hr (isType_of_getPort hq ht), thePort_ok hq, rangeF_ok 1 ha (Nat.zero_le a) ha1,
    rangeF_ok 2 hat ht1 ht100, rangeF_ok 3 hai (Nat.zero_le i) hi, rejectIf_ok _ hb, pure_bind]
  rfl

section
variable (ha : raw p 2 1 = some 100) (hat : raw p 4 2 = some 400) (har : raw p 8 4 = some 1000)
include ha hat har

/-- The worked example of 02: ACK_COAL 100 and REPLAY_TMR 1,000 are clamped to 64 and 4 times ACK_TMR. -/
theorem bodySpanTimers_clamps (hno : p.noClamp = false) :
    (bodySpanTimers p c s).run [] = .ok ((setSpan n (fun x => { x with ackCoal := 64, ackTmr := 400, replayTmr := 1600 }) s,
      .done 0 []), [{ field := 1, requested := 100, applied := 64 }, { field := 3, requested := 1000, applied := 1600 }]) := by
  have h1 : rangeF p 1 2 1 16 1 64 = _ := rangeF_clamped 1 (v := 100) (app := 64) (by rw [ha]; rfl) rfl (by decide) hno
  have h2 : rangeF p 2 4 2 100 10 1000 = pure 400 := rangeF_ok 2 (by rw [hat]; rfl) (by decide) (by decide)
  have h3 : rangeF p 3 8 4 2000 (max 500 (4 * 400)) 100000 = _ :=
    rangeF_clamped 3 (v := 1000) (app := 1600) (by rw [har]; rfl) rfl (by decide) hno
  simp only [bodySpanTimers, typedPortF_ok hr (isType_of_getPort hq ht), h1, h2, h3, rejectIf_ok _ hb, pure_bind, bind_assoc]
  rfl

end
end

theorem bodyTimeConfig_ok {r a : Nat} (hrole : (raw p 2 1).getD 0 = r) (htop : r ≤ topRole q.typ) (ha : (raw p 4 2).getD 0 = a)
    (happ : asymApp a = a) (hone : r = 1 → ∀ e ∈ s.ports, e.2.role = 1 → e.1 = n) :
    (bodyTimeConfig p c s).run []
      = .ok ((refreshValid (setPort n (fun q => { q with role := r, asym := signed 2 a }) s), .done 0 []), []) := by
  have hother : (r == 1 && s.ports.any fun e => e.1 != n && e.2.role == 1) = false := by
    by_cases h : r = 1
    · have hall := hone h
      simp only [h, beq_self_eq_true, Bool.true_and, List.any_eq_false, Bool.and_eq_true, bne_iff_ne, beq_iff_eq]
      exact fun e he ⟨hne, h1⟩ => hne (hall e he h1)
    · simp [h]
  have hset : ∀ top, r ≤ top → elseF p 1 2 1 0 (fun v => decide (v ≤ top)) 0 = pure r :=
    fun top h => elseF_ok 1 hrole (decide_eq_true h)
  simp only [bodyTimeConfig, portF_ok hr (inUse_of_getPort hq), thePort_ok hq, cfgF_ok 2 ha happ, pure_bind]
  cases h : q.typ <;>
    (simp only [h, topRole] at htop ⊢
     rw [hset _ htop, pure_bind, rejectIf_ok _ hother, pure_bind, rejectIf_ok _ hb]
     rfl)

end

theorem bodySpanTimers_refused {s : State} {p : Params} {n : Nat} {q : Port} (c : Cmd) (hr : raw p 0 2 = some n)
    (hq : getPort s n = some q) (ht : q.typ = .span) (ha : raw p 2 1 = some 100) (hno : p.noClamp = true) :
    (bodySpanTimers p c s).run [] = .error { status := stOutOfRange, field := 1 } := by
  have h1 : rangeF p 1 2 1 16 1 64 = _ := rangeF_refused 1 (v := 100) (app := 64) (by rw [ha]; rfl) rfl (by decide) hno
  simp only [bodySpanTimers, typedPortF_ok hr (isType_of_getPort hq ht), h1, pure_bind]
  rfl

/-- Settles O30: each body with its fields in range, and the worked example with its two clamps. -/
theorem spanAndTimeSettings : Obligations.SpanAndTimeSettings := by
  unfold Obligations.SpanAndTimeSettings
  refine ⟨⟨?_, ?_, ?_⟩, ?_⟩
  · intro s c p n a t r q ht hr hq hty hb ha ha1 ha64 hat ht10 ht1000 har hr500 hr4 hrmax
    exact taken_done ht (bodySpanTimers_ok c hr hq (by rwa [portBusy_entered]) hty ha ha1 ha64 hat ht10 ht1000 har hr500 hr4 hrmax)
  · intro s c p n a t i q ht hr hq hty hb ha ha1 hat ht1 ht100 hai hi
    exact taken_done ht (bodySpanPolicy_ok c hr hq (by rwa [portBusy_entered]) hty ha ha1 hat ht1 ht100 hai hi)
  · intro s c p n r a q ht hr hq hb hrole hr2 ha happ hone
    exact taken_done ht (bodyTimeConfig_ok c hr hq (by rwa [portBusy_entered]) hrole
      (by cases h : q.typ <;> simpa [h, topRole] using hr2) ha happ hone)
  · intro s c p q ht hr ha hat har hq hty hb
    refine ⟨fun hno => ?_, fun hno => ?_⟩
    · exact taken_done ht (bodySpanTimers_clamps c hr hq (by rwa [portBusy_entered]) hty ha hat har (by rw [noClamp_of_taken ht, hno]))
    · exact taken_error ht (bodySpanTimers_refused c hr hq hty ha (by rw [noClamp_of_taken ht, hno]))

/-! ## A step of fabric time (R315) -/

/-- A running device whose span 0 is the upstream port of fabric time and waits for TIME_RSP. -/
def timeAsked : State :=
  { State.reset with
    boot := { por := false, pin := false, pll := true, atr := true },
    ports := [(0, { typ := .span, width := 16, st := .up, role := 1, t1 := some 0 })] }

theorem hwSet_timeAsked : leftBy (·.hwSet.2.length) (exec (.timeRsp 0 20000 0 0) timeAsked) = some 1 := by decide

/-- Refutes O31: an offset above 1,000 ns sets the STEPPED bit by hardware, which the device notes in `hwSet`, and the last clause
keeps every field but fabric time, the ports and Atrium. -/
theorem not_timeExchangesSetTheOffset : ¬ Obligations.TimeExchangesSetTheOffset := by
  unfold Obligations.TimeExchangesSetTheOffset
  intro h
  obtain ⟨-, -, hrsp, -⟩ := h
  obtain ⟨t, ht, -, -, -, -, -, -, -, hframe⟩ := hrsp timeAsked 0 { typ := .span, width := 16, st := .up, role := 1, t1 := some 0 }
    0 20000 0 0 (by decide) (by decide) rfl rfl rfl
  have hone := hwSet_timeAsked
  rw [ht] at hone
  have hkept : t.hwSet = timeAsked.hwSet := by rw [hframe]
  exact absurd (Option.some.inj hone) (by dsimp only; rw [hkept]; decide)

end Sys2Proof.Machine

/-! ## What sending a flit leaves of a port -/

namespace Sys2Proof.Machine

open Sys2Proof

/-- A port without what the transmitter keeps of its own flits: the count of slots and what the next header carries. -/
def sentView (q : Port) : Port := { q with span := { q.span with txSlots := 0, ackDue := none, crPtr := 0, crH := {}, crD := {} } }

theorem sentView_headerSent (r q : Port) : sentView { q with span := headerSent r q.span } = sentView q := by
  unfold headerSent
  cases crOut r <;> rfl

theorem sentView_setSpan (p n : Nat) (s : State) {f : Span → Span} (hf : ∀ q : Port, sentView { q with span := f q.span } = sentView q) :
    (getPort (setSpan p f s) n).map sentView = (getPort s n).map sentView :=
  map_getPort_setPort (f := fun q => { q with span := f q.span }) sentView hf p n s

/-- Writes of lanes leave every port. -/
theorem getPort_foldl_lanes {β : Type} (l : List β) (k : β → Nat) (f : State → β → Lane → Lane) (n : Nat) (s : State) :
    getPort (l.foldl (fun s b => setLane (k b) (f s b) s) s) n = getPort s n := by
  have hports : (l.foldl (fun s b => setLane (k b) (f s b) s) s).ports = s.ports := by
    refine foldl_keeps (·.ports) _ ?_ l s
    exact fun _ _ => rfl
  rw [getPort, hports, getPort]

theorem sentView_sendWord (p n : Nat) (s : State) : (getPort (sendWord p s) n).map sentView = (getPort s n).map sentView := by
  unfold sendWord
  split
  · rw [sentView_setSpan _ _ _ (fun _ => rfl), getPort_foldl_lanes]
    rfl
  · rfl

theorem sentView_putFlit (p : Nat) (coded : Bytes) (n : Nat) (s : State) :
    (getPort (putFlit p coded s) n).map sentView = (getPort s n).map sentView := by
  unfold putFlit
  split
  · dsimp only
    split
    · rw [sentView_sendWord, sentView_setSpan _ _ _ (fun _ => rfl), getPort_foldl_lanes]
      rfl
    · rw [sentView_setSpan _ _ _ (fun _ => rfl), getPort_foldl_lanes]
      rfl
  · rfl

theorem sentView_sendSlots (k p ty seq : Nat) (ph : Bool) (payload : Bytes) (n : Nat) (s : State) :
    (getPort (sendSlots k p ty seq ph payload s) n).map sentView = (getPort s n).map sentView := by
  have hsent : ∀ r coded (s : State), (getPort (setSpan p (headerSent r) (putFlit p coded s)) n).map sentView
      = (getPort s n).map sentView := fun r coded s => by
    rw [sentView_setSpan _ _ _ (sentView_headerSent r), sentView_putFlit]
  induction k generalizing s with
  | zero =>
    unfold sendSlots
    split
    · exact hsent _ _ s
    · rfl
  | succ k ih =>
    unfold sendSlots
    split
    · dsimp only
      split
      · exact hsent _ _ s
      · rw [ih, hsent]
    · rfl

theorem sentView_sendPlain (p ty : Nat) (payload : Bytes) (n : Nat) (s : State) :
    (getPort (sendPlain p ty payload s) n).map sentView = (getPort s n).map sentView := sentView_sendSlots ..

theorem sentView_sendTrain (p n : Nat) (s : State) : (getPort (sendTrain p s) n).map sentView = (getPort s n).map sentView := by
  unfold sendTrain
  split
  · exact sentView_sendPlain ..
  · rfl

/-- A port that looks the same but for its transmitter is there, with all that its transmitter does not own. -/
theorem getPort_of_sentView {s t : State} {n : Nat} {q : Port} (h : (getPort t n).map sentView = (getPort s n).map sentView)
    (hq : getPort s n = some q) : ∃ r, getPort t n = some r ∧ sentView r = sentView q := by
  rw [hq] at h
  exact Option.map_eq_some_iff.mp h

/-! ## Training flits and the phases (R162, R164 to R171) -/

section
variable {s : State} {n : Nat} {q : Port} (rx : List (List Nat)) (hp : portIs s n q .span .training = true)
  (ha : (getLane s n).aligned = true) (hrest : q.span.resting = false)
include hp ha hrest

theorem hears_of_training : hears s n = true := by
  obtain ⟨-, hq, ht, hst⟩ := portIs_iff.mp hp
  simp [hears, hq, ht, hst, ha, hrest]

/-- A flit of training that passes the receiver reaches its row's effect. -/
theorem receive_of_training {ty : Nat} (go : RxFlit → State → State) (hty : hType (lineFlit s n rx).hdr = ty)
    (hknown : ty = 8 ∨ ty = 9 ∨ ty = 10) (hfec : (lineFlit s n rx).fec = .corrected 0) (hcrc : (lineFlit s n rx).crcOk = true)
    (hack : hAck (lineFlit s n rx).hdr = false) (hnak : hNak (lineFlit s n rx).hdr = false)
    (hcr : hCrValid (lineFlit s n rx).hdr = false) :
    receive n rx ty go s = go (lineFlit s n rx) (leakGood n (lineFlit s n rx).hdr (rxAdvance n rx s)) := by
  obtain ⟨hl, hq, ht, hst⟩ := portIs_iff.mp hp
  obtain ⟨k, hk⟩ := getPort_rxAdvance rx hq
  obtain ⟨c, hv⟩ := getPort_leakGood (lineFlit s n rx).hdr hk
  have hcheck := rxCheck_of_good n (rxAdvance n rx s) hfec hcrc hnak hcr
  rw [hack, if_neg Bool.false_ne_true] at hcheck
  unfold receive
  simp only [hears_of_training hp ha hrest, hcheck, hv, hty, hst]
  rcases hknown with rfl | rfl | rfl <;> simp [typeKnown, typeSent, hcrc]

end

end Sys2Proof.Machine

/-! ## Training flits drive the phases; fresh training agrees (R118, R119, R146, R162 to R171) -/

namespace Sys2Proof.Machine

open Sys2Proof

section
variable {s : State} {n : Nat} {q : Port} (rx : List (List Nat)) (hp : portIs s n q .span .training = true)
  (ha : (getLane s n).aligned = true) (hrest : q.span.resting = false) (hfec : (lineFlit s n rx).fec = .corrected 0)
  (hcrc : (lineFlit s n rx).crcOk = true) (hack : hAck (lineFlit s n rx).hdr = false)
  (hnak : hNak (lineFlit s n rx).hdr = false) (hcr : hCrValid (lineFlit s n rx).hdr = false)
include hp ha hrest hfec hcrc hack hnak hcr

theorem exec_flitRxTrain_training (ask : List Nat) (hty : hType (lineFlit s n rx).hdr = 8) :
    exec (.flitRxTrain n rx ask) s = .next (takeTrain n (trainOf (lineFlit s n rx).payload) ask
      (leakGood n (lineFlit s n rx).hdr (rxAdvance n rx s))) := by
  have hx : exec (.flitRxTrain n rx ask) s = execFlitRxTrain n rx ask s := rfl
  obtain ⟨hl, hq, ht, hst⟩ := portIs_iff.mp hp
  obtain ⟨k, hk⟩ := getPort_rxAdvance rx hq
  obtain ⟨c, hv⟩ := getPort_leakGood (lineFlit s n rx).hdr hk
  rw [hx, execFlitRxTrain, act_live hl, receive_of_training rx hp ha hrest _ hty (by simp) hfec hcrc hack hnak hcr]
  simp only [hv, hst]
  rfl

theorem exec_flitRxKeyx_training (env : KeyxEnv) (hty : hType (lineFlit s n rx).hdr = 9) :
    exec (.flitRxKeyx n rx env) s = .next (takeKeyx n (lineFlit s n rx).payload env
      (leakGood n (lineFlit s n rx).hdr (rxAdvance n rx s))) := by
  have hx : exec (.flitRxKeyx n rx env) s = execFlitRxKeyx n rx env s := rfl
  rw [hx, execFlitRxKeyx, act_live (portIs_iff.mp hp).1,
    receive_of_training rx hp ha hrest _ hty (by simp) hfec hcrc hack hnak hcr]

theorem exec_flitRxInit_training (hty : hType (lineFlit s n rx).hdr = 10) :
    exec (.flitRxInit n rx) s = .next (takeInit n (initOf (lineFlit s n rx).payload)
      (leakGood n (lineFlit s n rx).hdr (rxAdvance n rx s))) := by
  have hx : exec (.flitRxInit n rx) s = execFlitRxInit n rx s := rfl
  rw [hx, execFlitRxInit, act_live (portIs_iff.mp hp).1,
    receive_of_training rx hp ha hrest _ hty (by simp) hfec hcrc hack hnak hcr]

end

section
variable {s : State} {n : Nat} {q : Port} {words : List (List Nat)} (skew : Nat) (ctle : List Nat) (hl : live s = true)
  (hq : getPort s n = some q) (ht : q.typ = .span) (hrest : q.span.resting = false) (hw : words.length = q.widthNow)
  (hws : (words.filterMap readWord).length = q.widthNow)
include hl hq ht hrest hw hws

/-- Alignment words on every lane, in one of the two orders and within the skew bound: ALIGN ends, and HOLD with it. -/
theorem exec_alignmentFound_of_order {inv : List Bool} {rev : Bool} (hskew : skew ≤ 1024)
    (ho : wordOrder (words.filterMap readWord) = some (inv, rev)) :
    (q.st = .training → q.span.phase = .align →
        exec (.alignmentFound n words skew ctle) s = .next (sendTrain n (found n inv rev ctle s)))
      ∧ (q.st = .hold →
        exec (.alignmentFound n words skew ctle) s = .next (sendTrain n (found n inv rev ctle (retainedTraining n s)))) := by
  have hx : exec (.alignmentFound n words skew ctle) s = execAlignmentFound n words skew ctle s := rfl
  rw [hx, execAlignmentFound, act_live hl]
  simp only [hq, ht, hrest, hw, hws, if_pos hskew, ho]
  refine ⟨fun hst hph => ?_, fun hst => ?_⟩
  · simp [hst, hph]
  · simp [hst]

/-- Other words fail the attempt. -/
theorem exec_alignmentFound_of_no_order (hbad : 1024 < skew ∨ wordOrder (words.filterMap readWord) = none)
    (hst : q.st = .training) (hph : q.span.phase = .align) :
    exec (.alignmentFound n words skew ctle) s = .next (failAttempt n s) := by
  have hx : exec (.alignmentFound n words skew ctle) s = execAlignmentFound n words skew ctle s := rfl
  have hnone : (if skew ≤ 1024 then wordOrder (words.filterMap readWord) else none) = none := by
    rcases hbad with h | h
    · exact if_neg (Nat.not_le.mpr h)
    · rw [h, ite_self]
  rw [hx, execAlignmentFound, act_live hl]
  simp only [hq, ht, hrest, hw, hws, hnone, hst, hph]
  simp

end

/-! ### Fresh training agrees (R165) -/

theorem getPort_rateLanes (p w r n : Nat) (s : State) : getPort (rateLanes p w r s) n = getPort s n := by
  unfold rateLanes
  split
  · exact getPort_foldl_lanes ..
  · rfl

theorem getPort_setLanes (p : Nat) (f : Lane → Lane) (n : Nat) (s : State) : getPort (setLanes p f s) n = getPort s n := by
  unfold setLanes
  split
  · exact getPort_foldl_lanes _ id ..
  · rfl

theorem sentView_sendPhase1 (p n : Nat) (s : State) :
    (getPort (sendPhase1 p s) n).map sentView = (getPort s n).map sentView := by
  rw [sendPhase1, sentView_sendTrain, sentView_sendWord]

/-- Phase 1's word and TRAIN flit leave the width, the rate and what the two ends agreed. -/
theorem sendPhase1_keeps {s : State} {n w r : Nat} {ph : Phase} {pa inc : Option Nat}
    (h : (getPort s n).map (fun q => (q.widthNow, q.rate, q.span.phase, q.span.partner, q.span.incarn)) = some (w, r, ph, pa, inc)) :
    ∃ q, getPort (sendPhase1 n s) n = some q ∧ q.widthNow = w ∧ q.rate = r ∧ q.span.phase = ph ∧ q.span.partner = pa
      ∧ q.span.incarn = inc := by
  obtain ⟨x, hx, hfields⟩ := Option.map_eq_some_iff.mp h
  obtain ⟨y, hy, hview⟩ := getPort_of_sentView (sentView_sendPhase1 n n s) hx
  simp only [Prod.mk.injEq] at hfields
  obtain ⟨hw, hr, hph, hpa, hinc⟩ := hfields
  exact ⟨y, hy, (congrArg (·.widthNow) hview).trans hw, (congrArg (·.rate) hview).trans hr,
    (congrArg (·.span.phase) hview).trans hph, (congrArg (·.span.partner) hview).trans hpa,
    (congrArg (·.span.incarn) hview).trans hinc⟩

theorem agree_of_fresh {s : State} {n : Nat} {q : Port} {t : Train} (hq : getPort s n = some q) (hret : q.span.retained = false)
    (htret : t.retained = false) (hser : s.nv.serial ≠ t.serial) :
    ∃ r, getPort (agree n t s) n = some r ∧ r.widthNow = min q.width t.maxWidth
      ∧ r.rate = 7 + max (ownRate q.span.compat) t.maxRate ∧ r.span.phase = .rate ∧ r.span.partner = some t.serial
      ∧ r.span.incarn = some (if s.nv.serial < t.serial then q.span.proposal else t.incarn) := by
  have hinc : (if s.nv.serial < t.serial then q.span.proposal
      else if t.serial < s.nv.serial then t.incarn else freeVal s % 2 ^ 32)
        = if s.nv.serial < t.serial then q.span.proposal else t.incarn := by
    split
    · rfl
    · exact if_pos (by omega)
  unfold agree
  simp only [hq, hret, htret, if_neg hser, hinc, bne_self_eq_false, Bool.false_eq_true, if_false]
  apply sendPhase1_keeps
  rw [getPort_rateLanes, getPort_setLanes, getPort_setPort_self, getPort_setSpan_self, hq]
  rfl

/-! ### INIT enters UP (R146, R169) -/

/-- What a port's change shows its VHs are notices of hot-plug, and nothing else. -/
theorem mirror_eq (p : Nat) (b s : State) : mirror p b s = { s with out := (mirror p b s).out } := by
  suffices h : ({ mirror p b s with out := [] } : State) = { s with out := [] } from
    congrArg (fun u : State => { u with out := (mirror p b s).out }) h
  unfold mirror
  split
  · refine foldl_keeps (fun u : State => ({ u with out := [] } : State)) _ (fun u e => ?_) _ s
    dsimp only
    repeat' split
    all_goals rfl
  · rfl

theorem getPort_mirror (p : Nat) (b s : State) (n : Nat) : getPort (mirror p b s) n = getPort s n := by rw [mirror_eq]; rfl

theorem ops_mirror (p : Nat) (b s : State) : (mirror p b s).ops = s.ops := by rw [mirror_eq]

/-- A port as it enters a state. -/
def enteredState (p : Nat) (st : PortState) (s : State) (q : Port) : Port :=
  { q with
    st := st, was := some (wasOf s p q),
    scfg := if st = .up then { q.scfg with outSince := none, graceOut := false }
            else if q.st = .up then { q.scfg with outSince := some s.dc } else q.scfg }

theorem setState_of_no_group {s : State} {n : Nat} (st : PortState) (hg : groupOf s n = none) :
    setState n st s = setPort n (enteredState n st s) s := by
  have hkept : ∀ f, groupOf (setPort n f s) n = none := fun _ => hg
  unfold setState regroupPort
  dsimp only
  rw [hkept]
  rfl

/-- A port that no group holds enters UP: its span and its resize stay. -/
theorem portTo_up {s : State} {n : Nat} {q : Port} (hq : getPort s n = some q) (hg : groupOf s n = none) :
    (∃ r, getPort (portTo n .up s) n = some r ∧ r.st = .up ∧ r.span = q.span ∧ r.scfg.rs = q.scfg.rs)
      ∧ (portTo n .up s).ops = s.ops := by
  have hstay : portTo n .up s = mirror n s (setState n .up s) := by simp [portTo, hq]
  rw [hstay, getPort_mirror, ops_mirror, setState_of_no_group _ hg, getPort_setPort_self, hq]
  exact ⟨⟨enteredState n .up s q, rfl, rfl, rfl, rfl⟩, rfl⟩

theorem startReplay_of_empty {s : State} {n : Nat} {q : Port} (hq : getPort s n = some q) (hland : q.span.landing = []) :
    startReplay n s = s := by simp [startReplay, hq, hland]

theorem endResize_of_none {s : State} {n : Nat} {q : Port} (hq : getPort s n = some q) (hrs : q.scfg.rs = {})
    (hop : findOp s (.spanResize n) = none) : endResize n s = s := by simp [endResize, hq, hrs, hop]

theorem findOp_congr {s t : State} (h : t.ops = s.ops) (k : OpKind) : findOp t k = findOp s k := by rw [findOp, h, ← findOp]

theorem spanUp_of_fresh {s : State} {n : Nat} {q : Port} (i : InitP) (hq : getPort s n = some q) (hret : q.span.retained = false)
    (hland : q.span.landing = []) (hrs : q.scfg.rs = {}) (hop : findOp s (.spanResize n) = none) (hg : groupOf s n = none) :
    ∃ r, getPort (spanUp n i s) n = some r ∧ r.st = .up ∧ r.span.advH = i.advH ∧ r.span.advD = i.advD := by
  unfold spanUp
  simp only [hq, hret]
  have hu : getPort (setSpan n (fun x => { x with
      retained := false, resting := false, replayAt := s.dc, stallAt := s.dc, idleAt := s.dc, replayEnd := s.dc })
      (setSpan n (fun x => { x with advH := i.advH, advD := i.advD }) s)) n = some { q with span := { q.span with
        advH := i.advH, advD := i.advD, retained := false, resting := false, replayAt := s.dc, stallAt := s.dc, idleAt := s.dc,
        replayEnd := s.dc } } := by
    rw [getPort_setSpan_self, getPort_setSpan_self, hq]
    rfl
  obtain ⟨⟨r, hr, hst, hspan, hrs'⟩, hops⟩ := portTo_up hu hg
  have hland' : r.span.landing = [] := by rw [hspan]; exact hland
  have hup := startReplay_of_empty hr hland'
  have hend := endResize_of_none hr (hrs'.trans hrs) ((findOp_congr hops _).trans hop)
  refine ⟨r, ?_, hst, by rw [hspan], by rw [hspan]⟩
  rw [← hr]
  exact congrArg (getPort · n) ((congrArg (endResize n) hup).trans hend)

/-- Settles O26: the receiver in TRAINING, the two orders of alignment words, and what sending leaves of the port. -/
theorem trainingPhasesAgree : Obligations.TrainingPhasesAgree := by
  unfold Obligations.TrainingPhasesAgree
  refine ⟨⟨fun s n q rx hp ha hrest => ?_, fun s n skew q words ctle hl hq ht hrest hw hws => ?_⟩,
    fun s n q t => agree_of_fresh, fun s n q i => spanUp_of_fresh i⟩
  · intro f v hfec hcrc hack hnak hcr
    exact ⟨fun ask => exec_flitRxTrain_training rx hp ha hrest hfec hcrc hack hnak hcr ask,
      fun env => exec_flitRxKeyx_training rx hp ha hrest hfec hcrc hack hnak hcr env,
      exec_flitRxInit_training rx hp ha hrest hfec hcrc hack hnak hcr⟩
  · exact ⟨fun inv rev => exec_alignmentFound_of_order skew ctle hl hq ht hrest hw hws,
      exec_alignmentFound_of_no_order skew ctle hl hq ht hrest hw hws⟩

end Sys2Proof.Machine

/-! ## Resizes of a span (R82, R177 to R182) -/

namespace Sys2Proof.Machine

open Sys2Proof

/-- Two changes of a port that agree on the port as it stands. -/
theorem setPort_congr {s : State} {n : Nat} {q : Port} {f g : Port → Port} (hq : getPort s n = some q) (h : f q = g q) :
    setPort n f s = setPort n g s := by
  unfold getPort at hq
  simp only [setPort, tmod, hq, h]

theorem leakGood_of_not_compat {s : State} {n : Nat} {q : Port} (h : BitVec 64) (hq : getPort s n = some q)
    (hc : q.span.compat = false) : getPort (leakGood n h s) n = some q := by
  rw [leakGood, getPort_setPort_self, hq, Option.map_some, hc]
  rfl

/-! ### An accepted flit leaves the settings of its span -/

theorem rs_of_sentView {s t : State} {n : Nat} (h : (getPort t n).map sentView = (getPort s n).map sentView) :
    (getPort t n).map (·.scfg.rs) = (getPort s n).map (·.scfg.rs) := by
  have hv := congrArg (Option.map fun q : Port => q.scfg.rs) h
  rw [Option.map_map, Option.map_map] at hv
  exact hv

theorem rs_setSpan (p : Nat) (f : Span → Span) (s : State) (n : Nat) :
    (getPort (setSpan p f s) n).map (·.scfg.rs) = (getPort s n).map (·.scfg.rs) :=
  map_getPort_setPort (f := fun q => { q with span := f q.span }) (·.scfg.rs) (fun _ => rfl) p n s

theorem rs_sendPlain (p ty : Nat) (payload : Bytes) (s : State) (n : Nat) :
    (getPort (sendPlain p ty payload s) n).map (·.scfg.rs) = (getPort s n).map (·.scfg.rs) :=
  rs_of_sentView (sentView_sendPlain ..)

theorem rs_sendTrain (p : Nat) (s : State) (n : Nat) :
    (getPort (sendTrain p s) n).map (·.scfg.rs) = (getPort s n).map (·.scfg.rs) := rs_of_sentView (sentView_sendTrain ..)

theorem rs_sendKeyx (p : Nat) (s : State) (n : Nat) :
    (getPort (sendKeyx p s) n).map (·.scfg.rs) = (getPort s n).map (·.scfg.rs) := by
  unfold sendKeyx
  repeat' split
  · rfl
  · rw [rs_setSpan, rs_sendPlain]
  · rfl

theorem rs_sendInit (p : Nat) (s : State) (n : Nat) :
    (getPort (sendInit p s) n).map (·.scfg.rs) = (getPort s n).map (·.scfg.rs) := by
  unfold sendInit
  dsimp only
  repeat' split
  · rw [rs_setSpan, rs_sendPlain]
  · rw [rs_sendPlain]
  · rfl

theorem rs_idleSlot (p : Nat) (s : State) (n : Nat) :
    (getPort (idleSlot p s) n).map (·.scfg.rs) = (getPort s n).map (·.scfg.rs) := by
  unfold idleSlot
  repeat' split
  all_goals simp only [rs_sendPlain, rs_sendTrain, rs_sendKeyx, rs_sendInit]

theorem rs_coalesce (p : Nat) (s : State) (n : Nat) :
    (getPort (coalesce p s) n).map (·.scfg.rs) = (getPort s n).map (·.scfg.rs) := by
  unfold coalesce sendAck
  repeat' split
  · rw [rs_idleSlot, rs_setSpan]
  · rw [rs_setSpan]
  · rfl

theorem rs_acceptFlit (p : Nat) (k : SpanKeys) (s : State) (n : Nat) :
    (getPort (acceptFlit p k s) n).map (·.scfg.rs) = (getPort s n).map (·.scfg.rs) := by
  unfold acceptFlit
  dsimp only
  rw [rs_coalesce]
  refine (map_getPort_setPort (f := fun q => { q with scfg := { q.scfg with keys := { k with rxN := k.rxN + 1 } } })
    (·.scfg.rs) (fun _ => rfl) p n _).trans ?_
  rw [rs_setSpan]

/-! ### The rows -/

theorem rs_of_accepted {s w x : State} {n : Nat} {q : Port} (rx : List (List Nat)) (hq : getPort s n = some q)
    (hc : q.span.compat = false) (h : BitVec 64) (f : Span → Span) (k : SpanKeys)
    (hw : setSpan n f (leakGood n h (rxAdvance n rx s)) = w) (hx : acceptFlit n k w = x) :
    ∃ y, getPort x n = some y ∧ y.scfg.rs = q.scfg.rs := by
  obtain ⟨i, hi⟩ := getPort_rxAdvance rx hq
  have hv := leakGood_of_not_compat h hi hc
  refine Option.map_eq_some_iff.mp ?_
  rw [← hx, rs_acceptFlit, ← hw, rs_setSpan, hv]
  rfl

section
variable {s : State} {n : Nat} {q : Port} (rx : List (List Nat)) (hp : portIs s n q .span .up = true)
  (hc : q.span.compat = false) {r : Port} (hr : getPort (leakGood n (lineFlit s n rx).hdr (rxAdvance n rx s)) n = some r)
  (hfec : (lineFlit s n rx).fec = .corrected 0) (hcrc : (lineFlit s n rx).crcOk = true)
  (hty : hType (lineFlit s n rx).hdr = 2) (hack : hAck (lineFlit s n rx).hdr = false)
  (hnak : hNak (lineFlit s n rx).hdr = false) (hcr : hCrValid (lineFlit s n rx).hdr = false)
  (hseq : hSeq (lineFlit s n rx).hdr = q.span.exp) {w x : State} {body : Bytes}
  (hw : setSpan n (fun x => { x with idleAt := (leakGood n (lineFlit s n rx).hdr (rxAdvance n rx s)).dc })
    (leakGood n (lineFlit s n rx).hdr (rxAdvance n rx s)) = w)
  (hopen : openBody (rxKeysFor w r (hPhase (lineFlit s n rx).hdr)) (lineFlit s n rx) = some body)
  (hx : acceptFlit n (rxKeysFor w r (hPhase (lineFlit s n rx).hdr)) w = x)
include hp hc hr hfec hcrc hty hack hnak hcr hseq hw hopen hx

/-- An accepted CONTROL flit acts by its operation. -/
theorem ctrlFlit_of_accepted {op : Nat} (go : ResizeBody → State → State) (hop : (ctrlOf body).op = op) :
    ctrlFlit n op rx go s = go (ctrlOf body) x := by
  obtain ⟨-, hq, -, hst⟩ := portIs_iff.mp hp
  obtain ⟨k, hk⟩ := getPort_rxAdvance rx hq
  have hv := leakGood_of_not_compat (lineFlit s n rx).hdr hk hc
  cases Option.some.inj (hv.symm.trans hr)
  have hcheck := rxCheck_of_good n (rxAdvance n rx s) hfec hcrc hnak hcr
  rw [hack, if_neg Bool.false_ne_true] at hcheck
  subst hw
  have hrx := rxSequence_of_opened hv hseq hopen
  rw [hx] at hrx
  rw [ctrlFlit, receive_of_up rx hp _ (.inr (.inr hty)), hcheck, hty]
  dsimp only
  rw [hv]
  simp only [typeSent, hst, hrx, if_pos hop]
  rfl

theorem exec_resizeReq_of_free (hreq : q.scfg.rs.req = none) (hop : (ctrlOf body).op = 1) :
    exec (.resizeReq n rx) s = .next (answerResize n (ctrlOf body) x) := by
  have hexec : exec (.resizeReq n rx) s = execResizeReq n rx s := rfl
  obtain ⟨y, hy, hrs⟩ := rs_of_accepted rx (portIs_iff.mp hp).2.1 hc _ _ _ hw hx
  rw [hexec, execResizeReq, act_live (portIs_iff.mp hp).1,
    ctrlFlit_of_accepted rx hp hc hr hfec hcrc hty hack hnak hcr hseq hw hopen hx _ hop]
  simp only [hy, hrs, hreq]
  rfl

theorem exec_resizeAck_of_asked {k : Nat × Nat} (hreq : q.scfg.rs.req = some k) (hag : q.scfg.rs.agreed = none)
    (hop : (ctrlOf body).op = 2) :
    exec (.resizeAck n rx) s = .next (setScfg n (fun c => { c with rs := { c.rs with
      agreed := some ((ctrlOf body).width, (ctrlOf body).rate) } }) x) := by
  have hexec : exec (.resizeAck n rx) s = execResizeAck n rx s := rfl
  obtain ⟨y, hy, hrs⟩ := rs_of_accepted rx (portIs_iff.mp hp).2.1 hc _ _ _ hw hx
  rw [hexec, execResizeAck, act_live (portIs_iff.mp hp).1,
    ctrlFlit_of_accepted rx hp hc hr hfec hcrc hty hack hnak hcr hseq hw hopen hx _ hop]
  refine congrArg _ (setPort_congr hy ?_)
  simp only [hrs, hreq, hag]
  rfl

end

theorem bodySpanResize_ok {s : State} {p : Params} {n w r : Nat} {q : Port} (c : Cmd) (hr : raw p 0 2 = some n)
    (hq : getPort s n = some q) (ht : q.typ = .span) (hst : q.st = .up) (hw : (raw p 2 1).getD q.width = w)
    (hok : (widthsOf q).contains w = true) (hrate : (raw p 3 1).getD 0 = r) (hr2 : r ≤ 2) (hauto : autoRuns q = false)
    (hb : portBusy s n = false) (hag : q.scfg.rs.agreed = none) :
    (bodySpanResize p c s).run [] = .ok ((requestResize n w r false s, .later (.spanResize n) [w, r]), []) := by
  have hwidth : cfgF p 1 2 1 q.width (fun v => if (widthsOf q).contains v then v else nearWidth q v) = pure w :=
    cfgF_ok 1 hw (if_pos hok)
  have hset : elseF p 2 3 1 0 (fun v => decide (v ≤ 2)) 0 = pure r := elseF_ok 2 hrate (decide_eq_true hr2)
  simp only [bodySpanResize, typedPortF_ok hr (isType_of_getPort hq ht), thePort_ok hq, hwidth, hset, pure_bind, hauto, hst, hb, hag]
  rfl

/-- Settles O28: an accepted CONTROL flit keeps the settings of the resize, so its row acts on those it found. -/
theorem resizesFollowTheExchange : Obligations.ResizesFollowTheExchange := by
  unfold Obligations.ResizesFollowTheExchange
  refine ⟨?_, ?_, ?_, ?_⟩
  · intro s c p n w r q ht hr hq hty hst hw hok hrate hr2 hauto hb hag
    exact taken_later ht (bodySpanResize_ok c hr hq hty hst hw hok hrate hr2 hauto (by rwa [portBusy_entered]) hag)
  · intro s n q rx hp hc f v w r body hr hfec hcrc hty hack hnak hcr hseq _ hopen x
    exact ⟨exec_resizeReq_of_free rx hp hc hr hfec hcrc hty hack hnak hcr hseq rfl hopen rfl,
      fun k => exec_resizeAck_of_asked rx hp hc hr hfec hcrc hty hack hnak hcr hseq rfl hopen rfl⟩
  · intro s n w r q hp hag hdue hland
    have hexec : exec (.resizeSwitch n) s = execResizeSwitch n s := rfl
    obtain ⟨hl, hq, ht, hst⟩ := portIs_iff.mp hp
    rw [hexec, execResizeSwitch, act_live hl]
    simp [hq, hag, ht, hst, hland, hdue]
  · intro s n q hp hidle hc hreq hag h4 hlt
    have hexec : exec (.idleHalfWidth n) s = execIdleHalfWidth n s := rfl
    obtain ⟨hl, hq, ht, hst⟩ := portIs_iff.mp hp
    rw [hexec, execIdleHalfWidth, act_live hl]
    simp only [hq]
    exact congrArg _ (if_pos (by simp [ht, hst, hidle, hc, hreq, hag, h4, hlt]))

end Sys2Proof.Machine

/-! ## Bindings of D ports to VHs (R195, R199 to R204) -/

namespace Sys2Proof.Machine

open Sys2Proof

/-! ### Requests that a write of a port leaves -/

/-- An entry of a table is still there after a write, or is the one written. -/
theorem mem_tset_of_mem {α : Type} {t : Tab α} {k : Nat} {v : α} {e : Nat × α} (h : e ∈ t) :
    e ∈ tset t k v ∨ (e.1 = k ∧ tget t k = some e.2) := by
  induction t with
  | nil => simp at h
  | cons b r ih =>
    unfold tset
    by_cases hlt : k < b.1
    · exact .inl (by rw [if_pos hlt]; exact List.mem_cons_of_mem _ h)
    · rw [if_neg hlt]
      by_cases heq : k = b.1
      · rw [if_pos heq]
        rcases List.mem_cons.mp h with rfl | h
        · exact .inr ⟨heq.symm, by simp [tget, heq]⟩
        · exact .inl (List.mem_cons_of_mem _ h)
      · rw [if_neg heq]
        rcases List.mem_cons.mp h with rfl | h
        · exact .inl List.mem_cons_self
        · rcases ih h with h | ⟨h1, h2⟩
          · exact .inl (List.mem_cons_of_mem _ h)
          · exact .inr ⟨h1, by rw [tget, if_neg (Ne.symm heq), h2]⟩

/-- A port's write that leaves its waiting requests leaves which of them name a virtual bridge. -/
theorem viaReqs_setPort_eq_nil {s : State} {p : Nat} {f : Port → Port} (hf : ∀ q, (f q).std.np = q.std.np) (v : Nat × Nat) :
    viaReqs (setPort p f s) v = [] ↔ viaReqs s v = [] := by
  have hmem : ∀ t : State, viaReqs t v = [] ↔ ∀ e ∈ t.ports, (e.2.std.np.filter fun r => r.fn.isNone && r.msg.via == some v) = [] :=
    fun t => by simp only [viaReqs, List.flatMap_eq_nil_iff, List.map_eq_nil_iff]
  rw [hmem, hmem]
  cases hq : tget s.ports p with
  | none => simp only [setPort, tmod, hq]
  | some q =>
    simp only [setPort, tmod, hq]
    constructor
    · intro h e he
      rcases mem_tset_of_mem (v := f q) he with hin | ⟨-, hget⟩
      · exact h e hin
      · have hnew := h (p, f q) (tget_mem (tget_tset_self ..))
        cases Option.some.inj (hq.symm.trans hget)
        rwa [hf] at hnew
    · intro h e he
      rcases tset_mem he with rfl | hin
      · rw [hf]
        exact h _ (tget_mem hq)
      · exact h e hin

theorem viaReqs_setBind_eq_nil (s : State) (p ld : Nat) (b : Binding) (v : Nat × Nat) :
    viaReqs (setStd p (fun x => { x with binds := tset x.binds ld b }) s) v = [] ↔ viaReqs s v = [] :=
  viaReqs_setPort_eq_nil (f := fun q => { q with std := { q.std with binds := tset q.std.binds ld b } }) (fun _ => rfl) v

theorem getPort_setStd_ne {p n : Nat} (f : Std → Std) (s : State) (h : n ≠ p) : getPort (setStd p f s) n = getPort s n := by
  rw [setStd, getPort_setPort, if_neg (Ne.symm h)]

/-! ### VH_BIND -/

theorem idF_ok_or_default {c : Params} {off w d v : Nat} (i : Nat) {ok : Nat → Bool} (h : (raw c off w).getD d = v)
    (hk : ok v = true) : idF c i off w (some d) ok = pure v := by
  unfold idF
  cases hr : raw c off w <;> simp_all

section
variable {s : State} {p : Params} {d h ld n : Nat} {q x : Port} {id : Option Nat} (c : Cmd) (hr : raw p 0 2 = some d)
  (hq : getPort s d = some q) (ht : q.typ = .d)
include hr hq ht

theorem bodyVhBind_ok (hrh : raw p 2 2 = some h) (hx : getPort s h = some x) (hxt : x.typ = .h)
    (hld : (raw p 4 2).getD 0xFFFF = ld) (hld15 : ld ≤ 15 ∨ ld = 0xFFFF)
    (hcard : q.std.card = none ∨ q.std.card = some (decide (ld ≤ 15))) (hst : q.st ≠ .amber)
    (hfree : (q.std.binds.all fun e => e.1 != ld && e.1 != 0xFFFF && ld != 0xFFFF) = true)
    (hn : ((List.range 32).find? fun k => k != 0 && !(bridgesOf s h).contains k) = some n)
    (hid : lowestFree (cacheIds s h none) 16 = id) (hno : q.std.cache = true → id = none → p.noClamp = false) :
    ∃ t, (bodyVhBind p c s).run [] = .ok ((t, .done 0 [n]),
        if q.std.cache && id.isNone then [{ field := 2, requested := ld, applied := ld }] else [])
      ∧ t.ports = (setStd d (fun y => { y with
          binds := tset y.binds ld { hport := h, bridge := n, cacheOff := q.std.cache && id.isNone, cacheId := if q.std.cache then id else none } })
          s).ports
      ∧ t = { s with ports := t.ports, out := t.out } ∧ (x.std.hotplug = false → t.out = s.out) := by
  have hset : idF p 2 4 2 (some 0xFFFF) (fun v => decide (v ≤ 15) || v == 0xFFFF) = pure ld :=
    idF_ok_or_default 2 hld (by rcases hld15 with h | h <;> simp [h])
  have hkind : kindOk (decide (ld ≤ 15)) ld = true := by
    rcases hld15 with h | h <;> simp [kindOk, h]
    omega
  have hfree' := List.all_eq_true.mp hfree
  have hbusy : (q.std.binds.any fun e => e.2.unbound && (e.1 == ld || e.1 == 0xFFFF || ld == 0xFFFF)) = false := by
    simp only [List.any_eq_false]
    intro e he
    have := hfree' e he
    simp_all
  have htaken : (q.std.binds.any fun e => e.1 == ld || e.1 == 0xFFFF || ld == 0xFFFF) = false := by
    simp only [List.any_eq_false]
    intro e he
    have := hfree' e he
    simp_all
  have hclamp : ((q.std.cache && id.isNone) && p.noClamp) = false := by
    cases hca : q.std.cache
    · rfl
    · cases id with
      | some _ => rfl
      | none => simp [hno hca rfl]
  have hamber : (q.st == .amber) = false := by simp [hst]
  simp only [bodyVhBind, typedPortF_ok hr (isType_of_getPort hq ht), typedPortF_ok hrh (isType_of_getPort hx hxt), hset,
    thePort_ok hq, rejectIf_ok _ hamber, rejectIf_ok _ hbusy, rejectIf_ok _ htaken, hid, rejectIfAt_ok _ _ hclamp, pure_bind, hn, hx]
  have hhot : x.std.hotplug = false →
      (bridgeView q (some { hport := h, bridge := n }) != (false, false) && x.std.hotplug) = false := fun h => by simp [h]
  generalize (bridgeView q (some { hport := h, bridge := n }) != (false, false) && x.std.hotplug) = hot at hhot ⊢
  generalize (q.std.cache && id.isNone) = off
  rcases hcard with hc | hc <;> simp only [hc, hkind, Bool.not_true, rejectIfAt_ok _ _ rfl, pure_bind] <;> cases hot
  case inl.false | inr.false => cases off <;> exact ⟨_, rfl, rfl, rfl, fun _ => rfl⟩
  case inl.true | inr.true => cases off <;> exact ⟨_, rfl, rfl, rfl, fun hno => nomatch hhot hno⟩

/-! ### VH_UNBIND -/

section
variable {b : Binding} (hld : (raw p 2 2).getD 0xFFFF = ld) (hld15 : ld ≤ 15 ∨ ld = 0xFFFF)
  (hb : tget q.std.binds ld = some b) (hun : b.unbound = false)
include hld hld15 hb hun

/-- A binding with something outstanding drains for 1 ms. -/
theorem bodyVhUnbind_of_outstanding (hout : viaReqs s (b.hport, b.bridge) ≠ [] ∨ viaMids s (b.hport, b.bridge) ≠ []) :
    (bodyVhUnbind p c s).run [] = .ok ((setStd d (fun x => { x with
      binds := tset x.binds ld { b with unbound := true, drainAt := s.dc + 2000000 } }) s, .later (.unbind d ld) (le 4 0)), []) := by
  have hset : idF p 1 2 2 (some 0xFFFF) (fun v => decide (v ≤ 15) || v == 0xFFFF) = pure ld :=
    idF_ok_or_default 1 hld (by rcases hld15 with h | h <;> simp [h])
  have hwait : ((viaReqs (setStd d (fun x => { x with
      binds := tset x.binds ld { b with unbound := true, drainAt := s.dc + 2000000 } }) s) (b.hport, b.bridge)).isEmpty
        && (viaMids s (b.hport, b.bridge)).isEmpty) = false := by
    rw [Bool.and_eq_false_iff]
    exact hout.imp (fun h => List.isEmpty_eq_false_iff.mpr ((viaReqs_setBind_eq_nil s d ld _ _).not.mpr h))
      List.isEmpty_eq_false_iff.mpr
  simp only [bodyVhUnbind, typedPortF_ok hr (isType_of_getPort hq ht), hset, thePort_ok hq, hb, rejectIf_ok _ hun, pure_bind]
  exact congrArg (fun m => StateT.run m []) (if_neg (ne_true_of_eq_false hwait))

/-- One with nothing outstanding is gone at once. -/
theorem bodyVhUnbind_of_idle (hreqs : viaReqs s (b.hport, b.bridge) = []) (hmids : viaMids s (b.hport, b.bridge) = []) :
    ∃ t, (bodyVhUnbind p c s).run [] = .ok ((t, .done 0 (le 4 0)), [])
      ∧ (∃ r, getPort t d = some r ∧ tget r.std.binds ld = none ∧ ∀ k, k ≠ ld → tget r.std.binds k = tget q.std.binds k)
      ∧ (∀ k, k ≠ d → getPort t k = getPort s k) ∧ t = { s with ports := t.ports, out := t.out } := by
  have hset : idF p 1 2 2 (some 0xFFFF) (fun v => decide (v ≤ 15) || v == 0xFFFF) = pure ld :=
    idF_ok_or_default 1 hld (by rcases hld15 with h | h <;> simp [h])
  have hidle : ((viaReqs (setStd d (fun x => { x with
      binds := tset x.binds ld { b with unbound := true, drainAt := s.dc + 2000000 } }) s) (b.hport, b.bridge)).isEmpty
        && (viaMids s (b.hport, b.bridge)).isEmpty) = true := by
    rw [Bool.and_eq_true, List.isEmpty_iff, List.isEmpty_iff]
    exact ⟨(viaReqs_setBind_eq_nil s d ld _ _).mpr hreqs, hmids⟩
  simp only [bodyVhUnbind, typedPortF_ok hr (isType_of_getPort hq ht), hset, thePort_ok hq, hb, rejectIf_ok _ hun, pure_bind]
  refine ⟨_, congrArg (fun m => StateT.run m []) (if_pos hidle), ?_, fun k hk => ?_, ?_⟩
  · rw [getPort_mirror, getPort_setStd_self, getPort_setStd_self, hq]
    exact ⟨_, rfl, tget_tdel_self .., fun k hk => by simp [tget_tdel, tget_tset, Ne.symm hk]⟩
  · rw [getPort_mirror, getPort_setStd_ne _ _ hk, getPort_setStd_ne _ _ hk]
  · rw [mirror_eq]
    rfl

end
end

/-! ### The end of a drain -/

theorem exec_unbindDrainExpiry_of_draining {s u : State} {n ld k : Nat} {q : Port} {b : Binding} (hl : live s = true)
    (hq : getPort s n = some q) (hb : tget q.std.binds ld = some b) (hun : b.unbound = true)
    (hk : (viaReqs s (b.hport, b.bridge)).length + (viaMids s (b.hport, b.bridge)).length = k)
    (hu : (viaMids s (b.hport, b.bridge)).foldl (completeMid n) ((viaReqs s (b.hport, b.bridge)).foldl (fun s r =>
        sendCompletion n (completionOf r.2.msg) (setStd r.1 (fun d => { d with np := d.np.erase r.2 }) s))
        (clockTo b.drainAt s)) = u) :
    exec (.unbindDrainExpiry n ld) s = .next (endUnbind n ld k (if k = 0 then s else u)) := by
  have hx : exec (.unbindDrainExpiry n ld) s = execUnbindDrainExpiry n ld s := rfl
  have hbind : ((getPort s n).bind fun q => tget q.std.binds ld) = some b := by rw [hq]; exact hb
  rw [hx, execUnbindDrainExpiry, act_live hl]
  simp only [hbind, hun, hk, Bool.not_true, Bool.false_eq_true, if_false]
  by_cases h : k = 0
  · have hreqs : viaReqs s (b.hport, b.bridge) = [] := List.eq_nil_of_length_eq_zero (by omega)
    have hmids : viaMids s (b.hport, b.bridge) = [] := List.eq_nil_of_length_eq_zero (by omega)
    simp only [h, hreqs, hmids, if_true, List.foldl_nil]
  · simp only [h, if_false, hu]

/-- Settles O32: the two bodies, and the end of a drain with and without requests. -/
theorem bindingsJoinAndLeaveAVh : Obligations.BindingsJoinAndLeaveAVh := by
  unfold Obligations.BindingsJoinAndLeaveAVh
  refine ⟨?_, ?_, ?_⟩
  · intro s c p d h ld n q hq id ht hr hq' hty hrh hx hxt hld hld15 hcard hst hfree hn hid hno
    obtain ⟨t, hbody, hports, hframe, hout⟩ := bodyVhBind_ok c hr hq' hty hrh hx hxt hld hld15 hcard hst hfree hn hid
      (by rwa [noClamp_of_taken ht])
    exact ⟨t, taken_done ht hbody, hports, hframe, hout⟩
  · intro s c p d ld q b ht hr hq hty hld hld15 hb hun
    refine ⟨fun hout => taken_later ht (bodyVhUnbind_of_outstanding c hr hq hty hld hld15 hb hun hout), fun hreqs hmids => ?_⟩
    obtain ⟨t, hbody, hrest⟩ := bodyVhUnbind_of_idle c hr hq hty hld hld15 hb hun hreqs hmids
    exact ⟨t, taken_done ht hbody, hrest⟩
  · intro s u n ld k q b hl hq hb hun hk hu
    have hrun := exec_unbindDrainExpiry_of_draining hl hq hb hun hk hu
    refine ⟨fun h => ?_, fun h => ?_⟩
    · rw [hrun, if_neg h, endUnbind, if_neg h]
    · rw [hrun, if_pos h, endUnbind, if_pos h, h]

end Sys2Proof.Machine

/-! ## TLPs at H ports and D ports (R144, R193, R195, R217, R226, R227, R445) -/

namespace Sys2Proof.Machine

open Sys2Proof

section
variable {s : State} {n : Nat} {q : Port} {t : Tlp} (hl : live s = true) (hq : getPort s n = some q) (ht : q.typ ≠ .span)
  (hst : q.st = .up) (hi : t.issuer = .host)
include hl hq ht hst hi

/-- A host's TLP ends L1 and is taken. -/
theorem exec_tlpReceive_of_host :
    exec (.tlpReceive n t) s = .next (
      let u := noteTlp n (leaveL1 n s)
      let t' := aimed q t
      if 2 ≤ t.err ∧ t.err ≤ 6 then fire (srcProto n) t.err n noActor u
      else if t.ptm then (if q.typ == .d then bumpPort n oMsgDrop 1 u else u)
      else if t.cache && !cacheAllowed u n q t'.dest then fireDegr n 10 (bumpPort n oCacheDrop 1 u)
      else if t.msg.cls == .rsp then takeCompletion n q t' (logPoison n t.msg u)
      else takeRequest n q t' (logPoison n t.msg u)) := by
  have hx : exec (.tlpReceive n t) s = execTlpReceive n t s := rfl
  have haim : ∃ d, aimed q t = { t with dest := d } := by
    unfold aimed
    repeat' split
    all_goals exact ⟨_, rfl⟩
  obtain ⟨d, hd⟩ := haim
  rw [hx, execTlpReceive, act_live hl]
  simp [hq, ht, hst, mayIssue, hi, hd]

theorem exec_tlpReceive_of_request (herr : t.err = 0) (hptm : t.ptm = false) (hca : t.cache = false) (hcls : t.msg.cls ≠ .rsp) :
    exec (.tlpReceive n t) s = .next (takeRequest n q (aimed q t) (logPoison n t.msg (noteTlp n (leaveL1 n s)))) := by
  rw [exec_tlpReceive_of_host hl hq ht hst hi]
  simp [herr, hptm, hca, hcls]

end

/-- A host's request that no MPU checks joins the ingress queue. -/
theorem takeRequest_of_unchecked {s : State} {n : Nat} {q : Port} {t : Tlp} (hi : t.issuer = .host)
    (hc : checkedAt q (framed s n q t) = false) :
    takeRequest n q t s = setPort n (fun r => { r with inQ := r.inQ ++ [{ dest := t.dest, msg := framed s n q t }] }) s := by
  simp [takeRequest, hi, issuerFn, hc]

/-- One whose range is checked enters part by part. -/
theorem takeRequest_of_checked {s : State} {n a : Nat} {q : Port} {t : Tlp} (hi : t.issuer = .host) (ha : t.msg.addr = some a)
    (hc : checkedAt q (framed s n q t) = true) :
    takeRequest n q t s =
      let r := mpuCheck (hMpu s n) 0xFFE (!t.msg.read) a t.msg.len s
      takeParts n (hMpu s n) none (framed s n q t) t.dest 0 r.1 r.2 := by
  have hfr : (framed s n q t).read = t.msg.read ∧ (framed s n q t).addr = some a ∧ (framed s n q t).len = t.msg.len :=
    ⟨rfl, ha, rfl⟩
  obtain ⟨hread, haddr, hlen⟩ := hfr
  simp [takeRequest, hi, issuerFn, hc, hread, haddr, hlen, actorOf]

/-- Settles O33: the branches of a host's TLP, and the two answers to a configuration request. -/
theorem requestsOfHostsAndCardsEnter : Obligations.RequestsOfHostsAndCardsEnter := by
  unfold Obligations.RequestsOfHostsAndCardsEnter
  refine ⟨⟨?_, ?_, ?_, ?_⟩, ?_⟩
  · intro s n q t hl hq ht hst hi h2 h6
    rw [exec_tlpReceive_of_host hl hq ht hst hi]
    exact congrArg _ (if_pos ⟨h2, h6⟩)
  · intro s n q t hl hq ht hst hi herr hptm hca hcls ha
    have haim : aimed q t = t := by simp [aimed, ha]
    rw [exec_tlpReceive_of_request hl hq ht hst hi herr hptm hca hcls, haim, takeRequest_of_unchecked hi (by simp [checkedAt, framed, ha])]
    simp only [framed, hi, issuerFn, Option.isNone_none, Bool.and_true] <;> rfl
  · intro s n q op hp hready
    have hx : exec (.configurationRequest (.pf0 n) op) s = execConfigurationRequest (.pf0 n) op s := rfl
    obtain ⟨hl, hq, ht, hst⟩ := portIs_iff.mp hp
    rw [hx, execConfigurationRequest, act_live hl]
    simp [hq, ht, hst, hready]
  · intro s n q op hp hready
    have hx : exec (.configurationRequest (.pf0 n) op) s = execConfigurationRequest (.pf0 n) op s := rfl
    obtain ⟨hl, hq, ht, hst⟩ := portIs_iff.mp hp
    rw [hx, execConfigurationRequest, act_live hl]
    simp [hq, ht, hst, hready]
  · intro s n a q t hp hi herr hptm hca hcls ha hlen
    obtain ⟨hl, hq, ht, hst⟩ := portIs_iff.mp hp
    have haim : (aimed q t).msg = t.msg ∧ (aimed q t).issuer = t.issuer := by
      unfold aimed
      repeat' split
      all_goals exact ⟨rfl, rfl⟩
    obtain ⟨hmsg, hiss⟩ := haim
    have hnrsp : t.msg.cls ≠ .rsp := by rcases hcls with h | h <;> simp [h]
    have hchecked : ∀ u, checkedAt q (framed u n q (aimed q t)) = true := fun u => by
      rcases hcls with h | h <;> simp [checkedAt, framed, ht, hmsg, ha, hlen, h]
    rw [exec_tlpReceive_of_request hl hq (by simp [ht]) hst hi herr hptm hca hnrsp,
      takeRequest_of_checked (hiss.trans hi) (by rw [hmsg, ha]) (hchecked _), hmsg]

end Sys2Proof.Machine

/-! ## IDE streams (R96, R209 to R213) -/

namespace Sys2Proof.Machine

open Sys2Proof

/-- A port that is no span is an H port or a D port. -/
theorem isType_h_or_d {s : State} {n : Nat} {q : Port} (hq : getPort s n = some q) (ht : q.typ ≠ .span) :
    (isType s .h n || isType s .d n) = true := by
  cases h : q.typ with
  | span => exact absurd h ht
  | h => simp [isType, hq, h]
  | d => simp [isType, hq, h]

/-- The stream numbers of a port: 0 on a D port, 0 to 15 on an H port (R210). -/
def streamOk (q : Port) (k : Nat) : Bool := if q.typ == .d then k == 0 else decide (k < 16)

section
variable {s : State} {p : Params} {n k i : Nat} {q : Port} (c : Cmd) (hr : raw p 0 2 = some n) (hq : getPort s n = some q)
  (hb : portBusy s n = false) (hk : raw p 2 1 = some k) (hid : (raw p 5 1).getD 0 = i)
include hr hq hb hk hid

theorem bodyIdeStreamSet_stop (ht : q.typ ≠ .span) (hok : streamOk q k = true) (hop : (raw p 3 1).getD 0 = 1)
    (hkind : (raw p 4 1).getD 0 ≤ 1) : (bodyIdeStreamSet p c s).run [] = .ok ((ideInsecure n k s, .done 0 []), []) := by
  have hport : idF p 0 0 2 none (fun v => isType s .h v || isType s .d v) = pure n := idF_ok 0 hr (isType_h_or_d hq ht)
  have hstream : idF p 1 2 1 none (fun v => if q.typ == .d then v == 0 else decide (v < 16)) = pure k := idF_ok 1 hk hok
  have hop' : elseF p 2 3 1 0 (fun v => decide (v ≤ 1)) 0 = pure 1 := elseF_ok 2 hop (by decide)
  have hkind' : elseF p 3 4 1 0 (fun v => decide (v ≤ 1)) 0 = pure _ := elseF_ok 3 rfl (decide_eq_true hkind)
  simp only [bodyIdeStreamSet, hport, thePort_ok hq, hstream, hop', hkind', anyF_ok hid, pure_bind, hb]
  rfl

theorem bodyIdeStreamSet_card (ht : q.typ = .d) (hst : q.st = .up) (hzero : k = 0) (hop : (raw p 3 1).getD 0 = 0)
    (hkind : (raw p 4 1).getD 0 = 0) (halg : c.env.algOk = true) (hchain : c.env.chainOk = true) {u : State}
    (hu : cardSession n s = u) :
    (bodyIdeStreamSet p c s).run [] = .ok ((ideInstall n 0 0 i (otherSet q.std 0 i) (sixKeys u)
      (drbgUse { u with freeN := u.freeN + 6 }), .done 0 []), []) := by
  subst hzero
  have hport : idF p 0 0 2 none (fun v => isType s .h v || isType s .d v) = pure n :=
    idF_ok 0 hr (isType_h_or_d hq (by simp [ht]))
  have hstream : idF p 1 2 1 none (fun v => if q.typ == .d then v == 0 else decide (v < 16)) = pure 0 :=
    idF_ok 1 hk (by simp [ht])
  have hop' : elseF p 2 3 1 0 (fun v => decide (v ≤ 1)) 0 = pure 0 := elseF_ok 2 hop (by decide)
  have hkind' : elseF p 3 4 1 0 (fun v => decide (v ≤ 1)) 0 = pure 0 := elseF_ok 3 hkind (by decide)
  simp only [bodyIdeStreamSet, hport, thePort_ok hq, hstream, hop', hkind', anyF_ok hid, pure_bind, hb]
  simp only [ht, hst, halg, hchain, hu]
  rfl

end

theorem exec_ideKeyProg_selective {s : State} {n k i set : Nat} {keys : List Nat} {q : Port} (hp : portIs s n q .h .up = true)
    (hbed : s.boot.bedrock = true) (hlink : linkSession s n = true) (hk : k < 16) (hi : i < 256) (hset : set ≤ 1)
    (hlen : keys.length = 6) (hkeys : ∀ x ∈ keys, x < 2 ^ 256) :
    exec (.ideKeyProg n k 1 i set keys) s = .next (ideInstall n k 1 i set keys s) := by
  have hx : exec (.ideKeyProg n k 1 i set keys) s = execIdeKeyProg n k 1 i set keys s := rfl
  obtain ⟨hl, hq, ht, hst⟩ := portIs_iff.mp hp
  have hall : keys.all (fun k => decide (k < 2 ^ 256)) = true := List.all_eq_true.mpr fun x hx => decide_eq_true (hkeys x hx)
  rw [hx, execIdeKeyProg, act_live hl]
  simp only [hq]
  exact congrArg _ (if_pos (by rw [hall]; simp [ht, hst, hbed, hlink, hk, hi, hset, hlen]))

theorem exec_ideIntegrityFail_of_secure {s : State} {n k : Nat} {q : Port} {i : Ide} (hl : live s = true)
    (hq : getPort s n = some q) (hst : q.st = .up) (hi : tget q.std.ide k = some i) (hsec : i.secure = true) :
    exec (.ideIntegrityFail n k) s = .next (if i.kind = 0 then fire (srcProto n) 1 n noActor (ideInsecure n k s)
      else fireDegr n 12 (tdiStreamError n i.id (ideInsecure n k s))) := by
  have hx : exec (.ideIntegrityFail n k) s = execIdeIntegrityFail n k s := rfl
  rw [hx, execIdeIntegrityFail, act_live hl]
  simp [hq, hi, hsec, hst]

/-- Settles O34: the two ways of IDE_STREAM_SET, the host's keys, and the two kinds of a failing stream. -/
theorem ideStreamsHoldAndLoseKeys : Obligations.IdeStreamsHoldAndLoseKeys := by
  unfold Obligations.IdeStreamsHoldAndLoseKeys
  refine ⟨?_, ?_, fun s n k i set keys q => exec_ideKeyProg_selective, ?_⟩
  · intro s c p n k i q ht hr hq hty hb hk hok hop hkind hid
    refine taken_done ht (bodyIdeStreamSet_stop c hr hq (by rwa [portBusy_entered]) hk hid hty ?_ hop hkind)
    unfold streamOk
    split <;> simp_all
  · intro s u c p n i q ht hr hq hty hst hb hk hop hkind hid halg hchain hu
    exact taken_done ht (bodyIdeStreamSet_card c hr hq (by rwa [portBusy_entered]) hk hid hty hst rfl hop hkind halg hchain hu)
  · intro s n k q i hl hq hst hi hsec
    have hrun := exec_ideIntegrityFail_of_secure hl hq hst hi hsec
    exact ⟨fun h => hrun.trans (by rw [if_pos h]), fun h => hrun.trans (by rw [if_neg (by omega)])⟩

end Sys2Proof.Machine

/-! ## TDI states and link power (R214 to R221) -/

namespace Sys2Proof.Machine

open Sys2Proof

section
variable {s : State} {b : Nat} {y : Bay} (hl : live s = true) (hy : tget s.bays b = some y) (hopen : tdispOpen s b = true)
include hy hopen

theorem tdispRequest_of_taken {f : Bay → Option Bay} {z : Bay} (h : f y = some z) :
    tdispRequest b f s = emit (.tdisp b false z.tdi) (setBay b (fun _ => z) s) := by simp [tdispRequest, hy, hopen, h]

theorem tdispRequest_of_refused {f : Bay → Option Bay} (h : f y = none) : tdispRequest b f s = emit (.tdisp b true y.tdi) s := by
  simp [tdispRequest, hy, hopen, h]

include hl

theorem exec_lockInterfaceRequest_unlocked (k : Nat) (ht : y.tdi = .unlocked) (hst : y.st = .active) :
    exec (.lockInterfaceRequest b k) s =
      .next (emit (.tdisp b false .locked) (setBay b (fun _ => { y with tdi := .locked, stream := some k }) s)) := by
  have hx : exec (.lockInterfaceRequest b k) s = execLockInterfaceRequest b k s := rfl
  rw [hx, execLockInterfaceRequest, act_live hl, tdispRequest_of_taken hy hopen (if_pos (by simp [ht, hst]))]

theorem exec_lockInterfaceRequest_other (k : Nat) (ht : y.tdi ≠ .unlocked) :
    exec (.lockInterfaceRequest b k) s = .next (emit (.tdisp b true y.tdi) s) := by
  have hx : exec (.lockInterfaceRequest b k) s = execLockInterfaceRequest b k s := rfl
  rw [hx, execLockInterfaceRequest, act_live hl, tdispRequest_of_refused hy hopen (if_neg (by simp [ht]))]

theorem exec_startInterfaceRequest_locked (ht : y.tdi = .locked) :
    exec (.startInterfaceRequest b) s = .next (emit (.tdisp b false .run) (setBay b (fun _ => { y with tdi := .run }) s)) := by
  have hx : exec (.startInterfaceRequest b) s = execStartInterfaceRequest b s := rfl
  rw [hx, execStartInterfaceRequest, act_live hl, tdispRequest_of_taken hy hopen (if_pos ht)]

theorem exec_startInterfaceRequest_other (ht : y.tdi ≠ .locked) :
    exec (.startInterfaceRequest b) s = .next (emit (.tdisp b true y.tdi) s) := by
  have hx : exec (.startInterfaceRequest b) s = execStartInterfaceRequest b s := rfl
  rw [hx, execStartInterfaceRequest, act_live hl, tdispRequest_of_refused hy hopen (if_neg ht)]

theorem exec_stopInterface_open :
    exec (.stopInterface b) s = .next (flushMsix (.bay b)
      (emit (.tdisp b false .unlocked) (setBay b (fun _ => { y with tdi := .unlocked }) s))) := by
  have hx : exec (.stopInterface b) s = execStopInterface b s := rfl
  have htake := tdispRequest_of_taken hy hopen (f := fun y => some { y with tdi := .unlocked }) rfl
  rw [hx, execStopInterface, act_live hl, htake]
  exact congrArg _ (if_pos hopen)

end

/-- Settles O35: a request taken and a request refused, for each of the three. -/
theorem tdiStatesFollowTheHost : Obligations.TdiStatesFollowTheHost := by
  unfold Obligations.TdiStatesFollowTheHost
  intro s b k y hl hy hopen
  exact ⟨exec_lockInterfaceRequest_unlocked hl hy hopen k, exec_lockInterfaceRequest_other hl hy hopen k,
    exec_startInterfaceRequest_locked hl hy hopen, exec_startInterfaceRequest_other hl hy hopen, exec_stopInterface_open hl hy hopen⟩

/-! ### L1 and L0p -/

section
variable {s : State} {n : Nat} {q : Port} (hp : portIs s n q .h .up = true)
include hp

theorem exec_l1IdleExpiry_quiet (hl1 : q.std.l1 = false) (hquiet : l1Quiet s n q = true) :
    exec (.l1IdleExpiry n) s = .next (setStd n (fun d => { d with
      l1 := true, l1sub := if q.std.l12 then 2 else if q.std.l11 then 1 else 0, l1Exit := false })
      (clockTo (q.std.busyAt + 2000 * q.std.l1Idle) s)) := by
  have hx : exec (.l1IdleExpiry n) s = execL1IdleExpiry n s := rfl
  obtain ⟨hl, hq, ht, hst⟩ := portIs_iff.mp hp
  rw [hx, execL1IdleExpiry, act_live hl]
  simp [hq, ht, hst, hl1, hquiet, l1Substate]

theorem exec_l0pHalve_enabled (hf : q.flit = true) (hl1 : q.std.l1 = false) (hh : q.std.l0pHost = true) (he : q.std.l0pEn = true)
    (hw : 2 ≤ q.widthNow) :
    exec (.l0pHalve n) s = .next (setL0p n (q.widthNow / 2) q.std.linkW (clockTo (q.std.l0pAt + 200000) s)) := by
  have hx : exec (.l0pHalve n) s = execL0pHalve n s := rfl
  obtain ⟨hl, hq, ht, hst⟩ := portIs_iff.mp hp
  rw [hx, execL0pHalve, act_live hl]
  simp [hq, ht, hst, hf, hl1, hh, he, hw]

theorem exec_l0pFullWidth_reduced (hr : q.std.l0pRed = true) :
    exec (.l0pFullWidth n) s = .next (setL0p n q.std.linkW q.std.linkW
      (if 64 < queuedCells s n then s else clockTo (q.std.l0pAt + 20000) s)) := by
  have hx : exec (.l0pFullWidth n) s = execL0pFullWidth n s := rfl
  obtain ⟨hl, hq, ht, hst⟩ := portIs_iff.mp hp
  rw [hx, execL0pFullWidth, act_live hl]
  simp [hq, ht, hst, hr]

end

theorem exec_l1ExitComplete_in_l1 {s : State} {n : Nat} {q : Port} (hl : live s = true) (hq : getPort s n = some q)
    (ht : q.typ ≠ .span) (hst : q.st = .up) (hl1 : q.std.l1 = true) :
    exec (.l1ExitComplete n) s = .next (setLanes n (fun l => { l with
      scan := l.scan.map fun x => if x.at_.isNone then { x with at_ := some s.dc } else x })
      (setStd n (fun d => { d with l1 := false, l1sub := 0, l1Exit := false, busyAt := s.dc }) s)) := by
  have hx : exec (.l1ExitComplete n) s = execL1ExitComplete n s := rfl
  rw [hx, execL1ExitComplete, act_live hl]
  simp [hq, ht, hst, leaveL1, hl1]

section
variable {s : State} {n w : Nat} {q : Port} (hp : portIs s n q .d .up = true)
include hp

theorem exec_partnerPowerRequest_l1 :
    exec (.partnerPowerRequest n true w) s = .next (setStd n (fun d => { d with l1 := true, l1sub := 0, l1Exit := false }) s) := by
  have hx : exec (.partnerPowerRequest n true w) s = execPartnerPowerRequest n true w s := rfl
  obtain ⟨hl, hq, ht, hst⟩ := portIs_iff.mp hp
  rw [hx, execPartnerPowerRequest, act_live hl]
  simp [hq, ht, hst]

theorem exec_partnerPowerRequest_l0p (hf : q.flit = true) (h1 : 1 ≤ w) (hw : w ≤ q.std.linkW) :
    exec (.partnerPowerRequest n false w) s = .next (setL0p n w q.std.linkW s) := by
  have hx : exec (.partnerPowerRequest n false w) s = execPartnerPowerRequest n false w s := rfl
  obtain ⟨hl, hq, ht, hst⟩ := portIs_iff.mp hp
  rw [hx, execPartnerPowerRequest, act_live hl]
  simp [hq, ht, hst, hf, h1, hw]

end

theorem bodyHpPower_ok {s : State} {p : Params} {n l i : Nat} {q : Port} (c : Cmd) (hr : raw p 0 2 = some n)
    (hq : getPort s n = some q) (ht : q.typ = .h) (hb : portBusy s n = false) (hl : (raw p 2 1).getD (b2n q.std.l0pEn) = l)
    (hl1 : l ≤ 1) (hi : (raw p 4 2).getD q.std.l1Idle = i) (hi1 : 1 ≤ i) (himax : i ≤ 65535) :
    (bodyHpPower p c s).run [] = .ok ((setStd n (fun d => { d with
      l0pEn := l == 1, l1Idle := i, l0pAt := if l == 1 && !q.std.l0pEn then s.dc else q.std.l0pAt }) s, .done 0 []), []) := by
  simp only [bodyHpPower, typedPortF_ok hr (isType_of_getPort hq ht), thePort_ok hq, rangeF_ok 1 hl (Nat.zero_le l) hl1,
    rangeF_ok 2 hi hi1 himax, rejectIf_ok _ hb, pure_bind]
  rfl

/-- Settles O36: each power transition by its lemma; the two cases of the queue select the branch of L0P_FULL_WIDTH. -/
theorem linkPowerFollowsTheRules : Obligations.LinkPowerFollowsTheRules := by
  unfold Obligations.LinkPowerFollowsTheRules
  refine ⟨fun s n q hp => ⟨exec_l1IdleExpiry_quiet hp, exec_l0pHalve_enabled hp, fun hr => ?_⟩,
    fun s n q => exec_l1ExitComplete_in_l1, fun s n w q hp => ⟨exec_partnerPowerRequest_l1 hp, exec_partnerPowerRequest_l0p hp⟩, ?_⟩
  · rw [exec_l0pFullWidth_reduced hp hr]
    exact ⟨fun h => by rw [if_pos h], fun h => by rw [if_neg (by omega)]⟩
  · intro s c p n l i q ht hr hq hty hb hl hl1 hi hi1 himax
    exact taken_done ht (bodyHpPower_ok c hr hq hty (by rwa [portBusy_entered]) hl hl1 hi hi1 himax)

end Sys2Proof.Machine

/-! ## Bus Master Enable (R216, R222, R223) -/

namespace Sys2Proof.Machine

open Sys2Proof

/-- What dropping a function's waiting requests does not write: anything but ports and the accesses of Garnet. -/
theorem dropIssued_keeps {β : Type} (g : State → β) (hport : ∀ p f s, g (setPort p f s) = g s) (hinc : ∀ k s, g (putInc k s) = g s)
    (hgn : ∀ f s, g (setGn f s) = g s) (fn : Fn) (p : Nat) (s : State) : g (dropIssued fn p s) = g s := by
  have hbump : ∀ off k s, g (bumpPort p off k s) = g s := fun off k s => (hport _ _ _).trans (hinc _ _)
  have hend : ∀ a s, g (endArrival p a s) = g s := fun a s => by
    unfold endArrival
    dsimp only
    split
    · rw [hgn, releaseCred, hport]
    · rw [releaseCred, hport]
  unfold dropIssued
  split
  · dsimp only
    split
    · rw [foldl_keeps g _ (fun u a => hend a u), hport]
    · rw [hbump, foldl_keeps g _ (fun u a => hend a u), hport]
  · rfl

/-- The ingress queue of a port and PF0's Bus Master Enable. -/
def issueView (q : Port) : List Arrival × Bool := (q.inQ, q.std.bme)

theorem issueView_endArrival (p n : Nat) (a : Arrival) (s : State) :
    (getPort (endArrival p a s) n).map issueView = (getPort s n).map issueView := by
  have hrel : (getPort (releaseCred p a.msg s) n).map issueView = (getPort s n).map issueView := by
    refine map_getPort_setPort issueView (fun q => ?_) p n s
    split <;> rfl
  unfold endArrival
  dsimp only
  split
  · exact hrel
  · exact hrel

theorem issueView_bumpPort (p off k n : Nat) (s : State) :
    (getPort (bumpPort p off k s) n).map issueView = (getPort s n).map issueView := by
  refine map_getPort_setPort issueView ?_ p n (putInc _ s)
  exact fun _ => rfl

/-- The requests of the function that wait at the port are gone, the others stay. -/
theorem issueView_dropIssued (fn : Fn) (p : Nat) (s : State) :
    (getPort (dropIssued fn p s) p).map issueView
      = (getPort s p).map fun q => (q.inQ.filter fun a => a.fn != some fn, q.std.bme) := by
  have hfold : ∀ (l : List Arrival) s, (getPort (l.foldl (fun s a => endArrival p a s) s) p).map issueView = (getPort s p).map issueView :=
    fun l s => foldl_keeps (fun s => (getPort s p).map issueView) _ (fun u a => issueView_endArrival p p a u) l s
  unfold dropIssued
  split
  · next q hq =>
    dsimp only
    split
    · rw [hfold, getPort_setPort_self, hq]
      rfl
    · rw [issueView_bumpPort, hfold, getPort_setPort_self, hq]
      rfl
  · next hnone => rw [hnone]; rfl

theorem fn_ne_of_dropIssued {fn : Fn} {p : Nat} {s : State} {q : Port} (hq : getPort (dropIssued fn p s) p = some q) :
    ∀ a ∈ q.inQ, a.fn ≠ some fn := by
  have hview := issueView_dropIssued fn p s
  rw [hq] at hview
  cases hs : getPort s p with
  | none => simp [hs] at hview
  | some r =>
    rw [hs] at hview
    have hin : q.inQ = r.inQ.filter fun a => a.fn != some fn := congrArg Prod.fst (Option.some.inj hview)
    intro a ha
    rw [hin] at ha
    simpa using (List.mem_filter.mp ha).2

theorem stopQp_st (q : Qp) : (stopQp q).st = .error := by
  unfold stopQp
  split
  · next h => simpa using h
  · rfl

/-! ### The two settings of a bay -/

/-- A bay's QPs stopped, before its messages are dropped. -/
def bmeStopped (b : Nat) (s : State) : State :=
  { setBay b (fun y => { y with bme := false, tdi := if y.tdi = .run then .error else y.tdi }) s with
    qps := tmap s.qps fun _ q => if q.bay = b then stopQp q else q }

def bmeCleared (b p : Nat) (s : State) : State := recount b (dropIssued (.bay b) p (dropWrites b p (bmeStopped b s)))

theorem dropWrites_keeps {β : Type} (g : State → β) (hport : ∀ p f s, g (setPort p f s) = g s) (hinc : ∀ k s, g (putInc k s) = g s)
    (hhalls : ∀ h s, g ({ s with halls := h } : State) = g s) (b p : Nat) (s : State) : g (dropWrites b p s) = g s := by
  have hbump : ∀ off k s, g (bumpPort p off k s) = g s := fun off k s => (hport _ _ _).trans (hinc _ _)
  unfold dropWrites
  dsimp only
  split
  · rw [hhalls]
  · rw [hbump, hhalls]

theorem dropWrites_outQ (b p : Nat) (s : State) :
    ∀ h ∈ (dropWrites b p s).halls, ∀ g ∈ h.2.engines, ∀ x ∈ g.2.outQ, (x.port.isSome && ownedBy b x.msg) = false := by
  have hhalls : (dropWrites b p s).halls = tmap s.halls fun _ h => { h with engines := tmap h.engines fun _ g =>
      { g with outQ := g.outQ.filter fun x => !(x.port.isSome && ownedBy b x.msg) } } := by
    unfold dropWrites
    dsimp only
    split <;> rfl
  rw [hhalls]
  intro h hh g hg x hx
  obtain ⟨h', -, rfl⟩ := List.mem_map.mp hh
  obtain ⟨g', -, rfl⟩ := List.mem_map.mp hg
  simpa only [Bool.not_eq_true'] using (List.mem_filter.mp hx).2

theorem bmeCleared_qps (b p : Nat) (s : State) : (bmeCleared b p s).qps = (bmeStopped b s).qps :=
  (dropIssued_keeps (·.qps) (fun _ _ _ => rfl) (fun _ _ => rfl) (fun _ _ => rfl) _ _ _).trans
    (dropWrites_keeps (·.qps) (fun _ _ _ => rfl) (fun _ _ => rfl) (fun _ _ => rfl) _ _ _)

theorem bmeCleared_halls (b p : Nat) (s : State) : (bmeCleared b p s).halls = (dropWrites b p (bmeStopped b s)).halls :=
  dropIssued_keeps (·.halls) (fun _ _ _ => rfl) (fun _ _ => rfl) (fun _ _ => rfl) _ _ _

theorem dropped_bays (b p : Nat) (s : State) :
    (dropIssued (.bay b) p (dropWrites b p (bmeStopped b s))).bays = (bmeStopped b s).bays :=
  (dropIssued_keeps (·.bays) (fun _ _ _ => rfl) (fun _ _ => rfl) (fun _ _ => rfl) _ _ _).trans
    (dropWrites_keeps (·.bays) (fun _ _ _ => rfl) (fun _ _ => rfl) (fun _ _ => rfl) _ _ _)

theorem tget_bmeCleared_self (b p : Nat) (s : State) :
    (tget (bmeCleared b p s).bays b).map (fun z => (z.bme, z.tdi))
      = (tget s.bays b).map fun y => (false, if y.tdi = .run then .error else y.tdi) := by
  rw [bmeCleared, recount, bays_setBay_self, dropped_bays, bmeStopped, bays_setBay_self, Option.map_map, Option.map_map]
  rfl

theorem tget_bmeCleared_ne (b p : Nat) (s : State) {c : Nat} (h : c ≠ b) :
    tget (bmeCleared b p s).bays c = tget s.bays c := by
  have hset : ∀ (f : Bay → Bay) (u : State), tget (setBay b f u).bays c = tget u.bays c := fun f u => by
    simp [setBay, tget_tmod, Ne.symm h]
  rw [bmeCleared, recount, hset, dropped_bays, bmeStopped, hset]

theorem bmeCleared_qps_error (b p : Nat) (s : State) : ∀ e ∈ (bmeCleared b p s).qps, e.2.bay = b → e.2.st = .error := by
  rw [bmeCleared_qps]
  intro e he hb
  obtain ⟨x, -, rfl⟩ := List.mem_map.mp he
  by_cases h : x.2.bay = b
  · simp only [if_pos h]
    exact stopQp_st x.2
  · exact absurd (by simpa only [if_neg h] using hb) h

/-- Settles O37: what dropping requests and writes keeps and removes, and the two settings. -/
theorem busMasterEnableGatesRequests : Obligations.BusMasterEnableGatesRequests := by
  unfold Obligations.BusMasterEnableGatesRequests
  refine ⟨fun s n hl hreach => ⟨?_, fun q hq => ⟨?_, fn_ne_of_dropIssued hq⟩, ?_⟩, ?_⟩
  · have hx : exec (.bmeClear (.pf0 n)) s = execBmeClear (.pf0 n) s := rfl
    rw [hx, execBmeClear, act_live hl]
    exact congrArg _ (if_pos hreach)
  · have hview := issueView_dropIssued (.pf0 n) n (setStd n (fun d => { d with bme := false }) s)
    rw [hq, getPort_setStd_self] at hview
    cases hs : getPort s n with
    | none => simp [hs] at hview
    | some r =>
      rw [hs] at hview
      exact congrArg Prod.snd (Option.some.inj hview)
  · have hx : exec (.bmeSet (.pf0 n)) s = execBmeSet (.pf0 n) s := rfl
    rw [hx, execBmeSet, act_live hl]
    exact congrArg _ (if_pos hreach)
  · intro s t b y hl hy hreach ht
    subst ht
    refine ⟨?_, bmeCleared_qps_error b y.hport s, ?_, fun q hq => fn_ne_of_dropIssued (s := dropWrites b y.hport (bmeStopped b s)) hq,
      ?_, fun c hc => tget_bmeCleared_ne b y.hport s hc, ?_⟩
    · have hx : exec (.bmeClear (.bay b)) s = execBmeClear (.bay b) s := rfl
      rw [hx, execBmeClear, act_live hl]
      simp only [hy, hreach]
      rfl
    · have hout := dropWrites_outQ b y.hport (bmeStopped b s)
      rw [← bmeCleared_halls] at hout
      exact hout
    · exact (tget_bmeCleared_self b y.hport s).trans (by rw [hy]; rfl)
    · have hx : exec (.bmeSet (.bay b)) s = execBmeSet (.bay b) s := rfl
      rw [hx, execBmeSet, act_live hl]
      exact congrArg _ (if_pos hreach)

end Sys2Proof.Machine

/-! ## PIDs, routes and multicast sets (R95, R206, R258, R271) -/

namespace Sys2Proof.Machine

open Sys2Proof

theorem entered_routes (c : Cmd) (s : State) : (entered c s).routes = s.routes := by rw [entered_eq]
theorem entered_mcast (c : Cmd) (s : State) : (entered c s).mcast = s.mcast := by rw [entered_eq]
theorem entered_groups (c : Cmd) (s : State) : (entered c s).groups = s.groups := by rw [entered_eq]

section
variable {s : State} {p : Params} (c : Cmd)

section
variable {n pid : Nat} {q : Port} (hr : raw p 0 2 = some n) (hq : getPort s n = some q) (ht : q.typ ≠ .span)
  (hb : portBusy s n = false) (hp : raw p 2 2 = some pid)
include hr hq ht hb hp

theorem bodyPidSet_assign (hpid : pid < 4096) (hfree : pidPort s pid = none ∨ pidPort s pid = some n) :
    (bodyPidSet p c s).run [] = .ok ((setPort n (fun q => { q with pid := some pid }) s, .done 0 []), []) := by
  have hport : idF p 0 0 2 none (fun v => inUse s v && !isType s .span v) = pure n :=
    idF_ok 0 hr (by simp [inUse_of_getPort hq, isType, hq, ht])
  have hset : idF p 1 2 2 none (fun v => v < 4096 || v == 0xFFFF) = pure pid := idF_ok 1 hp (by simp [hpid])
  have hother : (pid != 0xFFFF && (pidPort s pid).isSome && pidPort s pid != some n) = false := by
    rcases hfree with h | h <;> simp [h]
  simp only [bodyPidSet, hport, hset, rejectIf_ok _ hother, rejectIf_ok _ hb, pure_bind, if_neg (show pid ≠ 0xFFFF by omega)]
  rfl

theorem bodyPidSet_remove (hpid : pid = 0xFFFF) :
    (bodyPidSet p c s).run [] = .ok ((setPort n (fun q => { q with pid := none }) s, .done 0 []), []) := by
  subst hpid
  have hport : idF p 0 0 2 none (fun v => inUse s v && !isType s .span v) = pure n :=
    idF_ok 0 hr (by simp [inUse_of_getPort hq, isType, hq, ht])
  have hset : idF p 1 2 2 none (fun v => v < 4096 || v == 0xFFFF) = pure 0xFFFF := idF_ok 1 hp (by simp)
  simp only [bodyPidSet, hport, hset, rejectIf_ok _ hb, pure_bind]
  rfl

end

theorem bodyRouteSet_ok {n : Nat} {rs : List (Nat × Nat × Nat)} (hr : raw p 0 2 = some n) (h1 : 1 ≤ n) (h256 : n ≤ 256)
    (hrecs : routeRecs s p n 0 [] = pure rs) (hfault : routeFault s rs = none) :
    (bodyRouteSet p c s).run [] = .ok (({ s with
      routes := rs.foldl (fun t r => if r.2.1 = 3 then tdel t r.1 else tset t r.1 ⟨r.2.1, r.2.2⟩) s.routes }, .done 0 []), []) := by
  have hn : idF p 0 0 2 none (fun v => decide (1 ≤ v) && decide (v ≤ 256)) = pure n := idF_ok 0 hr (by simp [h1, h256])
  simp only [bodyRouteSet, hn, hrecs, pure_bind, hfault]
  rfl

theorem bodyMcastSet_ok {g n : Nat} {l : List Nat} (hr : raw p 0 2 = some g) (hg : g < 4096) (hn : raw p 2 2 = some n)
    (h512 : n ≤ 512) (hl : portList (inUse s) p 2 4 n 0 [] = pure l) :
    (bodyMcastSet p c s).run [] = .ok (({ s with mcast := if l.isEmpty then tdel s.mcast g else tset s.mcast g l }, .done 0 []), []) := by
  have hset : idF p 0 0 2 none (fun v => decide (v < 4096)) = pure g := idF_ok 0 hr (decide_eq_true hg)
  have hcount : idF p 1 2 2 none (fun v => decide (v ≤ 512)) = pure n := idF_ok 1 hn (decide_eq_true h512)
  simp only [bodyMcastSet, hset, hcount, hl, pure_bind]
  rfl

theorem bodyMgtTreeSet_ok {n : Nat} {l : List Nat} (hr : raw p 0 1 = some n) (h64 : n ≤ 64) (hl : treeList s p n 0 [] = pure l) :
    (bodyMgtTreeSet p c s).run [] = .ok (({ s with tree := l }, .done 0 []), []) := by
  have hcount : idF p 0 0 1 none (fun v => decide (v ≤ 64)) = pure n := idF_ok 0 hr (decide_eq_true h64)
  simp only [bodyMgtTreeSet, hcount, hl, pure_bind]
  rfl

end

/-- Settles O38: each body with the records it reads. -/
theorem routeTablesTakeTheirRecords : Obligations.RouteTablesTakeTheirRecords := by
  unfold Obligations.RouteTablesTakeTheirRecords
  refine ⟨fun s c p n pid q ht hr hq hty hb hp => ⟨fun hpid hfree => ?_, fun hpid => ?_⟩, ?_, ?_, ?_⟩
  · exact taken_done ht (bodyPidSet_assign c hr hq hty (by rwa [portBusy_entered]) hp hpid hfree)
  · exact taken_done ht (bodyPidSet_remove c hr hq hty (by rwa [portBusy_entered]) hp hpid)
  · intro s c p n rs ht hr h1 h256 hrecs hfault
    rw [← entered_routes c s]
    exact taken_done ht (bodyRouteSet_ok c hr h1 h256 hrecs hfault)
  · intro s c p g n l ht hr hg hn h512 hl
    rw [← entered_mcast c s]
    exact taken_done ht (bodyMcastSet_ok c hr hg hn h512 hl)
  · intro s c p n l ht hr h64 hl
    exact taken_done ht (bodyMgtTreeSet_ok c hr h64 hl)

end Sys2Proof.Machine

/-! ## Span groups (R265 to R269) -/

namespace Sys2Proof.Machine

open Sys2Proof

section
variable {s : State} {p : Params} (c : Cmd)

section
variable {g n w h r : Nat} {ms : List Nat} (hg : raw p 0 1 = some g) (hg64 : g < 64) (hn : raw p 2 1 = some n) (hn16 : n ≤ 16)
  (hw : (raw p 4 2).getD 100 = w) (hw1 : 1 ≤ w) (hwmax : w ≤ 10000) (hh : (raw p 8 4).getD 10 = h) (hh1 : 1 ≤ h)
  (hhmax : h ≤ 1000000) (hr : (raw p 12 1).getD 1 = r) (hr1 : r ≤ 1)
include hg hg64 hn hn16 hw hw1 hwmax hh hh1 hhmax hr hr1

/-- The fields of GROUP_SET before its list, each in range. -/
theorem groupSet_fields :
    idF p 0 0 1 none (fun v => decide (v < 64)) = pure g ∧ idF p 1 2 1 none (fun v => decide (v ≤ 16)) = pure n
      ∧ rangeF p 2 4 2 100 1 10000 = pure w ∧ rangeF p 3 8 4 10 1 1000000 = pure h
      ∧ elseF p 4 12 1 1 (fun v => decide (v ≤ 1)) 1 = pure r :=
  ⟨idF_ok 0 hg (decide_eq_true hg64), idF_ok 1 hn (decide_eq_true hn16), rangeF_ok 2 hw hw1 hwmax, rangeF_ok 3 hh hh1 hhmax,
    elseF_ok 4 hr (decide_eq_true hr1)⟩

variable (hms : portList (isType s .span) p 5 16 n 0 [] = pure ms)
include hms

section
variable (hn0 : n ≠ 0) (hfree : ∀ m ∈ ms, groupOf s m = none ∨ groupOf s m = some g)
include hn0 hfree

/-- A group that members of no other group join for the first time. -/
theorem bodyGroupSet_new (hnone : tget s.groups g = none) :
    (bodyGroupSet p c s).run [] = .ok ((newMismatches g s (regroup g { s with groups := tset s.groups g {
      members := ms, wait := w, grace := h, rebal := r == 1, home := firstHome ms, live := firstHome ms } }), .done 0 []), []) := by
  obtain ⟨h1, h2, h3, h4, h5⟩ := groupSet_fields hg hg64 hn hn16 hw hw1 hwmax hh hh1 hhmax hr hr1
  simp only [bodyGroupSet, h1, h2, h3, h4, h5, hms, pure_bind, if_neg hn0, hnone]
  rw [rejectIfAt_ok]
  · rfl
  · exact decide_eq_false (Nat.not_lt.mpr (List.findIdx_eq_length.mpr fun m hm => by rcases hfree m hm with h | h <;> simp [h]).ge)

/-- A group that was there moves its home table to its new members (R266). -/
theorem bodyGroupSet_again {y : Group} (hy : tget s.groups g = some y) :
    (bodyGroupSet p c s).run [] = .ok ((newMismatches g s (regroup g { s with groups := tset s.groups g { y with
      members := ms, wait := w, grace := h, rebal := r == 1, home := newHome y.members ms y.home } }), .done 0 []), []) := by
  obtain ⟨h1, h2, h3, h4, h5⟩ := groupSet_fields hg hg64 hn hn16 hw hw1 hwmax hh hh1 hhmax hr hr1
  simp only [bodyGroupSet, h1, h2, h3, h4, h5, hms, pure_bind, if_neg hn0, hy]
  rw [rejectIfAt_ok]
  · rfl
  · exact decide_eq_false (Nat.not_lt.mpr (List.findIdx_eq_length.mpr fun m hm => by rcases hfree m hm with h | h <;> simp [h]).ge)

end

theorem bodyGroupSet_delete (hn0 : n = 0) (hroutes : ∀ e ∈ s.routes, ¬(e.2.kind = 1 ∧ e.2.target = g)) :
    (bodyGroupSet p c s).run [] = .ok ((deleteGroup g s, .done 0 []), []) := by
  have hfree : (s.routes.any fun e => e.2.kind == 1 && e.2.target == g) = false := by
    rw [List.any_eq_false]
    exact fun e he => by simpa using hroutes e he
  obtain ⟨h1, h2, h3, h4, h5⟩ := groupSet_fields hg hg64 hn hn16 hw hw1 hwmax hh hh1 hhmax hr hr1
  simp only [bodyGroupSet, h1, h2, h3, h4, h5, hms, pure_bind, if_pos hn0, rejectIfAt_ok _ _ hfree]
  rfl

end

theorem bodyGroupIndirSet_ok {g : Nat} {x : Group} {idx : List Nat} (hg : raw p 0 1 = some g) (hx : tget s.groups g = some x)
    (hidx : indirEntries x.members.length p 256 0 [] = pure idx) :
    (bodyGroupIndirSet p c s).run [] = .ok ((regroup g { s with
      groups := tset s.groups g { x with home := idx.map fun k => x.members[k]?.getD 0 } }, .done 0 []), []) := by
  have hset : idF p 0 0 1 none (fun v => (tget s.groups v).isSome) = pure g := idF_ok 0 hg (by simp [hx])
  simp only [bodyGroupIndirSet, hset, hx, hidx, pure_bind]
  rfl

end

/-! ### The ends of pauses -/

section
variable {s : State} (hl : live s = true)
include hl

theorem exec_holdGraceExpiry_out {n k t : Nat} {q : Port} {g : Group} (hq : getPort s n = some q) (hk : groupOf s n = some k)
    (hg : tget s.groups k = some g) (ht : q.scfg.outSince = some t) (hgrace : q.scfg.graceOut = false)
    (hst : q.st = .hold ∨ q.st = .training) :
    exec (.holdGraceExpiry n) s = .next (regroupPort n (setScfg n (fun c => { c with graceOut := true })
      (clockTo (t + 2000 * g.grace) s))) := by
  have hx : exec (.holdGraceExpiry n) s = execHoldGraceExpiry n s := rfl
  have hout : (q.scfg.graceOut || !(q.st == .hold || q.st == .training)) = false := by
    rcases hst with h | h <;> simp [hgrace, h]
  rw [hx, execHoldGraceExpiry, act_live hl]
  simp only [hq, hk, Option.bind_some, hg, ht, hout]
  rfl

theorem exec_pauseDrained_free {g j : Nat} {x : Pause} (hp : entryPause s g j = some x) (hlt : x.start < s.dc)
    (hfree : (x.old.all fun m => !entryBusy s g j m) = true) : exec (.pauseDrained g j) s = .next (endPause g j s) := by
  have hx : exec (.pauseDrained g j) s = execPauseDrained g j s := rfl
  rw [hx, execPauseDrained, act_live hl]
  simp only [hp]
  exact congrArg _ (if_pos (by rw [hfree, decide_eq_true hlt]; rfl))

theorem exec_rebalWaitExpiry_paused {u : State} {g j : Nat} {y : Group} {x : Pause} (hy : tget s.groups g = some y)
    (hp : entryPause s g j = some x) (hu : clockTo (x.start + 2000 * y.wait) s = u) :
    exec (.rebalWaitExpiry g j) s = .next (if x.old.any fun m => entryBusy u g j m then
      fire (srcHall (hallOf ((entryMember u g j).getD 0)) 228) 2 g noActor (bump (.undrained g) 1 (endPause g j u))
      else endPause g j u) := by
  have hx : exec (.rebalWaitExpiry g j) s = execRebalWaitExpiry g j s := rfl
  rw [hx, execRebalWaitExpiry, act_live hl]
  simp only [hy, hp, hu]

end

/-- Settles O39: the bodies of the two commands, and the end of a pause with and without something left. -/
theorem groupsAreSetAndPausesEnd : Obligations.GroupsAreSetAndPausesEnd := by
  unfold Obligations.GroupsAreSetAndPausesEnd
  refine ⟨⟨?_, ?_⟩, ⟨fun s n k t q g hl hq hk hg ht hgr hst => exec_holdGraceExpiry_out hl hq hk hg ht hgr hst,
    fun s g j x hl hp hlt hfree => exec_pauseDrained_free hl hp hlt hfree, ?_⟩⟩
  · intro s c p g n w h r ms ht hg hg64 hn hn16 hw hw1 hwmax hh hh1 hhmax hr hr1 hms
    rw [← entered_groups c s, ← entered_routes c s]
    exact ⟨fun hn0 hfree hnone => taken_done ht
        (bodyGroupSet_new c hg hg64 hn hn16 hw hw1 hwmax hh hh1 hhmax hr hr1 hms hn0 hfree hnone),
      fun y hn0 hfree hy => taken_done ht
        (bodyGroupSet_again c hg hg64 hn hn16 hw hw1 hwmax hh hh1 hhmax hr hr1 hms hn0 hfree hy),
      fun hn0 hroutes => taken_done ht
        (bodyGroupSet_delete c hg hg64 hn hn16 hw hw1 hwmax hh hh1 hhmax hr hr1 hms hn0 hroutes)⟩
  · intro s c p g x idx ht hg hx hidx
    rw [← entered_groups c s] at hx ⊢
    exact taken_done ht (bodyGroupIndirSet_ok c hg hx hidx)
  · intro s u g j y x hl hy hp hu
    rw [exec_rebalWaitExpiry_paused hl hy hp hu]
    exact ⟨fun h => by simp [h], fun h => by simp [h]⟩

end Sys2Proof.Machine

/-! ## Buffers and leaves (R242, R243, R255 to R257, R286, R287) -/

namespace Sys2Proof.Machine

open Sys2Proof

theorem entered_bays (c : Cmd) (s : State) : (entered c s).bays = s.bays := by rw [entered_eq]

/-- A device without bays has none to tell of the resources that a port held back. -/
theorem noticeHeld_of_no_bays {b : State} (s : State) (h : b.bays = []) : noticeHeld b s = s := by rw [noticeHeld, h]; rfl

/-- A division that fits is not lowered. -/
theorem shrinkDiv_of_fits (c : Params) (span : Bool) {others : Nat} {d : Division} (h : divTotal others d ≤ 49152) :
    shrinkDiv c span others d = pure d := by
  have hx : divTotal others d - 49152 = 0 := Nat.sub_eq_zero_of_le h
  have hkeep : ∀ i lo v, lowerBy c i lo 0 v = pure v := fun i lo v => if_pos rfl
  simp only [shrinkDiv, hx, hkeep, pure_bind]

theorem bodyBufferSet_ok {s : State} {p : Params} {n a b w m al mc pl : Nat} {q : Port} (c : Cmd) (hr : raw p 0 2 = some n)
    (hq : getPort s n = some q) (ht : q.typ ≠ .span) (hst : q.st = .disabled ∨ q.st = .down) (hb : portBusy s n = false)
    (ha : (raw p 2 2).getD q.mins.req = a) (hbb : (raw p 4 2).getD q.mins.rsp = b) (hw : (raw p 6 2).getD q.mins.wr = w)
    (hsum : a + b + w ≤ 4096) (hm : (raw p 8 2).getD q.mins.mgt = m) (hm0 : m = 0)
    (hal : (raw p 10 1).getD (getHall s (hallOf n)).alpha = al) (hal7 : al ≤ 7)
    (hmc : (raw p 12 2).getD (getHall s (hallOf n)).mcRsv = mc) (hmc1 : 256 ≤ mc) (hmcmax : mc ≤ 8192)
    (hpl : (raw p 14 2).getD (getHall s (hallOf n)).poolRsv = pl) (hpl1 : 256 ≤ pl) (hplmax : pl ≤ 8192)
    (hfit : divTotal (hallMins s (hallOf n) - csum q.mins) { mins := ⟨a, b, w, m⟩, mc := mc, pool := pl } ≤ 49152) :
    (bodyBufferSet p c s).run [] = .ok ((setHall (hallOf n) (fun x => { x with alpha := al, mcRsv := mc, poolRsv := pl })
      (setPort n (fun q => { q with mins := ⟨a, b, w, m⟩ }) (settleCross s)), .done 0 []), []) := by
  have hspan : (q.typ == .span) = false := by simp [ht]
  have hdown : (q.st == .disabled || q.st == .down) = true := by rcases hst with h | h <;> simp [h]
  have hleast : divTotal (hallMins s (hallOf n) - csum q.mins)
      { mins := ⟨min 0 a, min 0 b, min 0 w, min 0 m⟩, mc := 256, pool := 256 } ≤ 49152 := by
    simp only [divTotal, csum] at hfit ⊢
    omega
  have h1 : rangeF p 1 2 2 q.mins.req 0 4096 = pure a := rangeF_ok 1 ha (Nat.zero_le a) (by omega)
  have h2 : rangeF p 2 4 2 q.mins.rsp 0 (4096 - a) = pure b := rangeF_ok 2 hbb (Nat.zero_le b) (by omega)
  have h3 : rangeF p 3 6 2 q.mins.wr 0 (4096 - a - b) = pure w := rangeF_ok 3 hw (Nat.zero_le w) (by omega)
  have h4 : rangeF p 4 8 2 q.mins.mgt 0 0 = pure m := rangeF_ok 4 hm (Nat.zero_le m) (by omega)
  simp only [bodyBufferSet, portF_ok hr (inUse_of_getPort hq), thePort_ok hq, pure_bind, hspan, Bool.false_eq_true, if_false,
    h1, h2, h3, h4, rangeF_ok 5 hal (Nat.zero_le al) hal7, rangeF_ok 6 hmc hmc1 hmcmax, rangeF_ok 7 hpl hpl1 hplmax, hleast,
    if_true, shrinkDiv_of_fits p false hfit, hdown, Bool.not_true, Bool.and_false, rejectIf_ok _ hb]
  rfl

theorem bodyLeafAssign_ok {s : State} {p : Params} {n src k l : Nat} {q : Port} {x : LeafCfg} (c : Cmd) (hr : raw p 0 2 = some n)
    (hq : getPort s n = some q) (hs : raw p 2 2 = some src) (hex : sourceExists s src = true) (hall : src ≠ 0xFFFF)
    (hgrp : src < 512 → groupOf s src = none) (hk : raw p 4 1 = some k) (hk4 : k < 4) (hl : raw p 6 2 = some l) (hlmax : l < 4096)
    (hx : leafCfg s (hallOf n) l = some x) (hport : x.port = n % 64) (hf : fencePending s n src (clsOf k) = false)
    (hb : portBusy s n = false) :
    (bodyLeafAssign p c s).run [] = .ok ((moveFlow n (clsOf k) l s src, .done 0 []), []) := by
  have h1 : idF p 1 2 2 none (fun v => v == 0xFFFF || sourceExists s v) = pure src := idF_ok 1 hs (by simp [hex])
  have h2 : idF p 2 4 1 none (fun v => decide (v < 4)) = pure k := idF_ok 2 hk (decide_eq_true hk4)
  have h3 : idF p 3 6 2 none (fun v => decide (v < 4096)) = pure l := idF_ok 3 hl (decide_eq_true hlmax)
  have hsrc : (decide (src < 512) && (groupOf s src).isSome) = false := by
    by_cases h : src < 512
    · simp [hgrp h]
    · simp [h]
  simp only [bodyLeafAssign, portF_ok hr (inUse_of_getPort hq), h1, h2, h3, pure_bind, hx, hport, beq_self_eq_true, Bool.not_true,
    rejectIfAt_ok _ _ rfl, rejectIfAt_ok _ _ hsrc, if_neg hall, hb, List.any_cons, hf, List.any_nil, Bool.or_self]
  rfl

section
variable {s : State} {h l : Nat} (v : Nat) (hm : mgrReach s = true) (hh : h < 8) (hl : 256 ≤ l) (hlmax : l < 4096)
include hm hh hl hlmax

theorem exec_scLeafCfgWrite_of_reach :
    ∃ t, exec (.scLeafCfgWrite h l v) s = .next t ∧
      (leafQ s h l ≠ [] → t = fire (srcHall h 229) 2 0 noActor s) ∧
      (leafQ s h l = [] → (s.ports.all fun e => !(hallOf e.1 == h && e.2.assign.any fun a => a.2 == l)) = true →
        bit v 31 = false → t = noticeHeld s (setHall h (fun x => { x with
          leaves := tdel x.leaves l, leafOff := tset x.leafOff l ⟨bits v 5 0, bits v 8 6, bits v 23 12⟩ }) s)) := by
  have hx : exec (.scLeafCfgWrite h l v) s = execScLeafCfgWrite h l v s := rfl
  have hlive : live s = true := (Bool.and_eq_true_iff.mp hm).1
  have hin : (decide (l < 256) || decide (4096 ≤ l) || decide (8 ≤ h) || !mgrReach s) = false := by
    simp [hm, Nat.not_lt.mpr hl, Nat.not_le.mpr hlmax, Nat.not_le.mpr hh]
  rw [hx, execScLeafCfgWrite, act_live hlive]
  simp only [hin]
  refine ⟨_, rfl, fun hq => ?_, fun hq hmap h31 => ?_⟩
  · have hne : (leafQ s h l).isEmpty = false := List.isEmpty_eq_false_iff.mpr hq
    simp [hne]
  · have hmapped : (s.ports.any fun e => hallOf e.1 == h && e.2.assign.any fun a => a.2 == l) = false := by
      rw [List.any_eq_false]
      intro e he
      simpa only [Bool.not_eq_true', Bool.not_eq_true] using List.all_eq_true.mp hmap e he
    simp only [hq, hmapped, h31]
    rfl

end

/-- Settles O40: each body with what fits, and the two answers to a write of SC_LEAF_CFG. -/
theorem buffersAndLeavesAreDivided : Obligations.BuffersAndLeavesAreDivided := by
  unfold Obligations.BuffersAndLeavesAreDivided
  refine ⟨?_, ?_, ?_, ?_⟩
  · intro s c p n a b w m al mc pl q ht hr hq hty hst hb ha hbb hw hsum hm hm0 hal hal7 hmc hmc1 hmcmax hpl hpl1 hplmax hfit
    exact taken_done ht (bodyBufferSet_ok c hr hq hty hst (by rwa [portBusy_entered]) ha hbb hw hsum hm hm0 hal hal7 hmc hmc1 hmcmax
      hpl hpl1 hplmax hfit)
  · intro s c p n src k l q x ht hr hq hs hex hall hgrp hk hk4 hl hlmax hx hport hf hb
    exact taken_done ht (bodyLeafAssign_ok c hr hq hs hex hall hgrp hk hk4 hl hlmax hx hport hf (by rwa [portBusy_entered]))
  · intro s h l v hm hh hl hlmax hq
    obtain ⟨t, ht, hfire, -⟩ := exec_scLeafCfgWrite_of_reach v hm hh hl hlmax
    rw [ht, hfire hq]
  · intro s h l v hm hh hl hlmax hq hmap h31 hbays
    obtain ⟨t, ht, -, hset⟩ := exec_scLeafCfgWrite_of_reach v hm hh hl hlmax
    rw [ht, hset hq hmap h31, noticeHeld_of_no_bays _ hbays]

end Sys2Proof.Machine

/-! ## Subscribers, services, Flights and meters (R293 to R306, R318, R324) -/

namespace Sys2Proof.Machine

open Sys2Proof

/-- A weight of SERVICE_SET that is given and not 0. -/
theorem weight_ok {p : Params} {off v : Nat} (i d : Nat) (h : raw p off 1 = some v) (h1 : 1 ≤ v) (hmax : v < 256) :
    rangeF p i off 1 d 1 255 = pure v := rangeF_ok i (by rw [h]; rfl) h1 (by omega)

section
variable {s : State} {p : Params} {n : Nat} {q : Port} (c : Cmd) (hr : raw p 0 2 = some n) (hq : getPort s n = some q)
include hr hq

section
variable (hb : portBusy s n = false)
include hb

section
variable {k r b : Nat} (hk : raw p 2 2 = some k) (hkmax : k < 4096) (hrate : (raw p 4 4).getD (lineRate q) = r) (hr1 : 1 ≤ r)
  (hrmax : r ≤ lineRate q) (hburst : (raw p 8 4).getD 65536 = b) (hb1 : 256 ≤ b) (hbmax : b ≤ 16777216)
include hk hkmax hrate hr1 hrmax hburst hb1 hbmax

theorem bodySubscriberSet_new (hnone : tget q.subs k = none) (hroom : subCount s (hallOf n) < 4096) :
    (bodySubscriberSet p c s).run [] = .ok ((putSub n k
      { rate := r, burst := b, b := (b * 2 ^ 24 : Nat), tLast := nsNow s } s, .done 0 []), []) := by
  have h1 : idF p 1 2 2 none (fun v => decide (v < 4096)) = pure k := idF_ok 1 hk (decide_eq_true hkmax)
  simp only [bodySubscriberSet, portF_ok hr (inUse_of_getPort hq), thePort_ok hq, h1, rangeF_ok 2 hrate hr1 hrmax,
    rangeF_ok 3 hburst hb1 hbmax, rejectIf_ok _ hb, pure_bind, hnone,
    rejectIf_ok _ (decide_eq_false (Nat.not_le.mpr hroom))]
  rfl

theorem bodySubscriberSet_again {u : Sub} (hu : tget q.subs k = some u) :
    (bodySubscriberSet p c s).run [] = .ok ((rerate n k (subRate s n k u) (subRate s n k { u with rate := r }) b
      { u with rate := r } s, .done 0 []), []) := by
  have h1 : idF p 1 2 2 none (fun v => decide (v < 4096)) = pure k := idF_ok 1 hk (decide_eq_true hkmax)
  simp only [bodySubscriberSet, portF_ok hr (inUse_of_getPort hq), thePort_ok hq, h1, rangeF_ok 2 hrate hr1 hrmax,
    rangeF_ok 3 hburst hb1 hbmax, rejectIf_ok _ hb, pure_bind, hu]
  rfl

end

theorem bodyServiceSet_ok {a b d e f g : Nat} (ha : raw p 2 1 = some a) (hbb : raw p 3 1 = some b) (hd : raw p 4 1 = some d)
    (he : raw p 5 1 = some e) (hf : raw p 6 1 = some f) (hg : raw p 7 1 = some g)
    (h1 : 1 ≤ a ∧ 1 ≤ b ∧ 1 ≤ d ∧ 1 ≤ e ∧ 1 ≤ f ∧ 1 ≤ g) (hmax : a < 256 ∧ b < 256 ∧ d < 256 ∧ e < 256 ∧ f < 256 ∧ g < 256) :
    (bodyServiceSet p c s).run [] = .ok ((setSched n (fun x => { x with weights := [a, b, d, e, f, g] }) s, .done 0 []), []) := by
  obtain ⟨ha1, hb1, hd1, he1, hf1, hg1⟩ := h1
  obtain ⟨ham, hbm, hdm, hem, hfm, hgm⟩ := hmax
  simp only [bodyServiceSet, portF_ok hr (inUse_of_getPort hq), thePort_ok hq, weight_ok 1 _ ha ha1 ham, weight_ok 2 _ hbb hb1 hbm,
    weight_ok 3 _ hd hd1 hdm, weight_ok 4 _ he he1 hem, weight_ok 5 _ hf hf1 hfm, weight_ok 6 _ hg hg1 hgm, rejectIf_ok _ hb,
    pure_bind]
  rfl

theorem bodyLengthModeSet_ok {m o : Nat} (hm : (raw p 2 1).getD 0 = m) (hm1 : m ≤ 1) (ho : (raw p 3 1).getD 0 = o) :
    (bodyLengthModeSet p c s).run [] = .ok ((setSched n (fun x => { x with wire := m == 1, overhead := o }) s, .done 0 []), []) := by
  have h1 : elseF p 1 2 1 0 (fun v => decide (v ≤ 1)) 0 = pure m := elseF_ok 1 hm (decide_eq_true hm1)
  simp only [bodyLengthModeSet, portF_ok hr (inUse_of_getPort hq), h1, anyF_ok ho, rejectIf_ok _ hb, pure_bind]
  rfl

end

theorem bodyFlightLoad_ok {k st : Nat} {es : List (Nat × Nat)} (hk : raw p 2 2 = some k) (hk1 : 1 ≤ k) (hk256 : k ≤ 256)
    (hst : raw p 8 8 = some st) (hlate : fabricNs s + 10000 ≤ st) (hes : flightEntries p k 0 [] = pure es)
    (hop : (s.ops.any fun o => o.kind == .flight n) = false) :
    (bodyFlightLoad p c s).run [] = .ok ((setSched n (fun d => { d with pendFlight := some { start := st, entries := es } }) s,
      .later (.flight n) []), []) := by
  have h1 : idF p 1 2 2 none (fun v => decide (1 ≤ v) && decide (v ≤ 256)) = pure k := idF_ok 1 hk (by simp [hk1, hk256])
  have h2 : elseF p 2 8 8 (fabricNs s + 10000) (fun v => decide (fabricNs s + 10000 ≤ v)) (fabricNs s + 10000) = pure st :=
    elseF_ok 2 (by rw [hst]; rfl) (decide_eq_true hlate)
  simp only [bodyFlightLoad, portF_ok hr (inUse_of_getPort hq), h1, h2, hes, rejectIf_ok _ hop, pure_bind]
  rfl

section
variable (hb : portBusy s n = false) {k cir pir cbs pbs ay ar : Nat} (hk : raw p 2 2 = some k) (hkmax : k < 4096)
  (hcir : (raw p 4 4).getD 0 = cir) (hcirmax : cir ≤ lineRate q) (hpir : (raw p 8 4).getD (lineRate q) = pir) (hpir1 : cir ≤ pir)
  (hpirmax : pir ≤ lineRate q) (hcbs : (raw p 12 4).getD 65536 = cbs) (hcbs1 : 256 ≤ cbs) (hcbsmax : cbs ≤ 16777216)
  (hpbs : (raw p 16 4).getD cbs = pbs) (hpbs1 : cbs ≤ pbs) (hpbsmax : pbs ≤ 16777216) (hay : (raw p 20 1).getD 1 = ay)
  (hay3 : ay ≤ 3) (har : (raw p 21 1).getD 2 = ar) (har3 : ar ≤ 3)
include hb hk hkmax hcir hcirmax hpir hpir1 hpirmax hcbs hcbs1 hcbsmax hpbs hpbs1 hpbsmax hay hay3 har har3

theorem bodyMeterSet_new {i : Nat} (hnone : findMeter s n k = none)
    (hi : lowestFree (tkeys (getHall s (hallOf n)).meters) 8192 = some i) (hroom : meterOver s (hallOf n) k = false)
    (hbays : s.bays = []) :
    (bodyMeterSet p c s).run [] = .ok ((setHall (hallOf n) (fun y => { y with meters := tset y.meters i {
        port := n % 64, sub := k, cir := cir, pir := pir, cbs := cbs, pbs := pbs, actY := ay, actR := ar,
        tc := cbs * 2 ^ 24, tp := pbs * 2 ^ 24, tLast := nsNow s } }) s, .done 0 []), []) := by
  have h1 : idF p 1 2 2 none (fun v => decide (v < 4096)) = pure k := idF_ok 1 hk (decide_eq_true hkmax)
  have h6 : elseF p 6 20 1 1 (fun v => decide (v ≤ 3)) 1 = pure ay := elseF_ok 6 hay (decide_eq_true hay3)
  have h7 : elseF p 7 21 1 2 (fun v => decide (v ≤ 3)) 2 = pure ar := elseF_ok 7 har (decide_eq_true har3)
  simp only [bodyMeterSet, portF_ok hr (inUse_of_getPort hq), thePort_ok hq, h1, rangeF_ok 2 hcir (Nat.zero_le cir) hcirmax,
    rangeF_ok 3 hpir hpir1 hpirmax, rangeF_ok 4 hcbs hcbs1 hcbsmax, rangeF_ok 5 hpbs hpbs1 hpbsmax, h6, h7, rejectIf_ok _ hb,
    pure_bind, hnone, hi, rejectIf_ok _ hroom, noticeHeld_of_no_bays _ hbays]
  rfl

theorem bodyMeterSet_again {i : Nat} {x y : Meter} (hx : findMeter s n k = some (i, x))
    (hy : meterRefill (meterInForce s x) (nsNow s) = y) :
    (bodyMeterSet p c s).run [] = .ok ((setMeter (hallOf n) i (fun _ => { y with
        was := some (nsNow s, { cir := y.cir, pir := y.pir, cbs := y.cbs, pbs := y.pbs, actY := y.actY, actR := y.actR, tc := y.tc,
                                tp := y.tp }),
        cir := cir, pir := pir, cbs := cbs, pbs := pbs, actY := ay, actR := ar,
        tc := min y.tc (cbs * 2 ^ 24), tp := min y.tp (pbs * 2 ^ 24) }) s, .done 0 []), []) := by
  have h1 : idF p 1 2 2 none (fun v => decide (v < 4096)) = pure k := idF_ok 1 hk (decide_eq_true hkmax)
  have h6 : elseF p 6 20 1 1 (fun v => decide (v ≤ 3)) 1 = pure ay := elseF_ok 6 hay (decide_eq_true hay3)
  have h7 : elseF p 7 21 1 2 (fun v => decide (v ≤ 3)) 2 = pure ar := elseF_ok 7 har (decide_eq_true har3)
  simp only [bodyMeterSet, portF_ok hr (inUse_of_getPort hq), thePort_ok hq, h1, rangeF_ok 2 hcir (Nat.zero_le cir) hcirmax,
    rangeF_ok 3 hpir hpir1 hpirmax, rangeF_ok 4 hcbs hcbs1 hcbsmax, rangeF_ok 5 hpbs hpbs1 hpbsmax, h6, h7, rejectIf_ok _ hb,
    pure_bind, hx, hy]
  rfl

end
end

/-- Settles O41: each body with its fields in range; a subscriber is new or was there. -/
theorem schedulerCommandsSetAPort : Obligations.SchedulerCommandsSetAPort := by
  unfold Obligations.SchedulerCommandsSetAPort
  refine ⟨?_, ?_, ?_, ?_⟩
  · intro s c p n k r b q ht hr hq hk hkmax hrate hr1 hrmax hb hburst hb1 hbmax
    have hb' : portBusy (entered c s) n = false := by rwa [portBusy_entered]
    exact ⟨fun hnone hroom => taken_done ht (bodySubscriberSet_new c hr hq hb' hk hkmax hrate hr1 hrmax hburst hb1 hbmax hnone hroom),
      fun u hu => taken_done ht (bodySubscriberSet_again c hr hq hb' hk hkmax hrate hr1 hrmax hburst hb1 hbmax hu)⟩
  · intro s c p n a b d e f g q ht hr hq ha hbb hd he hf hg hb ha1 hb1 hd1 he1 hf1 hg1 ham hbm hdm hem hfm hgm
    exact taken_done ht (bodyServiceSet_ok c hr hq (by rwa [portBusy_entered]) ha hbb hd he hf hg ⟨ha1, hb1, hd1, he1, hf1, hg1⟩
      ⟨ham, hbm, hdm, hem, hfm, hgm⟩)
  · intro s c p n m o q ht hr hq hb hm hm1 ho
    exact taken_done ht (bodyLengthModeSet_ok c hr hq (by rwa [portBusy_entered]) hm hm1 ho)
  · intro s c p n k st q es ht hr hq hk hk1 hk256 hst hlate hes hop
    exact taken_later ht (bodyFlightLoad_ok c hr hq hk hk1 hk256 hst hlate hes (by rwa [entered_ops]))

/-- Settles O42: METER_SET with a free meter and with the one it finds. -/
theorem meterSetMakesOrRerates : Obligations.MeterSetMakesOrRerates := by
  unfold Obligations.MeterSetMakesOrRerates
  intro s c p n k cir pir cbs pbs ay ar q ht hr hq hk hkmax hb hcir hcirmax hpir hpir1 hpirmax hcbs hcbs1 hcbsmax hpbs hpbs1 hpbsmax
    hay hay3 har har3
  have hb' : portBusy (entered c s) n = false := by rwa [portBusy_entered]
  exact ⟨fun i hnone hi hroom hbays => taken_done ht (bodyMeterSet_new c hr hq hb' hk hkmax hcir hcirmax hpir hpir1 hpirmax hcbs
      hcbs1 hcbsmax hpbs hpbs1 hpbsmax hay hay3 har har3 hnone hi hroom (by rw [entered_bays, hbays])),
    fun i x y hx hy => taken_done ht (bodyMeterSet_again c hr hq hb' hk hkmax hcir hcirmax hpir hpir1 hpirmax hcbs hcbs1 hcbsmax
      hpbs hpbs1 hpbsmax hay hay3 har har3 hx hy)⟩

end Sys2Proof.Machine

/-! ## Ingress (R208, R245, R248, R319 to R322) -/

namespace Sys2Proof.Machine

open Sys2Proof

section
variable {s v : State} {n : Nat} {q : Port} {a : Arrival} {r : List Arrival} (fc : Fc)

/-- The head of a port's pipe is taken, when no broadcast holds it back. -/
theorem exec_messageIngress_head (hl : live s = true) (hq : getPort s n = some q) (hw : q.mgtWait = []) (hin : q.inQ = a :: r)
    (hb : isBroadcast a.msg = false) (hovr : a.ovr = none) (hstage : a.msg.cls = .mgt → stageHeld (settleCross s) n = false)
    (hv : setPort n (fun q => { q with inQ := r }) (settleCross s) = v) :
    exec (.messageIngress n fc) s = .next (takeArrival n q a fc v) := by
  have hx : exec (.messageIngress n fc) s = execMessageIngress n fc s := rfl
  have hheld : (a.msg.cls == .mgt && stageHeld (settleCross s) n) = false := by
    by_cases h : a.msg.cls = .mgt
    · simp [hstage h]
    · simp [h]
  rw [hx, execMessageIngress, act_live hl]
  simp only [hq, hw, hin, hb, hheld, hv, unhold, hovr]
  rfl

theorem takeArrival_of_port {pe : Nat} (hr : routeArrival v n a = (.port pe, false))
    (hlate : a.msg.cls = .rsp → lateData v pe a.msg.tag = false) :
    takeArrival n q a fc v = meterArrival n q a (.port pe) fc v := by
  have hdata : (a.msg.cls == .rsp && lateData v pe a.msg.tag) = false := by
    by_cases h : a.msg.cls = .rsp
    · simp [hlate h]
    · simp [h]
  simp only [takeArrival, hr, hdata]
  rfl

theorem takeArrival_of_none (hr : routeArrival v n a = (.none, false)) (hacc : a.acc = false) (hnp : a.msg.np = false) :
    takeArrival n q a fc v
      = emit (.drop n a.msg) (fireDegr n 11 (bumpHall (hallOf n) oNoRoute 1 (releaseCred n a.msg v))) := by
  simp [takeArrival, hr, noDestination, endArrival, hacc, hnp]

theorem meterArrival_of_unmetered {e : Egress} (hm : findMeter v n (egressSub v (flowSource v n) e a.msg.cls) = none) :
    meterArrival n q a e fc v = forwardArrival n a a.msg e fc v := by simp only [meterArrival, hm]

section
variable {e : Egress} {k c : Nat} {x y : Meter} (hm : findMeter v n (egressSub v (flowSource v n) e a.msg.cls) = some (k, x))
  (hd : x.defer = []) (hy : meterRefill (meterInForce v x) (nsNow v) = y) (hc : meterColour y (chargeLen q a.msg) = c)
include hm hd hy hc

theorem meterArrival_pass (hact : appliedAction y c a.msg = 0) :
    meterArrival n q a e fc v = forwardArrival n a a.msg e fc
      (settleMeter (hallOf n) k c (meterBack v x (meterDebit y c (chargeLen q a.msg))) v) := by
  simp only [meterArrival, hm, hd, hy, hc, hact]
  rfl

theorem meterArrival_discard (hact : appliedAction y c a.msg = 3) :
    meterArrival n q a e fc v = bumpPort n oDiscard 1 (endArrival n a
      (settleMeter (hallOf n) k c (meterBack v x (meterDebit y c (chargeLen q a.msg))) v)) := by
  simp only [meterArrival, hm, hd, hy, hc, hact]
  rfl

end
end

/-! ### Engines, the core and defer queues -/

section
variable {s : State} (hl : live s = true)
include hl

theorem exec_engineMessageWait_core {p : Nat} {m : Msg} {r : List (Nat × Msg)} (hq : s.coreQ = (p, m) :: r)
    (hroom : aboveFloor (settleCross { s with coreQ := r }) (hallOf p) (cellsOf m) = true) :
    exec (.engineMessageWait coreSource) s = .next (storeAndPlace
      { msg := m, hall := hallOf p, cells := cellsOf m, acct := .pool none, src := coreSource } p
      (settleCross { s with coreQ := r })) := by
  have hx : exec (.engineMessageWait coreSource) s = execEngineMessageWait coreSource s := rfl
  rw [hx, execEngineMessageWait, act_live hl]
  simp only [if_true, hq, coreTry, hroom]
  rfl

theorem exec_engineMessageWait_engine {v : State} {e : Nat} {x : EngMsg} {r : List EngMsg} {k : Acct} (he : e < 64)
    (hq : (getEngine s e).outQ = x :: r) (hv : settleCross (setEngine e (fun g => { g with outQ := r }) s) = v)
    (hk : engineAcct v e (cellsOf x.msg) = some k) :
    exec (.engineMessageWait (512 + e)) s = .next (storeRouted
      { msg := x.msg, hall := e / 8, cells := cellsOf x.msg, acct := k, src := engineSource e }
      (match x.port with | some p => .port p | none => routePid v (galLocal v x.msg) x.msg) (bindTok x v.nextMid v)) := by
  have hx : exec (.engineMessageWait (512 + e)) s = execEngineMessageWait (512 + e) s := rfl
  have hcore : 512 + e ≠ coreSource := by simp only [coreSource]; omega
  have hin : (decide (512 ≤ 512 + e) && decide (512 + e < 576)) = true := by simp; omega
  rw [hx, execEngineMessageWait, act_live hl]
  simp only [if_neg hcore, hin, if_true, Nat.add_sub_cancel_left, hq, engineTry, hv, hk]
  rfl

section
variable {h k mid c : Nat} {r : List Nat} {x m : Meter} {y : Stored} {q : Port} (hx : tget (getHall s h).meters k = some x)
  (hd : x.defer = mid :: r) (hy : tget s.cells mid = some y) (hq : getPort s (64 * h + x.port) = some q)
  (hm : meterRefill (meterInForce s x) (nsNow s) = m) (hc : meterColour m (chargeLen q y.msg) = c)
include hx hd hy hq hm hc

theorem exec_deferHeadRelease_defer (hact : appliedAction m c y.msg = 2) :
    exec (.deferHeadRelease h k) s = .next (setMeter h k (fun _ => meterBack s x m) s) := by
  have hrun : exec (.deferHeadRelease h k) s = execDeferHeadRelease h k s := rfl
  rw [hrun, execDeferHeadRelease, act_live hl]
  simp only [hx, hd, hy, hq, hm, Option.map_some, Option.getD_some, hc, hact, if_true]

theorem exec_deferHeadRelease_discard (hact : appliedAction m c y.msg = 3) :
    exec (.deferHeadRelease h k) s = .next (retireMid false mid (dropRef mid (bumpPort (64 * h + x.port) oDiscard 1
      (settleMeter h k c (meterBack s x { meterDebit m c (chargeLen q y.msg) with defer := r }) s)))) := by
  have hrun : exec (.deferHeadRelease h k) s = execDeferHeadRelease h k s := rfl
  rw [hrun, execDeferHeadRelease, act_live hl]
  simp only [hx, hd, hy, hq, hm, Option.map_some, Option.getD_some, hc, hact]
  rfl

/-- The head of a defer queue that passes is queued along its route. -/
theorem exec_deferHeadRelease_pass (hact : appliedAction m c y.msg = 0) {u : State}
    (hu : settleMeter h k c (meterBack s x { meterDebit m c (chargeLen q y.msg) with defer := r }) s = u) :
    (∀ pe, y.route = .port pe → exec (.deferHeadRelease h k) s =
        .next (placeAt y.src pe mid y.msg.cls { u with cells := tset u.cells mid y }))
      ∧ (∀ pe, y.route = .spray pe → exec (.deferHeadRelease h k) s =
        .next (placeAt y.src pe mid y.msg.cls { u with cells := tset u.cells mid y }))
      ∧ (∀ g j, y.route = .entry g j → exec (.deferHeadRelease h k) s =
        .next (placeEntry g j mid y { u with cells := tset u.cells mid y }))
      ∧ (∀ g, y.route = .mcast g → exec (.deferHeadRelease h k) s =
        .next (replicate mid y y.targets { u with cells := tset u.cells mid y })) := by
  have hrun : exec (.deferHeadRelease h k) s = execDeferHeadRelease h k s := rfl
  rw [hrun, execDeferHeadRelease, act_live hl]
  simp only [hx, hd, hy, hq, hm, Option.map_some, Option.getD_some, hc, hact, hu]
  refine ⟨fun pe h => ?_, fun pe h => ?_, fun g j h => ?_, fun g h => ?_⟩ <;> simp [h]

end
end

/-- Settles O43: the head taken, its meter's answer, and the heads of the other queues. -/
theorem ingressTakesTheHead : Obligations.IngressTakesTheHead := by
  unfold Obligations.IngressTakesTheHead
  refine ⟨?_, fun s p m r hl hq hroom => exec_engineMessageWait_core hl hq hroom,
    fun s v e x r k hl he hq hv hk => exec_engineMessageWait_engine hl he hq hv hk, ?_⟩
  · intro s v n q a r fc hl hq hw hin hb hovr hstage hv
    rw [exec_messageIngress_head fc hl hq hw hin hb hovr hstage hv]
    refine ⟨fun pe hr hlate => ?_, fun hr hacc hnp => congrArg _ (takeArrival_of_none fc hr hacc hnp)⟩
    rw [takeArrival_of_port fc hr hlate]
    exact ⟨fun hm => congrArg _ (meterArrival_of_unmetered fc hm), fun k x y c hm hd hy hc =>
      ⟨fun hact => congrArg _ (meterArrival_pass fc hm hd hy hc hact), fun hact => congrArg _ (meterArrival_discard fc hm hd hy hc hact)⟩⟩
  · intro s h k mid r x m y q c hl hx hd hy hq hm hc
    exact ⟨exec_deferHeadRelease_defer hl hx hd hy hq hm hc, exec_deferHeadRelease_discard hl hx hd hy hq hm hc,
      fun u hact hu => exec_deferHeadRelease_pass hl hx hd hy hq hm hc hact hu⟩

end Sys2Proof.Machine

/-! ## Transmission (R240, R256, R289, R291, R563) -/

namespace Sys2Proof.Machine

open Sys2Proof

theorem exec_messageTransmitStart_chosen {s v : State} {n sv u l mid : Nat} {q : Port} (fc : Fc) {d : Sched} {x : Stored}
    (hl : live s = true) (hq : getPort s n = some q) (hhalf : q.scfg.rs.half = false) (hidle : txIdle q = true)
    (hv : takePipe n s = v) (hc : choose v n q fc = (d, some (sv, u, l))) (hx : headMsg v (hallOf n) l = some (mid, x)) :
    exec (.messageTransmitStart n fc) s = .next (startTx n x.msg (some mid) x.entry (idleServices n
      (chargeSub n u (chargeLen q x.msg)
        (let t := setSched n (fun _ => { d with
            lastSub := tset d.lastSub sv u, lastLeaf := tset d.lastLeaf (8 * u + sv) l }) v
         setLeafQ (hallOf n) l (leafQ t (hallOf n) l).tail t)))) := by
  have hrun : exec (.messageTransmitStart n fc) s = execMessageTransmitStart n fc s := rfl
  rw [hrun, execMessageTransmitStart, act_live hl]
  simp only [hq, hhalf, hidle, hv, hc, hx]
  rfl

theorem exec_transmissionEnd_edge {s v : State} {n : Nat} {q : Port} {x : Sending} (hl : live s = true) (hq : getPort s n = some q)
    (ht : q.typ ≠ .span) (hx : q.sched.sending = some x)
    (hv : noteTlp n (setSched n (fun d => { d with sending := none }) (clockTo x.endDc s)) = v) :
    exec (.transmissionEnd n) s = .next (x.mid.elim v fun k => endLeave k (retireMid true k v)) := by
  have hrun : exec (.transmissionEnd n) s = execTransmissionEnd n s := rfl
  have hspan : (q.typ == .span) = false := by simp [ht]
  have hedge : (q.typ != .span) = true := by simp [ht]
  rw [hrun, execTransmissionEnd, act_live hl]
  simp only [hq, hx, hspan, hedge, Bool.true_or, if_true, Bool.false_eq_true, if_false, hv]
  cases x.mid <;> rfl

/-! ### Fences -/

/-- No descriptor is a fence that is done. -/
theorem filter_isDesc_trimFences (s : State) (h : Nat) (l : List QItem) :
    (trimFences s h l).filter isDesc = l.filter isDesc := by
  rw [trimFences, List.filter_filter]
  refine List.filter_congr fun i _ => ?_
  cases i <;> simp [isDesc, fenceDone]

theorem exec_fenceRemoval_live {s : State} (h l : Nat) (hl : live s = true) :
    exec (.fenceRemoval h l) s = .next (setLeafQ h l (trimFences s h (leafQ s h l)) s) := act_live hl _

/-- Settles O44: the choice sent, the end of a message on an edge port, and the items that a leaf keeps. -/
theorem transmissionFollowsTheChoice : Obligations.TransmissionFollowsTheChoice := by
  unfold Obligations.TransmissionFollowsTheChoice
  refine ⟨fun s v n sv u l mid q fc d x => exec_messageTransmitStart_chosen fc, fun s v n q x hl hq ht hx hv => ?_,
    fun s h l hl => ⟨exec_fenceRemoval_live h l hl, _, exec_fenceRemoval_live h l hl, ?_, fun i hi => ?_⟩⟩
  · have hrun := exec_transmissionEnd_edge hl hq ht hx hv
    exact ⟨fun hm => hrun.trans (by rw [hm]; rfl), fun k hm => hrun.trans (by rw [hm]; rfl)⟩
  · rw [leafQ_setLeafQ_self, filter_isDesc_trimFences]
  · rw [leafQ_setLeafQ_self, trimFences, List.mem_filter] at hi
    simpa using hi

/-! ## The wheel, Flights and copies (R272 to R278, R298, R305 to R308) -/

theorem exec_wheelRelease_first {s : State} {h : Nat} {e : Nat × (Nat × Nat)} {r : List (Nat × (Nat × Nat))} (hl : live s = true)
    (ho : wheelOrder s h = e :: r) (ha : (getHall s h).wheelAt = none) :
    exec (.wheelRelease h) s = .next (wheelCycle h (clockTo (2 * e.1) s)) := by
  have hrun : exec (.wheelRelease h) s = execWheelRelease h s := rfl
  have hat : (getHall (clockTo (2 * e.1) s) h).wheelAt = none := by
    rw [← ha, clockTo_eq]
    rfl
  rw [hrun, execWheelRelease, act_live hl]
  simp only [ho, hat]
  rfl

section
variable {s : State} {n : Nat} {q : Port} (hl : live s = true) (hq : getPort s n = some q)
include hl hq

theorem exec_flightEntryBoundary_changed (hv : s.ft.valid = true) (he : q.sched.flight.entries ≠ [])
    (hm : gateMask s q ≠ q.sched.mask) :
    exec (.flightEntryBoundary n) s = .next (setSched n (fun d => { d with mask := gateMask s q }) s) := by
  have hrun : exec (.flightEntryBoundary n) s = execFlightEntryBoundary n s := rfl
  rw [hrun, execFlightEntryBoundary, act_live hl]
  simp [hq, hv, he, hm, holdMask]

theorem exec_flightTakeover_started {f : Flight} (hv : s.ft.valid = true) (hf : q.sched.pendFlight = some f)
    (hst : f.start ≤ fabricNs s) :
    exec (.flightTakeover n) s = .next (endOp (.flight n) 0 (le 8 (fabricNs s))
      (holdMask n (setSched n (fun d => { d with flight := f, pendFlight := none }) s))) := by
  have hrun : exec (.flightTakeover n) s = execFlightTakeover n s := rfl
  have hpend : (getPort s n).bind (·.sched.pendFlight) = some f := by rw [hq]; exact hf
  have huntil : untilFabric 8 f.start s = s := if_pos hst
  rw [hrun, execFlightTakeover, act_live hl]
  simp only [hpend, hv, if_true, huntil, takeover]
  rfl

end

theorem exec_multicastCopyCross_room {s u v : State} {mid h : Nat} {x : Stored} {ts : List Nat} (hl : live s = true)
    (hu : settleCross s = u) (hx : tget u.cells mid = some x) (hts : tget x.cross h = some ts) (hb : crossBehind u mid h x = false)
    (hroom : rsvRoom u h (getHall u h).mcUse (getHall u h).mcRsv x.cells = true)
    (hv : takeLink x.hall h x.cells (clockTo (linkFree u x.hall h - 1) u) = v) :
    exec (.multicastCopyCross mid h) s = .next
      (let kept := tfilter x.leafOf fun p _ => !ts.contains p
       let w := { v with cells := tset v.cells mid { x with cross := tdel x.cross h, leafOf := kept } }
       releaseWaits (dropRef mid (ts.foldl (fun t e => placeNow x.src e w.nextMid x.msg.cls t) (store
         { msg := x.msg, hall := h, cells := x.cells, acct := .mcRsv, refs := ts.length, src := x.src, leafOf := x.leafOf } w)))) := by
  have hrun : exec (.multicastCopyCross mid h) s = execMulticastCopyCross mid h s := rfl
  rw [hrun, execMulticastCopyCross, act_live hl]
  simp only [hu, hx, hts, hb, hroom, if_true, hv]
  rfl

theorem exec_mgtBroadcast_central {s : State} {m : Msg} {h k : Nat} (hl : live s = true) (ho : stageOf s none = some (h, k))
    (hfree : tget (getHall s h).stages k = none) (hlen : m.dlen ≤ 240) :
    exec (.mgtBroadcast (.central m)) s = .next (enterStage h k m none s) := by
  have hrun : exec (.mgtBroadcast (.central m)) s = execMgtBroadcast (.central m) s := rfl
  rw [hrun, execMgtBroadcast, act_live hl]
  simp [ho, hfree, hlen]

theorem exec_mgtBroadcast_port {s : State} {n : Nat} {q : Port} {a : Arrival} {r : List Arrival} (hl : live s = true)
    (hq : getPort s n = some q) (hw : q.mgtWait = []) (hin : q.inQ = a :: r) (hovr : a.ovr = none) (hb : isBroadcast a.msg = true)
    (hlen : a.msg.dlen ≤ 240) (htree : s.tree.contains n = true) (hfree : tget (getHall s (hallOf n)).stages (pipeOf n) = none) :
    exec (.mgtBroadcast (.port n)) s = .next (enterStage (hallOf n) (pipeOf n) a.msg (some n)
      (setPort n (fun q => { q with inQ := r }) s)) := by
  have hrun : exec (.mgtBroadcast (.port n)) s = execMgtBroadcast (.port n) s := rfl
  rw [hrun, execMgtBroadcast, act_live hl]
  simp only [hq, hw, hin, hb, htree, hfree, unhold, hovr, List.isEmpty_nil, Bool.not_true, Bool.false_eq_true, if_false,
    if_neg (Nat.not_lt.mpr hlen)]
  rfl

theorem exec_mgtBroadcastCopyLeave_last {s : State} {h k n : Nat} {q : Port} (fc : Fc) {g : Stage} (hl : live s = true)
    (hg : tget (getHall s h).stages k = some g) (hq : getPort s n = some q) (hports : g.ports = [n]) (harr : g.arrival = none)
    (hhalf : q.scfg.rs.half = false) (hidle : txIdle q = true) (hcr : creditOk q fc g.msg = true) :
    exec (.mgtBroadcastCopyLeave h k n fc) s = .next (setHall h (fun x => { x with stages := tdel x.stages k })
      (startTx n g.msg none none (takeLink h (hallOf n) 1 s))) := by
  have hrun : exec (.mgtBroadcastCopyLeave h k n fc) s = execMgtBroadcastCopyLeave h k n fc s := rfl
  rw [hrun, execMgtBroadcastCopyLeave, act_live hl]
  simp [hg, hq, hports, harr, hhalf, hidle, hcr]

/-- Settles O45: the wheel, the two events of a Flight, and the four ways of a copy. -/
theorem wheelFlightsAndCopies : Obligations.WheelFlightsAndCopies := by
  unfold Obligations.WheelFlightsAndCopies
  exact ⟨⟨fun s h e r => exec_wheelRelease_first, fun s n q => exec_flightEntryBoundary_changed,
      fun s n q f hl hq => exec_flightTakeover_started hl hq⟩,
    fun s u v mid h x ts => exec_multicastCopyCross_room, fun s m h k => exec_mgtBroadcast_central,
    fun s n q a r => exec_mgtBroadcast_port, fun s h k n q fc g => exec_mgtBroadcastCopyLeave_last fc⟩

end Sys2Proof.Machine

/-! ## QPs, regions and classes (R338, R339, R351, R352, R363, R367, R368, R371, R376) -/

namespace Sys2Proof.Machine

open Sys2Proof

/-! ### What entering a command leaves of Gallery -/

theorem entered_qps (c : Cmd) (s : State) : (entered c s).qps = s.qps := by rw [entered_eq]
theorem entered_qcls (c : Cmd) (s : State) : (entered c s).qcls = s.qcls := by rw [entered_eq]
theorem entered_halls (c : Cmd) (s : State) : (entered c s).halls = s.halls := by rw [entered_eq]
theorem fewestEngine_entered (c : Cmd) (s : State) (h : Nat) : fewestEngine (entered c s) h = fewestEngine s h := by
  rw [entered_eq]; rfl
theorem bayBusy_entered (c : Cmd) (s : State) (b : Nat) : bayBusy (entered c s) b = bayBusy s b := by rw [entered_eq]; rfl
theorem findRegion_entered (c : Cmd) (s : State) (h : Nat) : findRegion (entered c s) h = findRegion s h := by rw [entered_eq]; rfl
theorem regionBusy_entered (c : Cmd) (s : State) (h : Nat) : regionBusy (entered c s) h = regionBusy s h := by rw [entered_eq]; rfl
theorem qpRecord_entered (c : Cmd) (s : State) (n : Nat) (q : Qp) : qpRecord (entered c s) n q = qpRecord s n q := by
  rw [entered_eq]; rfl

theorem bayBusy_of_active {s : State} {b : Nat} {y : Bay} (hy : tget s.bays b = some y) (hst : y.st = .active) :
    bayBusy s b = false := by simp [bayBusy, hy, hst]

theorem qpF_ok {s : State} {p : Params} {n : Nat} {q : Qp} (hr : raw p 0 4 = some n) (hq : tget s.qps n = some q) :
    qpF s p = pure (n, q) := by
  simp [qpF, idF_ok 0 hr (ok := fun v => (tget s.qps v).isSome) (by simp [hq]), hq]

/-! ### The bodies -/

section
variable {s : State} {p : Params} (c : Cmd)

section
variable {b : Nat} {y : Bay} (hr : raw p 0 2 = some b) (hy : tget s.bays b = some y) (hst : y.st = .active)
include hr hy hst

theorem bodyCtxTableSet_ok {n a : Nat} (hl : y.tdi ≠ .locked) (hrun : y.tdi ≠ .run) (hno : qpsHeld s b = 0)
    (hn : (raw p 4 4).getD y.tgt.qp = n) (hmax : n ≤ y.tgt.qp) (ha : raw p 8 8 = some a) (hal : a % 4096 = 0) :
    (bodyCtxTableSet p c s).run []
      = .ok ((setBay b (fun y => { y with ctx := if a = 0 ∧ n = 0 then none else some (a, n) }) s, .done 0 []), []) := by
  have haddr : idF p 2 8 8 none (fun v => v % 4096 == 0) = pure a := idF_ok 2 ha (by simp [hal])
  have hlock : tdiLocked s b = false := by simp [tdiLocked, hy, hl, hrun]
  simp only [bodyCtxTableSet, bayF_ok hr hy, rangeF_ok 1 hn (Nat.zero_le n) hmax, haddr, rejectIf_ok _ (bayBusy_of_active hy hst),
    rejectIf_ok _ hlock, pure_bind, hno, Bool.and_eq_true, decide_eq_true_eq]
  rfl

theorem bodyQpCreate_ok {n cl w pin k : Nat} {x : Nat × Nat} (hx : y.ctx = some x) (hn : raw p 4 4 = some n) (hnmax : n < 2 ^ 20)
    (hfree : tget s.qps n = none) (hcl : (raw p 8 1).getD 0 = cl) (hcl7 : cl ≤ 7) (hw : (raw p 10 2).getD 512 = w) (hw1 : 1 ≤ w)
    (hwmax : w ≤ 512) (hpin : (raw p 12 1).getD 0 = pin) (hpin1 : pin ≤ 1) (hquota : qpsHeld s b < y.tgt.qp)
    (hslot : freeSlot s b x.2 = some k)
    (hpinned : pin = 1 → (s.qps.filter fun x => x.2.pin && x.2.engine == fewestEngine s (hallOf y.hport)).length < 224
      ∧ (s.qps.filter fun x => x.2.pin && (x.2.engine / 8 == hallOf y.hport && x.2.bay == b)).length < y.tgt.ctx) :
    (bodyQpCreate p c s).run [] = .ok ((
      (let q : Qp := { bay := b, engine := fewestEngine s (hallOf y.hport), cls := cl, wmax := w, pin := pin == 1, slot := k }
       noticeHeld s { s with qps := tset s.qps n q }), .done 0 (le 4 n ++ le 1 (fewestEngine s (hallOf y.hport)))), []) := by
  have hnum : idF p 1 4 4 (some 0xFFFFFFFF) (fun v => decide (v < 2 ^ 20) || v == 0xFFFFFFFF) = pure n :=
    idF_ok 1 hn (by rw [decide_eq_true hnmax]; rfl)
  have hcls : elseF p 2 8 1 0 (fun v => decide (v ≤ 7)) 0 = pure cl := elseF_ok 2 hcl (decide_eq_true hcl7)
  have hpin' : elseF p 4 12 1 0 (fun v => decide (v ≤ 1)) 0 = pure pin := elseF_ok 4 hpin (decide_eq_true hpin1)
  have hne : n ≠ 0xFFFFFFFF := by omega
  have hroom : (decide (y.tgt.qp ≤ qpsHeld s b) || (tget s.qps n).isSome || decide (2 ^ 20 ≤ n)
      || false) = false := by
    rw [decide_eq_false (Nat.not_le.mpr hquota), hfree, decide_eq_false (Nat.not_le.mpr hnmax)]
    rfl
  have hpins : (decide (pin = 1) && (decide (224 ≤ (s.qps.filter fun x => x.2.pin && x.2.engine == fewestEngine s (hallOf y.hport)).length)
      || decide (y.tgt.ctx ≤ (s.qps.filter fun x => x.2.pin && (x.2.engine / 8 == hallOf y.hport && x.2.bay == b)).length))) = false := by
    by_cases h : pin = 1
    · obtain ⟨h1, h2⟩ := hpinned h
      rw [decide_eq_false (Nat.not_le.mpr h1), decide_eq_false (Nat.not_le.mpr h2)]
      simp
    · simp [h]
  simp only [bodyQpCreate, bayF_ok hr hy, hnum, hcls, rangeF_ok 3 hw hw1 hwmax, hpin', hx, Option.isNone_some,
    rejectIf_ok _ (bayBusy_of_active hy hst), pure_bind, if_neg hne, Option.map_some, Option.getD_some, hslot,
    rejectIf_ok _ hroom, rejectIf_ok _ hpins, rejectIf_ok _ rfl]
  rfl

theorem bodyMrRegister_ok {a l pg ac i : Nat} (ha : raw p 8 8 = some a) (hl : raw p 16 8 = some l) (hlmax : l ≤ 2 ^ 48)
    (hend : a + l ≤ 2 ^ 64) (hpg : (raw p 24 1).getD 0 = pg) (hpg1 : pg ≤ 1) (hac : (raw p 25 1).getD 0 = ac)
    (hi : lowestFree (tkeys (getHall s (hallOf y.hport)).mrs) 16384 = some i) :
    (bodyMrRegister p c s).run [] = .ok ((
      (let r : Region := { bay := b, gen := tgetD (getHall s (hallOf y.hport)).mrGen i 0, addr := a, length := l, paging := pg == 1,
                           access := ac % 4 }
       setHall (hallOf y.hport) (fun x => { x with mrs := tset x.mrs i r }) s),
      .done 0 (le 4 (i + 2 ^ 14 * hallOf y.hport + 2 ^ 17 * tgetD (getHall s (hallOf y.hport)).mrGen i 0))), []) := by
  have haddr : idF p 1 8 8 none (fun _ => true) = pure a := idF_ok 1 ha rfl
  have hlen : idF p 2 16 8 none (fun _ => true) = pure l := idF_ok 2 hl rfl
  have hlarge : (decide (2 ^ 48 < l) || decide (2 ^ 64 < a + l)) = false := by
    rw [decide_eq_false (Nat.not_lt.mpr hlmax), decide_eq_false (Nat.not_lt.mpr hend)]
    rfl
  have hpage : elseF p 3 24 1 0 (fun v => decide (v ≤ 1)) 0 = pure pg := elseF_ok 3 hpg (decide_eq_true hpg1)
  simp only [bodyMrRegister, bayF_ok hr hy, haddr, hlen, rejectIfAt_ok _ _ hlarge, hpage, anyF_ok hac,
    rejectIf_ok _ (bayBusy_of_active hy hst), pure_bind, hi]
  rfl

end

section
variable {n : Nat} {q : Qp} (hr : raw p 0 4 = some n) (hq : tget s.qps n = some q)
include hr hq

theorem bodyQpQuery_ok : (bodyQpQuery p c s).run [] = .ok ((s, .done 0 (qpRecord s n q)), []) := by
  simp only [bodyQpQuery, qpF_ok hr hq, pure_bind]
  rfl

variable (hb : bayBusy s q.bay = false)
include hb

theorem bodyQpDestroy_ok (hst : q.st = .reset ∨ q.st = .error) :
    (bodyQpDestroy p c s).run [] = .ok ((noticeHeld s (kick q.engine (dropQp n s)), .done 0 []), []) := by
  have hstop : (q.st != .reset && q.st != .error) = false := by rcases hst with h | h <;> simp [h]
  simp only [bodyQpDestroy, qpF_ok hr hq, rejectIf_ok _ hstop, rejectIf_ok _ hb, pure_bind]
  rfl

theorem bodyQpModify_error (ht : raw p 4 1 = some 4) :
    (bodyQpModify p c s).run [] = .ok ((noticeHeld s (setQp n (errorQp none 7) s), .done 0 []), []) := by
  have hto : idF p 1 4 1 none (fun v => decide (v ≤ 4)) = pure 4 := idF_ok 1 ht (by decide)
  simp only [bodyQpModify, qpF_ok hr hq, hto, pure_bind, whenTo, Nat.reduceBEq, Bool.false_eq_true, if_false, Bool.false_and, hb]
  rfl

theorem bodyQpModify_reset (ht : raw p 4 1 = some 0) (hst : q.st = .init ∨ q.st = .error) :
    (bodyQpModify p c s).run [] = .ok ((noticeHeld s (setQp n resetQp s), .done 0 []), []) := by
  have hto : idF p 1 4 1 none (fun v => decide (v ≤ 4)) = pure 0 := idF_ok 1 ht (by decide)
  have hmay : qpMay q.st 0 = true := by rcases hst with h | h <;> rw [h] <;> rfl
  simp only [bodyQpModify, qpF_ok hr hq, hto, pure_bind, whenTo, Nat.reduceBEq, Bool.false_eq_true, if_false, Bool.false_and, hmay, hb]
  rfl

section
variable (hvec : q.cfg.vector ≠ some 0xFFFF)
include hvec

omit hr hq hb in
/-- The MSI-X vector that QP_MODIFY keeps: 0xFFFF stands for none, and no QP has the vector 0xFFFF. -/
theorem keptVector : (if q.cfg.vector.getD 0xFFFF = 0xFFFF then none else some (q.cfg.vector.getD 0xFFFF)) = q.cfg.vector := by
  cases h : q.cfg.vector with
  | none => rfl
  | some v =>
    have hv : v ≠ 0xFFFF := fun hv => hvec (by rw [h, hv])
    simp [hv]

theorem bodyQpModify_rts (ht : raw p 4 1 = some 3) (hst : q.st = .rtr) {r k : Nat} (hrto : (raw p 44 2).getD 100 = r) (hr1 : 1 ≤ r)
    (hrmax : r ≤ 10000) (hk : (raw p 46 1).getD 7 = k) (hk1 : 1 ≤ k) (hkmax : k ≤ 15) :
    (bodyQpModify p c s).run [] = .ok ((noticeHeld s (setQp n (fun x =>
      { x with st := .rts, cfg := { q.cfg with rto := r, retry := k }, w := 256 * min 16 x.wmax, armed := none }) s), .done 0 []), []) := by
  have hto : idF p 1 4 1 none (fun v => decide (v ≤ 4)) = pure 3 := idF_ok 1 ht (by decide)
  have hspray : (b2n q.cfg.spray == 1) = q.cfg.spray := by cases q.cfg.spray <;> rfl
  simp only [bodyQpModify, qpF_ok hr hq, hto, pure_bind, whenTo, Nat.reduceBEq, Bool.false_eq_true, if_false, if_true, Bool.false_and,
    rangeF_ok 13 hrto hr1 hrmax, rangeF_ok 14 hk hk1 hkmax, hst, hb, keptVector hvec, hspray]
  rfl

/-- The path MTU of 4,096 bytes and no spraying, as QP_MODIFY reads them in its transition to RTR. -/
theorem bodyQpModify_rtr (ht : raw p 4 1 = some 2) (hst : q.st = .init) {pid : Nat} (hpid : raw p 36 2 = some pid)
    (hmtu : (raw p 5 1).getD 4 = 4) (hspray : (raw p 6 1).getD 0 = 0) {qpn : Nat} (hqpn : raw p 40 4 = some qpn) (hqmax : qpn < 2 ^ 20)
    (hmax : pid < 4096) :
    (bodyQpModify p c s).run [] = .ok ((noticeHeld s (setQp n (fun x => { x with
      st := .rtr, dgram := some false, cfg := { q.cfg with peerPid := pid, peerQpn := qpn, mtu := 4, spray := false } }) s),
      .done 0 []), []) := by
  have hto : idF p 1 4 1 none (fun v => decide (v ≤ 4)) = pure 2 := idF_ok 1 ht (by decide)
  have h2 : elseF p 2 5 1 4 (fun v => decide (v ≤ 4)) 4 = pure 4 := elseF_ok 2 hmtu rfl
  have h3 : elseF p 3 6 1 0 (fun v => decide (v ≤ 1)) 0 = pure 0 := elseF_ok 3 hspray rfl
  have h10 : idF p 10 36 2 none (fun v => decide (v < 4096) || v == 0xFFFF) = pure pid := idF_ok 10 hpid (by simp [hmax])
  have h12 : idF p 12 40 4 none (fun v => decide (v < 2 ^ 20)) = pure qpn := idF_ok 12 hqpn (decide_eq_true hqmax)
  have hconn : (pid == 0xFFFF) = false := by simp; omega
  simp only [bodyQpModify, qpF_ok hr hq, hto, pure_bind, whenTo, Nat.reduceBEq, Bool.false_eq_true, if_false, if_true,
    h2, h3, h10, hconn, h12, Bool.true_and, Bool.not_false, hst, hb, keptVector hvec]
  rfl

theorem bodyQpModify_datagram (ht : raw p 4 1 = some 2) (hst : q.st = .init) (hpid : raw p 36 2 = some 0xFFFF)
    (hmtu : (raw p 5 1).getD 4 = 4) (hspray : (raw p 6 1).getD 0 = 0) :
    (bodyQpModify p c s).run [] = .ok ((noticeHeld s (setQp n (fun x => { x with
      st := .rtr, dgram := some true, cfg := { q.cfg with peerPid := 0xFFFF, mtu := 4, spray := false } }) s), .done 0 []), []) := by
  have hto : idF p 1 4 1 none (fun v => decide (v ≤ 4)) = pure 2 := idF_ok 1 ht (by decide)
  have h2 : elseF p 2 5 1 4 (fun v => decide (v ≤ 4)) 4 = pure 4 := elseF_ok 2 hmtu rfl
  have h3 : elseF p 3 6 1 0 (fun v => decide (v ≤ 1)) 0 = pure 0 := elseF_ok 3 hspray rfl
  have h10 : idF p 10 36 2 none (fun v => decide (v < 4096) || v == 0xFFFF) = pure 0xFFFF := idF_ok 10 hpid rfl
  simp only [bodyQpModify, qpF_ok hr hq, hto, pure_bind, whenTo, Nat.reduceBEq, Bool.false_eq_true, if_false, if_true,
    h2, h3, h10, Bool.not_true, Bool.and_false, hst, hb, keptVector hvec]
  rfl

end

theorem bodyQpModify_init (ht : raw p 4 1 = some 1) (hst : q.st = .reset) {a b d i j k : Nat} (ha : raw p 8 8 = some a)
    (hbb : raw p 16 8 = some b) (hd : raw p 24 8 = some d) (hal : a % 4096 = 0 ∧ b % 4096 = 0 ∧ d % 4096 = 0)
    (hi : (raw p 32 1).getD 8 = i) (hj : (raw p 33 1).getD 8 = j) (hk : (raw p 34 1).getD 9 = k) (hi4 : 4 ≤ i) (hi11 : i ≤ 11)
    (hj4 : 4 ≤ j) (hj11 : j ≤ 11) (hk4 : 4 ≤ k) (hk11 : k ≤ 11) (hv : (raw p 38 2).getD 0xFFFF = 0xFFFF) :
    (bodyQpModify p c s).run [] = .ok ((noticeHeld s (setQp n (fun x => { x with
      st := .init, cfg := { q.cfg with sqAddr := a, rqAddr := b, crAddr := d, sqLog := i, rqLog := j, crLog := k, vector := none } }) s),
      .done 0 []), []) := by
  obtain ⟨hala, halb, hald⟩ := hal
  have hto : idF p 1 4 1 none (fun v => decide (v ≤ 4)) = pure 1 := idF_ok 1 ht (by decide)
  have h4 : idF p 4 8 8 none (fun v => v % 4096 == 0) = pure a := idF_ok 4 ha (by simp [hala])
  have h5 : idF p 5 16 8 none (fun v => v % 4096 == 0) = pure b := idF_ok 5 hbb (by simp [halb])
  have h6 : idF p 6 24 8 none (fun v => v % 4096 == 0) = pure d := idF_ok 6 hd (by simp [hald])
  have h11 : ∀ f : Nat → Bool, idF p 11 38 2 (some 0xFFFF) (fun v => v == 0xFFFF || f v) = pure 0xFFFF :=
    fun f => idF_ok_or_default 11 hv rfl
  have hspray : (b2n q.cfg.spray == 1) = q.cfg.spray := by cases q.cfg.spray <;> rfl
  simp only [bodyQpModify, qpF_ok hr hq, hto, pure_bind, whenTo, Nat.reduceBEq, Bool.false_eq_true, if_false, if_true, Bool.false_and,
    h4, h5, h6, h11, rangeF_ok 7 hi hi4 hi11, rangeF_ok 8 hj hj4 hj11, rangeF_ok 9 hk hk4 hk11, hst, hb, hspray]
  rfl

end

theorem bodyMrDeregister_ok {h : Nat} {r : Region} (hr : raw p 0 4 = some h) (hf : findRegion s h = some r)
    (hb : bayBusy s r.bay = false) (hop : (s.ops.any fun o => o.kind == .deregister h) = false) :
    (regionBusy s h = false → (bodyMrDeregister p c s).run [] = .ok ((freeRegion h s, .done 0 []), []))
      ∧ (regionBusy s h = true → (bodyMrDeregister p c s).run []
        = .ok ((setRegion h (fun r => { r with ending := true }) s, .later (.deregister h) []), [])) := by
  have hset : idF p 0 0 4 none (fun v => (findRegion s v).isSome) = pure h := idF_ok 0 hr (by simp [hf])
  simp only [bodyMrDeregister, hset, pure_bind, hf, hb, hop]
  exact ⟨fun h => by rw [h]; rfl, fun h => by rw [h]; rfl⟩

theorem bodyQpClassSet_ok {k st d : Nat} (hr : raw p 0 1 = some k) (hk : k ≤ 7) (hst : (raw p 1 1).getD 1 = st) (h1 : 1 ≤ st)
    (h64 : st ≤ 64) (hd : (raw p 2 1).getD 2 = d) (h2 : 2 ≤ d) (hd64 : d ≤ 64) :
    (bodyQpClassSet p c s).run [] = .ok (({ s with qcls := tset s.qcls k (st, d) }, .done 0 []), []) := by
  have hset : idF p 0 0 1 none (fun v => decide (v ≤ 7)) = pure k := idF_ok 0 hr (decide_eq_true hk)
  simp only [bodyQpClassSet, hset, rangeF_ok 1 hst h1 h64, rangeF_ok 2 hd h2 hd64, pure_bind]
  rfl

end

/-- Settles O46: the bodies of the commands, each in the states its rule names. -/
theorem galleryCommandsSetQpsAndRegions : Obligations.GalleryCommandsSetQpsAndRegions := by
  unfold Obligations.GalleryCommandsSetQpsAndRegions
  refine ⟨?_, ?_, ?_, ?_, ?_, ?_, ?_, ?_, ?_⟩
  · intro s c p b n a y ht hr hy hst hl hrun hno hn hmax ha hal
    exact taken_done ht (bodyCtxTableSet_ok c hr (by rwa [entered_bays]) hst hl hrun (by rwa [qpsHeld, entered_qps]) hn hmax ha hal)
  · intro s c p b n cl w pin k y x ht hr hy hst hx hn hnmax hfree hcl hcl7 hw hw1 hwmax hpin hpin1 hquota hslot hpinned
    have hbody := bodyQpCreate_ok (s := entered c s) c hr (by rwa [entered_bays]) hst hx hn hnmax (by rwa [entered_qps]) hcl hcl7
      hw hw1 hwmax hpin hpin1 (by rwa [qpsHeld, entered_qps]) (by rwa [freeSlot, entered_qps])
      (by rwa [entered_qps, fewestEngine_entered])
    rw [entered_qps, fewestEngine_entered] at hbody
    exact taken_done ht hbody
  · intro s c p n q ht hr hq hb hvec
    have hq' : tget (entered c s).qps n = some q := by rwa [entered_qps]
    have hb' : bayBusy (entered c s) q.bay = false := by rwa [bayBusy_entered]
    refine ⟨fun hto => taken_done ht (bodyQpModify_error c hr hq' hb' hto),
      fun hto hst => taken_done ht (bodyQpModify_reset c hr hq' hb' hto hst),
      fun r k hto hst hrto hr1 hrmax hk hk1 hkmax =>
        taken_done ht (bodyQpModify_rts c hr hq' hb' hvec hto hst hrto hr1 hrmax hk hk1 hkmax),
      fun pid qpn hto hst hpid hmax hqpn hqmax hmtu hspray =>
        taken_done ht (bodyQpModify_rtr c hr hq' hb' hvec hto hst hpid hmtu hspray hqpn hqmax hmax),
      fun pid hto hst hpid hmtu hspray heq => ?_, ?_⟩
    · subst heq
      exact taken_done ht (bodyQpModify_datagram c hr hq' hb' hvec hto hst hpid hmtu hspray)
    · intro a b d i j k hto hst ha hbb hd hala halb hald hi hj hk hi4 hi11 hj4 hj11 hk4 hk11 hv
      exact taken_done ht (bodyQpModify_init c hr hq' hb' hto hst ha hbb hd ⟨hala, halb, hald⟩ hi hj hk hi4 hi11 hj4 hj11 hk4 hk11 hv)
  · intro s c p n q ht hr hq hb hst
    exact taken_done ht (bodyQpDestroy_ok c hr (by rwa [entered_qps]) (by rwa [bayBusy_entered]) hst)
  · intro s c p n q ht hr hq
    rw [← qpRecord_entered c s]
    exact taken_done ht (bodyQpQuery_ok c hr (by rwa [entered_qps]))
  · intro s c p k st d ht hr hk hst h1 h64 hd h2 hd64
    rw [← entered_qcls c s]
    exact taken_done ht (bodyQpClassSet_ok c hr hk hst h1 h64 hd h2 hd64)
  · intro s c p b a l pg ac i y ht hr hy hst ha hl hlmax hend hpg hpg1 hac hi
    have hhall : getHall (entered c s) (hallOf y.hport) = getHall s (hallOf y.hport) := by rw [getHall, entered_halls, ← getHall]
    have hy' : tget (entered c s).bays b = some y := by rw [entered_bays]; exact hy
    rw [← hhall] at hi
    have hbody := bodyMrRegister_ok (s := entered c s) c hr hy' hst ha hl hlmax hend hpg hpg1 hac hi
    rw [hhall] at hbody
    exact taken_done ht hbody
  · intro s c p h r ht hr hf hb hop
    obtain ⟨hfree, hend⟩ := bodyMrDeregister_ok (s := entered c s) (r := r) c hr ((findRegion_entered c s h).trans hf)
      ((bayBusy_entered c s r.bay).trans hb) (by rwa [entered_ops])
    rw [regionBusy_entered] at hfree hend
    exact ⟨fun h => taken_done ht (hfree h), fun h => taken_later ht (hend h)⟩
  · intro s h r hl hf hend hb
    have hx : exec (.mrDeregisterDone h) s = execMrDeregisterDone h s := rfl
    rw [hx, execMrDeregisterDone, act_live hl]
    simp [hf, hend, hb]

end Sys2Proof.Machine

/-! ## Doorbells (R346, R347, R349, R361) -/

namespace Sys2Proof.Machine

open Sys2Proof

section
variable {s : State} {b n : Nat} {y : Bay} (hy : tget s.bays b = some y) (hst : y.st = .active) (hr : bayReach s b = true)
include hy hst hr

theorem doorbell_of_own {q : Qp} (f : Qp → State → State) (hq : tget s.qps n = some q) (hb : q.bay = b) :
    doorbell b n f s = f q s := by simp [doorbell, hy, hst, hr, hq, hb]

theorem doorbell_of_other (f : Qp → State → State) (hno : ∀ q, tget s.qps n = some q → q.bay ≠ b) :
    doorbell b n f s = doorbellError b n s := by
  cases hq : tget s.qps n with
  | none => simp [doorbell, hy, hst, hr, hq]
  | some q => simp [doorbell, hy, hst, hr, hq, hno q hq]

variable (hl : live s = true)
include hl

section
variable {q : Qp} {v : Nat} (hq : tget s.qps (v % 2 ^ 20) = some q) (hb : q.bay = b)
include hq hb

theorem exec_doorbells_cached (env : GEnv) (hc : cached s q.engine (v % 2 ^ 20) = true) :
    exec (.geSqDb b v env) s = .next (kick q.engine (runSq (v % 2 ^ 20) false env (touch q.engine (v % 2 ^ 20) s)))
      ∧ exec (.geRqDb b v env) s = .next (takeRq (v % 2 ^ 20) env.entries (touch q.engine (v % 2 ^ 20) s))
      ∧ exec (.geCrDb b v) s = .next (touch q.engine (v % 2 ^ 20)
        (setQp (v % 2 ^ 20) (fun q => { q with crCons := v / 2 ^ 20 % 4096, msiSent := false }) s)) := by
  have hsq : exec (.geSqDb b v env) s = execGeSqDb b v env s := rfl
  have hrq : exec (.geRqDb b v env) s = execGeRqDb b v env s := rfl
  have hcr : exec (.geCrDb b v) s = execGeCrDb b v s := rfl
  rw [hsq, hrq, hcr, execGeSqDb, execGeRqDb, execGeCrDb, act_live hl, act_live hl, act_live hl]
  refine ⟨congrArg _ ?_, congrArg _ ?_, congrArg _ ?_⟩
  · exact (doorbell_of_own hy hst hr _ hq hb).trans (if_pos hc)
  · exact (doorbell_of_own hy hst hr _ hq hb).trans (if_pos hc)
  · exact (doorbell_of_own hy hst hr _ hq hb).trans (if_pos hc)

theorem exec_doorbells_absent (env : GEnv) (hc : cached s q.engine (v % 2 ^ 20) = false) :
    exec (.geSqDb b v env) s = .next (startFetch q.engine (v % 2 ^ 20) (setQp (v % 2 ^ 20) (fun q => { q with dbPend := true }) s))
      ∧ exec (.geRqDb b v env) s = .next (startFetch q.engine (v % 2 ^ 20) (setQp (v % 2 ^ 20) (fun q => { q with rqPend := true }) s))
      ∧ exec (.geCrDb b v) s = .next (startFetch q.engine (v % 2 ^ 20)
        (setQp (v % 2 ^ 20) (fun q => { q with crCons := v / 2 ^ 20 % 4096, msiSent := false }) s)) := by
  have hsq : exec (.geSqDb b v env) s = execGeSqDb b v env s := rfl
  have hrq : exec (.geRqDb b v env) s = execGeRqDb b v env s := rfl
  have hcr : exec (.geCrDb b v) s = execGeCrDb b v s := rfl
  have hc' := ne_true_of_eq_false hc
  rw [hsq, hrq, hcr, execGeSqDb, execGeRqDb, execGeCrDb, act_live hl, act_live hl, act_live hl]
  refine ⟨congrArg _ ?_, congrArg _ ?_, congrArg _ ?_⟩
  · exact (doorbell_of_own hy hst hr _ hq hb).trans (if_neg hc')
  · exact (doorbell_of_own hy hst hr _ hq hb).trans (if_neg hc')
  · exact (doorbell_of_own hy hst hr _ hq hb).trans (if_neg hc')

end

/-- A doorbell on another bay's QP is counted and reported. -/
theorem exec_doorbells_other {v : Nat} (env : GEnv) (hno : ∀ q, tget s.qps (v % 2 ^ 20) = some q → q.bay ≠ b) :
    exec (.geSqDb b v env) s = .next (doorbellError b (v % 2 ^ 20) s)
      ∧ exec (.geRqDb b v env) s = .next (doorbellError b (v % 2 ^ 20) s)
      ∧ exec (.geCrDb b v) s = .next (doorbellError b (v % 2 ^ 20) s) := by
  have hsq : exec (.geSqDb b v env) s = execGeSqDb b v env s := rfl
  have hrq : exec (.geRqDb b v env) s = execGeRqDb b v env s := rfl
  have hcr : exec (.geCrDb b v) s = execGeCrDb b v s := rfl
  rw [hsq, hrq, hcr, execGeSqDb, execGeRqDb, execGeCrDb, act_live hl, act_live hl, act_live hl]
  exact ⟨congrArg _ (doorbell_of_other hy hst hr _ hno), congrArg _ (doorbell_of_other hy hst hr _ hno),
    congrArg _ (doorbell_of_other hy hst hr _ hno)⟩

/-! ### Pushes -/

section
variable {q : Qp} {w : Bytes} (env : GEnv) (hn : unle (slice w 48 4) % 2 ^ 20 = n) (hq : tget s.qps n = some q) (hb : q.bay = b)
  (hw : w.length = 64)
include hn hq hb hw

theorem exec_geSqPush_whole :
    exec (.geSqPush b w true env) s = .next (if cached s q.engine n then
        kick q.engine (if unle (slice w 52 2) % 4096 = q.sqCons then
            runSq n true { env with entries := wqeOf w :: env.entries } (touch q.engine n s)
          else runSq n false env (touch q.engine n s))
      else startFetch q.engine n (setQp n (fun q => { q with dbPend := true }) s)) := by
  have hx : exec (.geSqPush b w true env) s = execGeSqPush b w true env s := rfl
  have hwhole : (!true || w.length != 64) = false := by simp [hw]
  rw [hx, execGeSqPush, act_live hl]
  simp only [hwhole, hn, Bool.false_eq_true, if_false]
  exact congrArg _ (doorbell_of_own hy hst hr _ hq hb)

end

omit hst in
/-- A push that is not aligned is counted. -/
theorem exec_geSqPush_torn {h : Nat} (w : Bytes) (env : GEnv) (hh : y.hport = h) :
    exec (.geSqPush b w false env) s = .next (bumpHall (hallOf h) 0x1000000 1 s) := by
  have hx : exec (.geSqPush b w false env) s = execGeSqPush b w false env s := rfl
  have hport : bayPort s b = some h := by rw [bayPort, hy, ← hh]; rfl
  rw [hx, execGeSqPush, act_live hl]
  simp only [Bool.not_false, Bool.true_or, if_true, hr, hport]
  rfl

end

/-! ### First sends and completions -/

theorem exec_packetFirstSend_read {s u : State} {n : Nat} {q r : Qp} {w : Wr} {env : GEnv} (hl : live s = true)
    (hq : tget s.qps n = some q) (hc : cached s q.engine n = true) (he : env.entries = [])
    (hu : touch q.engine n (settleRto n s) = u) (hr : tget u.qps n = some r)
    (hw : nextToSend r.cfg.mtu r.wrs false = some (w, false)) (hm : maySend u r w false = true) (ht : tdiIssues u r.bay = true)
    (hop : w.wqe.op = 2) :
    exec (.packetFirstSend n env) s = .next (sendFirst n r w (firstPacket u n r w []) u) := by
  have hx : exec (.packetFirstSend n env) s = execPacketFirstSend n env s := rfl
  have hnone : takeSq n false env [] u = u := rfl
  rw [hx, execPacketFirstSend, act_live hl]
  simp only [hq, hc, if_true, hu, he, hnone, sendOne, hr, hw, hm, ht, hop]
  rfl

theorem exec_completionWrite_cached {s : State} {n : Nat} {q : Qp} (hl : live s = true) (hq : tget s.qps n = some q)
    (hc : cached s q.engine n = true) (hm : mayComplete s q = true) :
    exec (.completionWrite n) s = .next (writeCqe n (touch q.engine n s)) := by
  have hx : exec (.completionWrite n) s = execCompletionWrite n s := rfl
  rw [hx, execCompletionWrite, act_live hl]
  simp [hq, hc, hm]

/-- Settles O47: the doorbells of a bay's own QP and of another's, the pushes, and the two sends. -/
theorem doorbellsServeTheBaysOwnQps : Obligations.DoorbellsServeTheBaysOwnQps := by
  unfold Obligations.DoorbellsServeTheBaysOwnQps
  refine ⟨fun s b v y q env hl hy hst hr hq hb => ⟨exec_doorbells_cached hy hst hr hl hq hb env,
      exec_doorbells_absent hy hst hr hl hq hb env⟩,
    fun s b v y env hl hy hst hr hno => exec_doorbells_other hy hst hr hl env hno, ?_,
    fun s u n q r w env hl hq hc he hu hr hw hm ht hop => exec_packetFirstSend_read hl hq hc he hu hr hw hm ht hop,
    fun s n q hl hq hc hm => exec_completionWrite_cached hl hq hc hm⟩
  intro s b h n y q w env hl hy hst hh hr hn hq hb
  refine ⟨fun hw hc hi => ?_, fun hw hc hi => ?_, fun hw hc => ?_, exec_geSqPush_torn hy hr hl w env hh⟩
  · rw [exec_geSqPush_whole hy hst hr hl env hn hq hb hw, if_pos hc, if_pos hi]
  · rw [exec_geSqPush_whole hy hst hr hl env hn hq hb hw, if_pos hc, if_neg hi]
  · rw [exec_geSqPush_whole hy hst hr hl env hn hq hb hw, if_neg (ne_true_of_eq_false hc)]

end Sys2Proof.Machine

/-! ## Packets at the engine of their QP (R355 to R359, R370, R375, R380 to R383) -/

namespace Sys2Proof.Machine

open Sys2Proof

/-! ### From the row to the handler -/

section
variable {s : State} {pkt : Msg} {g : Gal} (env : GEnv) (hl : live s = true) (hg : pkt.gal = some g)
include hl hg

theorem arriveOp_of_op {k : Nat} (hop : g.op = k) : act s (arriveOp k pkt env) = .next (arrive pkt g env s) := by
  rw [act_live hl]
  simp [arriveOp, hg, hop]

theorem exec_galleryWrite_arrives (hop : g.op = 1) : exec (.galleryWrite pkt env) s = .next (arrive pkt g env s) :=
  arriveOp_of_op env hl hg hop
theorem exec_galleryReadReq_arrives (hop : g.op = 2) : exec (.galleryReadReq pkt env) s = .next (arrive pkt g env s) :=
  arriveOp_of_op env hl hg hop
theorem exec_galleryReadRsp_arrives (hop : g.op = 3) : exec (.galleryReadRsp pkt env) s = .next (arrive pkt g env s) :=
  arriveOp_of_op env hl hg hop
theorem exec_gallerySend_arrives (hop : g.op = 4) : exec (.gallerySend pkt env) s = .next (arrive pkt g env s) :=
  arriveOp_of_op env hl hg hop
theorem exec_galleryDatagram_arrives (hop : g.op = 5) : exec (.galleryDatagram pkt env) s = .next (arrive pkt g env s) :=
  arriveOp_of_op env hl hg hop
omit env in
theorem exec_galleryAck_arrives (hop : g.op = 6) : exec (.galleryAck pkt) s = .next (arrive pkt g {} s) :=
  arriveOp_of_op {} hl hg hop
omit env in
theorem exec_galleryNak_arrives (hop : g.op = 7) : exec (.galleryNak pkt) s = .next (arrive pkt g {} s) :=
  arriveOp_of_op {} hl hg hop

end

/-- The handler of a packet's operation. -/
def onPacket (e : Nat) (pkt : Msg) (g : Gal) (q : Qp) (env : GEnv) (s : State) : State :=
  match g.op with
  | 1 => onWrite e pkt g q env s
  | 2 => onReadReq e pkt g q env s
  | 3 => onReadRsp e g q env s
  | 4 => onSend e pkt g q env s
  | 5 => onDatagram e pkt g q env s
  | 6 => onAck g q s
  | _ => onNak g q s

theorem refuse_of_request {e : Nat} {pkt : Msg} {g : Gal} (st hint : Nat) (s : State) (hop : g.op = 1 ∨ g.op = 2 ∨ g.op = 4) :
    refuse e pkt g st hint s = engineSend e (nak s pkt g st hint) s := by
  rcases hop with h | h | h <;> simp [refuse, h]

section
variable {s : State} {pkt : Msg} {g : Gal} {q₀ : Qp} (env : GEnv) (hq₀ : tget s.qps g.dqpn = some q₀)
include hq₀

theorem arrive_of_wrong_port (hp : rightPort s q₀ pkt = false) (hop : g.op = 1 ∨ g.op = 2 ∨ g.op = 4) :
    arrive pkt g env s = engineSend q₀.engine (nak s pkt g 3 0) s := by
  simp only [arrive, hq₀, hp, Bool.not_false, if_true]
  exact refuse_of_request nkError 0 s hop

variable (hp : rightPort s q₀ pkt = true) (hc : cached s q₀.engine g.dqpn = true) (hpark : q₀.parked = []) {q : Qp}
  (hq : tget (touch q₀.engine g.dqpn (settleRto g.dqpn s)).qps g.dqpn = some q) (hok : responderOk q pkt g = true)
  (htdi : tdiIssues (touch q₀.engine g.dqpn (settleRto g.dqpn s)) q.bay = true)
include hp hc hpark hq hok htdi

/-- A packet that passes the checks of R355 reaches its handler; what its record held back is served after it. -/
theorem arrive_handled : arrive pkt g env s = kick q₀.engine (servePending q₀.engine g.dqpn 512
    (onPacket q₀.engine pkt g q env (touch q₀.engine g.dqpn (settleRto g.dqpn s)))) := by
  simp only [arrive, hq₀, hp, hc, hpark, handlePacket, hq, hok, htdi, Bool.not_true, Bool.and_false, Bool.or_false,
    Bool.false_eq_true, if_false, List.isEmpty_nil, Bool.and_true, if_true]
  rfl

end

/-! ### The handlers

A handler that opens with `beforePlace` is unfolded as the constant alone (`∀ f, f = onWrite → …`): to compare its body, applied to
its arguments, with a match on `beforePlace` the kernel would evaluate the distance of two MSNs modulo 2^24 in unary. -/

section
variable {e : Nat} {pkt : Msg} {g : Gal} {q : Qp} {env : GEnv} {u : State}

section
variable (hop : g.op = 1) (hb : beforePlace e pkt g q (ackAgain e pkt g) u = none)
include hop hb

theorem onPacket_write_placed {r : Region} {v w : State} (hr : remoteRegion u q g true g.payload.length = some r)
    (hpage : pageRefusal e pkt g q r env (r.addr + g.roff + g.offset) g.payload.length u = (none, v))
    (hplace : place e pkt g q g.rmr r env (r.addr + g.roff + g.offset) v = (true, w)) :
    onPacket e pkt g q env u = setQp g.dqpn (fun x => advanceNext 8
      (putRec x (recPlace (recFor x g) (g.offset / mtuBytes g.mtu) g.payload.length (if g.last then some g.tlen else none)))) w := by
  have hwrite : ∀ f, f = onWrite → f e pkt g q env u = setQp g.dqpn (fun x => advanceNext 8
      (putRec x (recPlace (recFor x g) (g.offset / mtuBytes g.mtu) g.payload.length (if g.last then some g.tlen else none)))) w := by
    delta onWrite
    rintro f rfl
    beta_reduce
    rw [hb]
    simp only [hr, hpage, hplace, if_true]
  simp only [onPacket, hop]
  exact hwrite _ rfl

theorem onPacket_write_no_region (hr : remoteRegion u q g true g.payload.length = none) :
    onPacket e pkt g q env u = engineSend e (nak u pkt g 2 0) u := by
  have hwrite : ∀ f, f = onWrite → f e pkt g q env u = engineSend e (nak u pkt g 2 0) u := by
    delta onWrite
    rintro f rfl
    beta_reduce
    rw [hb]
    simp only [hr]
    exact refuse_of_request nkAccess 0 u (.inl hop)
  simp only [onPacket, hop]
  exact hwrite _ rfl

end

theorem onPacket_read_next (hop : g.op = 2)
    (hb : beforePlace e pkt g q (fun s => (serveRead e pkt g q env s).2) u = none) (hn : g.msn = q.next)
    (ht : bayTag u q.bay = true) : onPacket e pkt g q env u = readNow e pkt g q env u := by
  have hread : ∀ f, f = onReadReq → f e pkt g q env u = readNow e pkt g q env u := by
    delta onReadReq
    rintro f rfl
    beta_reduce
    rw [hb]
    exact if_pos (by simp [hn, ht])
  simp only [onPacket, hop]
  exact hread _ rfl

theorem onPacket_readRsp_placed {o : Outst} {w : Wr} {r : Region} {v t : State} (hop : g.op = 3)
    (ho : findOutst q g.msn (idxOfOffset q g.offset) = some o) (hw : (q.wrs.find? fun x => x.msn == g.msn) = some w)
    (hcls : o.pkt.cls = .req) (hr : curRegion u q.bay w.wqe.localMr = some r)
    (htr : translate e q.bay r env (w.wqe.localAddr + g.offset) g.payload.length u = (none, v)) (hx : env.xlatFail = false)
    (hwr : engineWrite e q.bay env.bridge
      { eng := e, qpn := g.dqpn, bay := q.bay, region := some w.wqe.localMr, msn := some w.msn,
        pages := if r.paging then pagesOf (w.wqe.localAddr + g.offset) g.payload.length else [] }
      (w.wqe.localAddr + g.offset) g.payload v = (true, t)) :
    onPacket e pkt g q env u = setQp g.dqpn (fun x => acknowledged t x o (g.ece || g.ce) g.payload.length) t := by
  simp only [onPacket, hop, onReadRsp, ho, hw, hcls, hr, htr, hwr, hx]
  rfl

/-! #### SEND -/

section
variable (hop : g.op = 4) (hb : beforePlace e pkt g q (ackAgain e pkt g) u = none) (hrec : (findRec q g.msn).isSome = true)
include hop hb hrec

omit hop hb in
/-- A SEND whose message has a record goes on to the RQ entry of its SSN. -/
theorem recorded : ((findRec q g.msn).isNone && crFull q) = false := by
  rw [Option.isNone_eq_false_iff.mpr hrec, Bool.false_and]

theorem onPacket_send_no_entry (hrq : tget q.rqes g.ssn = none) :
    onPacket e pkt g q env u = engineSend e (nak u pkt g 1 32) u := by
  have hsend : ∀ f, f = onSend → f e pkt g q env u = engineSend e (nak u pkt g 1 32) u := by
    delta onSend
    rintro f rfl
    beta_reduce
    rw [hb]
    simp only [recorded hrec, hrq]
    exact refuse_of_request nkLater 32 u (.inr (.inr hop))
  simp only [onPacket, hop]
  exact hsend _ rfl

variable {w : Wqe} (hrq : tget q.rqes g.ssn = some w) (hloc : localStatus u q.bay w = none)
include hrq hloc

theorem onPacket_send_too_long (hlen : w.length < g.offset + g.payload.length) :
    onPacket e pkt g q env u = setQp g.dqpn (fun x =>
      advanceNext 8 (putRec x { recFor x g with status := 5, complete := true, wrId := w.wrId }))
      (engineSend e (nak u pkt g 4 0) u) := by
  have hsend : ∀ f, f = onSend → f e pkt g q env u = setQp g.dqpn (fun x =>
      advanceNext 8 (putRec x { recFor x g with status := 5, complete := true, wrId := w.wrId }))
      (engineSend e (nak u pkt g 4 0) u) := by
    delta onSend
    rintro f rfl
    beta_reduce
    rw [hb]
    simp only [recorded hrec, hrq, hloc, if_pos hlen, refuse_of_request nkSmall 0 u (.inr (.inr hop))]
    rfl
  simp only [onPacket, hop]
  exact hsend _ rfl

theorem onPacket_send_placed {r : Region} {v t : State} (hlen : g.offset + g.payload.length ≤ w.length)
    (hr : curRegion u q.bay w.localMr = some r)
    (hpage : pageRefusal e pkt g q r env (w.localAddr + g.offset) g.payload.length u = (none, v))
    (hplace : place e pkt g q w.localMr r env (w.localAddr + g.offset) v = (true, t)) :
    onPacket e pkt g q env u = setQp g.dqpn (fun x => advanceNext 8
      (putRec x { recPlace (recFor x g) (g.offset / mtuBytes g.mtu) g.payload.length (if g.last then some g.tlen else none)
                  with wrId := w.wrId })) t := by
  have hsend : ∀ f, f = onSend → f e pkt g q env u = setQp g.dqpn (fun x => advanceNext 8
      (putRec x { recPlace (recFor x g) (g.offset / mtuBytes g.mtu) g.payload.length (if g.last then some g.tlen else none)
                  with wrId := w.wrId })) t := by
    delta onSend
    rintro f rfl
    beta_reduce
    rw [hb]
    simp only [recorded hrec, hrq, hloc, if_neg (Nat.not_lt.mpr hlen), hr, hpage, hplace]
    rfl
  simp only [onPacket, hop]
  exact hsend _ rfl

end

/-! #### DATAGRAM, ACK and NAK -/

theorem onPacket_datagram_placed {k : Nat} {w : Wqe} {l : Tab Wqe} {r : Region} {v : State} (hop : g.op = 5)
    (hres : bayResetting u q = false) (hfull : crFull q = false) (hrq : q.rqes = (k, w) :: l) (hlen : g.payload.length ≤ w.length)
    (hloc : localStatus u q.bay w = none) (hr : curRegion u q.bay w.localMr = some r)
    (htr : translate e q.bay r env w.localAddr g.payload.length u = (none, v)) :
    onPacket e pkt g q env u =
      (let t := engineWrite e q.bay env.bridge
         { eng := e, qpn := g.dqpn, bay := q.bay, region := some w.localMr,
           pages := if r.paging then pagesOf w.localAddr g.payload.length else [] } w.localAddr g.payload v
       setQp g.dqpn (fun x => { x with
         rqes := tdel x.rqes k, nextRcv := (k + 1) % 2 ^ 24,
         held := x.held ++ [{ wrId := w.wrId, bytes := g.payload.length, status := if t.1 then 0 else 1, kind := 1,
                              srcPid := pkt.spid, srcQpn := g.sqpn }] }) t.2) := by
  simp only [onPacket, hop, onDatagram, hres, hfull, hrq, if_neg (Nat.not_lt.mpr hlen), hloc, hr, htr]
  rfl

theorem onPacket_datagram_no_entry (hop : g.op = 5) (hrq : q.rqes = []) : onPacket e pkt g q env u = bumpEngine e 0x0 u := by
  simp only [onPacket, hop, onDatagram, hrq]
  exact ite_self _

theorem onPacket_ack {o : Outst} (hop : g.op = 6) (ho : findOutst q g.msn (idxOfOffset q g.offset) = some o)
    (hcls : o.pkt.cls ≠ .req) :
    onPacket e pkt g q env u = setQp g.dqpn (fun x => acknowledged u x o (g.ece || g.ce) 0) u := by
  simp only [onPacket, hop, onAck, ho]
  exact if_neg (by simpa using hcls)

theorem onPacket_nak_ends {o : Outst} (hop : g.op = 7) (ho : findOutst q g.msn (idxOfOffset q g.offset) = some o)
    (hst : g.status ≠ 1) :
    onPacket e pkt g q env u = setQp g.dqpn (fun x =>
      let y := errorQp (some o.msn) (nakStatus g.status) x
      { y with naks := satAdd 32 y.naks 1 }) u := by
  simp only [onPacket, hop, onNak, ho, nkLater]
  exact if_neg hst

theorem onPacket_nak_later {o : Outst} (hop : g.op = 7) (ho : findOutst q g.msn (idxOfOffset q g.offset) = some o)
    (hst : g.status = 1) :
    onPacket e pkt g q env u = setQp g.dqpn (fun x =>
      let y := decreaseQp (qpClass u q).2 x
      { y with later := satAdd 32 y.later 1,
               outst := y.outst.map fun z => if z == o then { o with notBefore := some (nsNow u + 256 * g.hint) } else z }) u := by
  simp only [onPacket, hop, onNak, ho, nkLater]
  exact if_pos hst

end

/-- Settles O48: a packet at the wrong port, and each operation through its handler. -/
theorem galleryPacketsAreCheckedAndServed : Obligations.GalleryPacketsAreCheckedAndServed := by
  unfold Obligations.GalleryPacketsAreCheckedAndServed
  intro s pkt g q₀ env hl hg hq₀ e u fin
  refine ⟨fun hp => ⟨fun hop => ?_, fun hop => ?_, fun hop => ?_⟩, fun q hp hc hpark hq hok htdi => ?_⟩
  · rw [exec_galleryWrite_arrives env hl hg hop, arrive_of_wrong_port env hq₀ hp (.inl hop)]
  · rw [exec_galleryReadReq_arrives env hl hg hop, arrive_of_wrong_port env hq₀ hp (.inr (.inl hop))]
  · rw [exec_gallerySend_arrives env hl hg hop, arrive_of_wrong_port env hq₀ hp (.inr (.inr hop))]
  · have hfin : ∀ env t, onPacket e pkt g q env u = t → Host.Outcome.next (arrive pkt g env s)
        = (.next (fin t) : Host.Outcome State Fault Refusal) :=
      fun env t h => by rw [arrive_handled env hq₀ hp hc hpark hq hok htdi, ← h]
    refine ⟨fun hop r v w hb hr hpage hplace => ?_, fun hop hb hr => ?_, fun hop hb hn ht => ?_,
      fun hop o w r v t ho hw hcls hr htr hx hwr => ?_, fun hop hb hrec hrq => ?_, fun hop w hb hrec hrq hloc hlen => ?_,
      fun hop w r v t hb hrec hrq hloc hlen hr hpage hplace => ?_, fun hop k w l r v hres hfull hrq hlen hloc hr htr => ?_,
      fun hop hrq => ?_, fun hop o ho hcls => ?_, fun hop o ho hst => ?_, fun hop o ho hst => ?_⟩
    · rw [exec_galleryWrite_arrives env hl hg hop]
      exact hfin env _ (onPacket_write_placed hop hb hr hpage hplace)
    · rw [exec_galleryWrite_arrives env hl hg hop]
      exact hfin env _ (onPacket_write_no_region hop hb hr)
    · rw [exec_galleryReadReq_arrives env hl hg hop]
      exact hfin env _ (onPacket_read_next hop hb hn ht)
    · rw [exec_galleryReadRsp_arrives env hl hg hop]
      exact hfin env _ (onPacket_readRsp_placed hop ho hw hcls hr htr hx hwr)
    · rw [exec_gallerySend_arrives env hl hg hop]
      exact hfin env _ (onPacket_send_no_entry hop hb hrec hrq)
    · rw [exec_gallerySend_arrives env hl hg hop]
      exact hfin env _ (onPacket_send_too_long hop hb hrec hrq hloc hlen)
    · rw [exec_gallerySend_arrives env hl hg hop]
      exact hfin env _ (onPacket_send_placed hop hb hrec hrq hloc hlen hr hpage hplace)
    · rw [exec_galleryDatagram_arrives env hl hg hop]
      exact hfin env _ (onPacket_datagram_placed hop hres hfull hrq hlen hloc hr htr)
    · rw [exec_galleryDatagram_arrives env hl hg hop]
      exact hfin env _ (onPacket_datagram_no_entry hop hrq)
    · rw [exec_galleryAck_arrives hl hg hop]
      exact hfin {} _ (onPacket_ack hop ho hcls)
    · rw [exec_galleryNak_arrives hl hg hop]
      exact hfin {} _ (onPacket_nak_ends hop ho hst)
    · rw [exec_galleryNak_arrives hl hg hop]
      exact hfin {} _ (onPacket_nak_later hop ho hst)

end Sys2Proof.Machine

/-! ## Contexts, re-sends and pages (R340, R357, R359, R364 to R366, R373 to R376) -/

namespace Sys2Proof.Machine

open Sys2Proof

section
variable {s : State} {n : Nat} {q : Qp} (hl : live s = true) (hq : tget s.qps n = some q)
include hl hq

section
variable {x : CacheEnt} {y : Bay} {a : Nat × Nat} (hx : cacheEnt (getEngine s q.engine) n = some x)
  (hy : tget s.bays q.bay = some y) (ha : y.ctx = some a)
include hx hy ha

theorem exec_contextFetchComplete_failed (hf : x.fetching = true) (ht : bayTag s q.bay = true) (checkOk : Bool) (sq rq : GEnv) :
    exec (.contextFetchComplete n false checkOk sq rq) s = .next (kick q.engine
      (fetchFailed q.engine n (engineRead q.engine q.bay (a.1 + 256 * q.slot) 256 s).2)) := by
  have hrun : exec (.contextFetchComplete n false checkOk sq rq) s = execContextFetchComplete n false checkOk sq rq s := rfl
  have hctx : (tget s.bays q.bay).bind (·.ctx) = some a := by rw [hy]; exact ha
  rw [hrun, execContextFetchComplete, act_live hl]
  simp only [hq, hx, hf, ht, hctx]
  rfl

theorem exec_contextFetchComplete_idle (hf : x.fetching = true) (ht : bayTag s q.bay = true) (sq rq : GEnv)
    (hpass : (engineRead q.engine q.bay (a.1 + 256 * q.slot) 256 s).1 = true) (hpark : q.parked = []) (hrq : q.rqPend = false)
    (hdb : q.dbPend = false) :
    exec (.contextFetchComplete n true true sq rq) s = .next (kick q.engine
      (setQp n (fun q => { q with parked := [], dbPend := false, rqPend := false })
        (setEngine q.engine (fun g => { g with cache := g.cache.map fun x =>
          if x.qpn = n then { x with fetching := false } else x })
          (engineRead q.engine q.bay (a.1 + 256 * q.slot) 256 s).2))) := by
  have hrun : exec (.contextFetchComplete n true true sq rq) s = execContextFetchComplete n true true sq rq s := rfl
  have hctx : (tget s.bays q.bay).bind (·.ctx) = some a := by rw [hy]; exact ha
  rw [hrun, execContextFetchComplete, act_live hl]
  simp only [hq, hx, hf, ht, hctx, hpass, hpark, hrq, hdb]
  rfl

theorem exec_contextWriteBackDone_passed (hw : x.writing = true)
    (hpass : allPass (mpuCheck q.engine q.bay true (a.1 + 256 * q.slot) 256 s).1 = true) :
    exec (.contextWriteBackDone n) s = .next (kick q.engine (setEngine q.engine
      (fun g => { g with cache := g.cache.filter (·.qpn != n) })
      (mpuCheck q.engine q.bay true (a.1 + 256 * q.slot) 256 s).2)) := by
  have hrun : exec (.contextWriteBackDone n) s = execContextWriteBackDone n s := rfl
  have hctx : (tget s.bays q.bay).bind (·.ctx) = some a := by rw [hy]; exact ha
  rw [hrun, execContextWriteBackDone, act_live hl]
  simp only [hq, hx, hw, hctx, hpass]
  rfl

end

section
variable {msn off : Nat} {o : Outst} (ho : findOutst q msn (idxOfOffset q off) = some o) (ht : tdiIssues s q.bay = true)
include ho ht

theorem exec_retryLaterResend_due {k : Nat} (hk : o.notBefore = some k) :
    exec (.retryLaterResend n msn off) s = .next
      (let u := clockTo (2 * k) s
       resend n o { o with sentAt := nsNow u, notBefore := none } u) := by
  have hrun : exec (.retryLaterResend n msn off) s = execRetryLaterResend n msn off s := rfl
  rw [hrun, execRetryLaterResend, act_live hl]
  simp only [hq, ho, hk, ht]
  rfl

theorem exec_rtoExpiry_held (hk : o.notBefore = none) (hp : o.paged = false) (hd : o.due = none) :
    exec (.rtoExpiry n msn off) s = .next
      (let u := clockTo (2 * (o.sentAt + 1000 * q.cfg.rto)) s
       setQp n (fun q => { q with outst := q.outst.map fun x => if x == o then { o with due := some u.dc } else x }) u) := by
  have hrun : exec (.rtoExpiry n msn off) s = execRtoExpiry n msn off s := rfl
  rw [hrun, execRtoExpiry, act_live hl]
  simp only [hq, ho, hk, hp, hd, ht]
  rfl

end
end

theorem rtoActs_of_held {s : State} {n : Nat} {q : Qp} {o : Outst} (hq : tget s.qps n = some q) (ho : q.outst.contains o = true) :
    rtoActs n s o = (let u := setQp n (decreaseQp (qpClass s q).2) s
      if q.cfg.retry ≤ o.tries then setQp n (errorQp (some o.msn) 6) u
      else resend n o { o with sentAt := nsNow u, tries := o.tries + 1, due := none } u) := by
  simp only [rtoActs, hq, ho]
  rfl

theorem exec_atsInvalidation_unused {s : State} {h page : Nat} (hl : live s = true) (ht : isType s .h h = true)
    (hused : (s.places.any fun p => p.2.pages.contains page && bayPort s p.2.bay == some h) = false) :
    exec (.atsInvalidation h page) s = .next (emit (.atsDone h page) { s with
      bays := (tmap s.bays fun _ y => if y.hport = h then { y with badPages := y.badPages.filter (· != page) } else y),
      halls := (tmap s.halls fun _ x => { x with engines := tmap x.engines fun _ g =>
        { g with atc := g.atc.filter fun x => !(x.2 == page && bayPort s x.1 == some h) } }) }) := by
  have hrun : exec (.atsInvalidation h page) s = execAtsInvalidation h page s := rfl
  have htype : ∀ x, isType { s with halls := x } .h h = true := fun _ => ht
  rw [hrun, execAtsInvalidation, act_live hl]
  simp only [hused, htype]
  rfl

theorem exec_pageResponse_asked {s : State} {b page : Nat} {y : Bay} (ok : Bool) (hl : live s = true) (hy : tget s.bays b = some y)
    (hp : y.priOut.contains page = true) :
    exec (.pageResponse b page ok) s = .next
      (((s.qps.filter fun e => e.2.bay == b).map (·.1)).foldl (unstall page ok)
        (setBay b (fun y => { y with
          priOut := y.priOut.erase page,
          badPages := if ok || y.badPages.contains page then y.badPages else y.badPages ++ [page] }) s)) := by
  have hrun : exec (.pageResponse b page ok) s = execPageResponse b page ok s := rfl
  rw [hrun, execPageResponse, act_live hl]
  simp only [hy, hp]
  rfl

/-- Settles O49: each event on the entry that it finds. -/
theorem contextsRetriesAndPagesEnd : Obligations.ContextsRetriesAndPagesEnd := by
  unfold Obligations.ContextsRetriesAndPagesEnd
  refine ⟨fun s n q x sq rq hl hq hx => ⟨fun y a hy ha hf ht => ⟨fun checkOk =>
        exec_contextFetchComplete_failed hl hq hx hy ha hf ht checkOk sq rq, exec_contextFetchComplete_idle hl hq hx hy ha hf ht sq rq⟩,
      fun hw y a hy ha hpass => exec_contextWriteBackDone_passed hl hq hx hy ha hw hpass⟩,
    fun s n msn off q o hl hq ho => ⟨fun k hk ht => exec_retryLaterResend_due hl hq ho ht hk,
      fun hk hp hd ht => exec_rtoExpiry_held hl hq ho ht hk hp hd⟩,
    fun s n q o => rtoActs_of_held, fun s h page => exec_atsInvalidation_unused, fun s b page y hl hy hp => ⟨?_, ?_⟩⟩
  · exact exec_pageResponse_asked true hl hy hp
  · rw [exec_pageResponse_asked false hl hy hp]
    simp only [Bool.false_or]

end Sys2Proof.Machine

/-! # Bays: O50 -/

namespace Sys2Proof.Machine
open Sys2Proof

theorem tdiLocked_of_open {s : State} {b : Nat} {y : Bay} (hy : tget s.bays b = some y) (hl : y.tdi ≠ .locked)
    (hr : y.tdi ≠ .run) : tdiLocked s b = false := by simp [tdiLocked, hy, hl, hr]

theorem ownsLocked_entered (c : Cmd) (s : State) (b : Nat) : ownsLocked (entered c s) b = ownsLocked s b := by
  rw [entered_eq]; rfl

theorem exec_bayCreate_free {s : State} {c : Cmd} {p : Params} {h l b j : Nat} {q : Port} {t : Res}
    (ht : taken specBayCreate c s p = true) (hr : raw p 0 2 = some h) (hq : getPort (entered c s) h = some q) (hh : q.typ = .h)
    (hloc : (raw p 2 2).getD 0xFFFF = l) (hin : l < 256 ∨ l = 0xFFFF)
    (hres : resFields p 2 { rate := lineRate q, msix := 1 } (freeRes (entered c s) h) (lineRate q) = pure t)
    (hamber : q.st ≠ .amber) (hnone : l ≠ 0xFFFF → bayAt (entered c s) h l = none) (hmsix : (freeRes (entered c s) h).msix ≠ 0)
    (hb : lowestFree (tkeys s.bays) 2048 = some b)
    (hj : (if l = 0xFFFF then lowestFree ((bayList s fun y => y.hport == h).map (·.2.loc)) 256 else some l) = some j)
    (hsub : (tget q.subs (1 + j)).isSome = true ∨ subCount (entered c s) (hallOf h) < 4096) :
    exec (.bayCreate c) s = .next
      (let y : Bay := { hport := h, loc := j, tgt := t }
       let e := entered c s
       let u := baySub h j e { e with bays := tset s.bays b y }
       replied specBayCreate c s [] (le 4 b ++ le 4 j ++ resBytes t (heldRes u b y)) (noticeHeld e u)) := by
  have hidle : (q.st == .amber || (l != 0xFFFF && (bayAt (entered c s) h l).isSome)) = false := by
    by_cases hx : l = 0xFFFF
    · simp [hamber, hx]
    · simp [hamber, hnone hx]
  have hroom : ((tget q.subs (1 + j)).isNone && decide (4096 ≤ subCount (entered c s) (hallOf h))) = false := by
    rcases hsub with hs | hs
    · simp [Option.isNone_iff_eq_none, Option.isSome_iff_ne_none.mp hs]
    · simp [hs]
  refine taken_done ht ?_
  change (bodyBayCreate p c (entered c s)).run [] = _
  have hlist : bayList (entered c s) (fun y => y.hport == h) = bayList s fun y => y.hport == h := by rw [entered_eq]; rfl
  simp only [bodyBayCreate, typedPortF_ok hr (isType_of_getPort hq hh), thePort_ok hq,
    idF_ok_or_default 1 hloc (ok := fun v => decide (v < 256) || v == 0xFFFF) (by simpa using hin), hres, pure_bind, hidle,
    rejectIf_ok _ (decide_eq_false hmsix), rejectIf_ok _ rfl, entered_bays, hlist, hb, hj, hroom]
  rfl

theorem exec_bayResize_active {s : State} {c : Cmd} {p : Params} {b : Nat} {y : Bay} {q : Port} {t : Res}
    (ht : taken specBayResize c s p = true) (hr : raw p 0 2 = some b) (hy : tget s.bays b = some y) (hst : y.st = .active)
    (hlocked : y.tdi ≠ .locked) (hrun : y.tdi ≠ .run) (hq : getPort (entered c s) y.hport = some q)
    (hres : resFields p 1 (heldRes (entered c s) b y) (addRes (freeRes (entered c s) y.hport) (heldRes (entered c s) b y))
      (lineRate q) = pure t) :
    exec (.bayResize c) s = .next
      (let e := entered c s
       let u := setBay b (fun y => { y with tgt := t }) e
       let v := if t.rate = y.tgt.rate then u else baySub y.hport y.loc e u
       replied specBayResize c s [] (resBytes t (heldRes v b { y with tgt := t })) (noticeHeld e v)) := by
  have he : tget (entered c s).bays b = some y := by rwa [entered_bays]
  refine taken_done ht ?_
  change (bodyBayResize p c (entered c s)).run [] = _
  simp only [bodyBayResize, bayF_ok hr he, hq, hres, pure_bind, rejectIf_ok _ (bayBusy_of_active he hst),
    rejectIf_ok _ (tdiLocked_of_open he hlocked hrun)]
  rfl

section
variable {s : State} {c : Cmd} {p : Params} {b : Nat} (hr : raw p 0 2 = some b)
include hr

theorem exec_bayQuery_present {y : Bay} (ht : taken specBayQuery c s p = true) (hb : b < 2048) (hy : tget s.bays b = some y) :
    exec (.bayQuery c) s = .next (replied specBayQuery c s []
      (le 4 (byStatus (entered c s) b) ++ resBytes y.tgt (heldRes (entered c s) b y)) (entered c s)) := by
  refine taken_done ht ?_
  change (bodyBayQuery p c (entered c s)).run [] = _
  simp only [bodyBayQuery, idF_ok 0 hr (ok := (· < 2048)) (decide_eq_true hb), pure_bind, entered_bays, hy]
  rfl

theorem exec_bayQuery_absent (ht : taken specBayQuery c s p = true) (hb : b < 2048) (hy : tget s.bays b = none) :
    exec (.bayQuery c) s = .next (replied specBayQuery c s [] (List.replicate 60 0) (entered c s)) := by
  refine taken_done ht ?_
  change (bodyBayQuery p c (entered c s)).run [] = _
  simp only [bodyBayQuery, idF_ok 0 hr (ok := (· < 2048)) (decide_eq_true hb), pure_bind, entered_bays, hy]
  rfl

variable {d : Nat} {y : Bay} (hy : tget s.bays b = some y) (hd : (raw p 4 4).getD 1000 = d) (hlo : 10 ≤ d) (hhi : d ≤ 100000)
include hy hd hlo hhi

theorem exec_bayReset_active (ht : taken specBayReset c s p = true) (hst : y.st = .active) :
    exec (.bayReset c) s = .next (opened specBayReset c s (.bayReset b) [] [] (startReset b d 1 (entered c s))) := by
  have he : tget (entered c s).bays b = some y := by rwa [entered_bays]
  refine taken_later ht ?_
  change (bodyBayReset p c (entered c s)).run [] = _
  simp only [bodyBayReset, bayF_ok hr he, rangeF_ok 1 hd hlo hhi, pure_bind, rejectIf_ok _ (bayBusy_of_active he hst)]
  rfl

theorem exec_bayRemove_unlocked (ht : taken specBayRemove c s p = true) (hown : ownsLocked s b = false) :
    exec (.bayRemove c) s = .next (opened specBayRemove c s (.bayRemove b) [] []
      (startReset b d 2 (abortOp (.bayRemove b) (abortOp (.bayReset b) (entered c s))))) := by
  have he : tget (entered c s).bays b = some y := by rwa [entered_bays]
  have ho : ownsLocked (entered c s) b = false := by rwa [ownsLocked_entered]
  refine taken_later ht ?_
  change (bodyBayRemove p c (entered c s)).run [] = _
  simp only [bodyBayRemove, bayF_ok hr he, rangeF_ok 1 hd hlo hhi, pure_bind, rejectIf_ok _ ho]
  rfl

end

section
variable {s : State} {b : Nat} {y : Bay} {r : BayReset} (hl : live s = true) (hy : tget s.bays b = some y) (hr : y.rst = some r)
include hl hy hr

theorem exec_bayDrainEnd_empty (hrun : r.ended = false) (hw : bayWork s b = 0) :
    exec (.bayDrainEnd b) s = .next (teardown b s) := by
  have hx : exec (.bayDrainEnd b) s = execBayDrainEnd b s := rfl
  simp [hx, execBayDrainEnd, act_live hl, hy, hr, hrun, hw]

theorem exec_drainLimitExpiry_draining (hrun : r.ended = false) :
    exec (.drainLimitExpiry b) s = .next
      (let u := clockTo r.deadline s
       if bayWork u b = 0 then teardown b u else teardown b (squashBay b u)) := by
  have hx : exec (.drainLimitExpiry b) s = execDrainLimitExpiry b s := rfl
  simp [hx, execDrainLimitExpiry, act_live hl, hy, hr, hrun]

theorem exec_bayResetComplete_kept (hend : r.ended = true) (hw : bayWork s b = 0) (hrem : r.removal = false) :
    exec (.bayResetComplete b) s = .next
      (endOp (.bayReset b) (if r.squashed = 0 then 0 else 0x02) (le 4 (drainedOf r) ++ le 4 r.squashed)
        (postNotices b (setBay b (fun y => { y with
          st := .active, rst := none, pendDone := some (y.cause, drainedOf r, r.squashed) }) s))) := by
  have hx : exec (.bayResetComplete b) s = execBayResetComplete b s := rfl
  rw [hx, execBayResetComplete, act_live hl]
  simp [hy, hr, hend, hw, hrem, stSquashed]

theorem exec_bayResetComplete_removed (hend : r.ended = true) (hw : bayWork s b = 0) (hrem : r.removal = true) :
    exec (.bayResetComplete b) s = .next
      (endOp (.bayRemove b) (if r.squashed = 0 then 0 else 0x02) (le 4 (drainedOf r) ++ le 4 r.squashed) (bayAbsent b s)) := by
  have hx : exec (.bayResetComplete b) s = execBayResetComplete b s := rfl
  rw [hx, execBayResetComplete, act_live hl]
  simp [hy, hr, hend, hw, hrem, stSquashed]

end

section
variable {s : State} {b h : Nat} (hl : live s = true)
include hl

theorem exec_functionLevelReset_reached {y : Bay} (hy : tget s.bays b = some y) (hreach : bayReach s b = true) :
    exec (.functionLevelReset b) s = .next (startReset b (flrLimit s y.hport) 3 s) := by
  have hx : exec (.functionLevelReset b) s = execFunctionLevelReset b s := rfl
  simp [hx, execFunctionLevelReset, act_live hl, hreach, startOwnReset, bayPort, hy]

theorem exec_wiredBayReset_due {w : Wired} (hw : wiredReset s b = some w) :
    exec (.wiredBayReset b) s = .next
      (let u := clockTo w.due (setAtr (fun a => { a with wired := a.wired.erase w }) s)
       startOwnReset b 5 u) := by
  have hx : exec (.wiredBayReset b) s = execWiredBayReset b s := rfl
  rw [hx, execWiredBayReset, act_live hl, hw]

theorem exec_vfEnableClear_lowered {n : Nat} {q : Port} (hq : getPort s h = some q) (hreach : pf0Reach s h = true)
    (hn : n < q.std.numVfs) : exec (.vfEnableClear h n) s = .next (lowerVfs h n s) := by
  have hx : exec (.vfEnableClear h n) s = execVfEnableClear h n s := rfl
  simp [hx, execVfEnableClear, act_live hl, hq, hreach, hn]

theorem exec_tagQuarantineRelease (tag : Nat) :
    exec (.tagQuarantineRelease h tag) s = .next (setStd h (fun d => { d with quar := d.quar.filter (· != tag) }) s) := by
  have hx : exec (.tagQuarantineRelease h tag) s = execTagQuarantineRelease h tag s := rfl
  rw [hx, execTagQuarantineRelease, act_live hl]

end

/-- Settles O50: each command's checks pass in turn, and each event finds the reset that it ends. -/
theorem baysAreMadeResizedResetAndRemoved : Obligations.BaysAreMadeResizedResetAndRemoved := by
  unfold Obligations.BaysAreMadeResizedResetAndRemoved
  refine ⟨fun s c p h l b j q t ht hr hq hh hloc hin hres ha hn hm hb hj hsub =>
      exec_bayCreate_free ht hr hq hh hloc hin hres ha hn hm hb hj hsub,
    fun s c p b y q t ht hr hy hst hlk hrn hq hres => exec_bayResize_active ht hr hy hst hlk hrn hq hres,
    fun s c p b ht hr hb => ⟨fun y hy => exec_bayQuery_present hr ht hb hy, exec_bayQuery_absent hr ht hb⟩,
    fun s c p b d y hr hy hd hlo hhi => ⟨exec_bayReset_active hr hy hd hlo hhi, exec_bayRemove_unlocked hr hy hd hlo hhi⟩,
    fun s b y r hl hy hr => ⟨exec_bayDrainEnd_empty hl hy hr, exec_drainLimitExpiry_draining hl hy hr,
      exec_bayResetComplete_kept hl hy hr, exec_bayResetComplete_removed hl hy hr⟩,
    fun s b h n tag y q w hl hy => ⟨?_, exec_functionLevelReset_reached hl hy, exec_wiredBayReset_due hl,
      exec_vfEnableClear_lowered hl, fun _ => exec_tagQuarantineRelease hl tag⟩⟩
  exact act_live hl (postNotices b)

end Sys2Proof.Machine

/-! # The FIFOs of an Alcove: O51 -/

namespace Sys2Proof.Machine
open Sys2Proof

section
variable {s : State} {x : Side} {b : Nat} {y : Bay} (hl : live s = true) (hy : tget s.bays b = some y)
  (hreach : sideReach s x b = true)
include hl hy hreach

theorem exec_alTxDb_pushed (hroom : (rxFifo (other x) y).length < 16) (hsize : unle (slice (staged (sideOf x y)) 0 2) < 0xFF00)
    (hst : y.st = .active) : exec (.alTxDb x b) s = .next (pushTo (other x) b (staged (sideOf x y)) s) := by
  have hx : exec (.alTxDb x b) s = execAlTxDb x b s := rfl
  simp [hx, execAlTxDb, act_live hl, hy, hreach, hroom, hsize, hst]

theorem exec_alTxDb_refused
    (hbad : 16 ≤ (rxFifo (other x) y).length ∨ 0xFF00 ≤ unle (slice (staged (sideOf x y)) 0 2) ∨ y.st ≠ .active) :
    exec (.alTxDb x b) s = .next (noteSet (.al b x 16) (setSide x b (fun a => { a with refused := true }) s)) := by
  have hx : exec (.alTxDb x b) s = execAlTxDb x b s := rfl
  have hb : (decide (16 ≤ (rxFifo (other x) y).length) || decide (0xFF00 ≤ unle (slice (staged (sideOf x y)) 0 2))
      || y.st != .active) = true := by simpa [or_assoc] using hbad
  rw [hx, execAlTxDb, act_live hl]
  simp only [hy, hreach, hb, Bool.not_true, Bool.false_eq_true, if_false, if_true]

omit hy in
theorem exec_alRxPop_reached : exec (.alRxPop x b) s = .next (popRx x b s) := by
  have hx : exec (.alRxPop x b) s = execAlRxPop x b s := rfl
  simp [hx, execAlRxPop, act_live hl, hreach]

omit hy in
theorem exec_alRxBufRead_reached {n : Nat} (hn : n < 16) : exec (.alRxBufRead x b n) s = .next (readRx x b n s) := by
  have hx : exec (.alRxBufRead x b n) s = execAlRxBufRead x b n s := rfl
  simp [hx, execAlRxBufRead, act_live hl, hreach, hn]

theorem exec_fifoFlushTakeEffect_pending (hf : (sideOf x y).flushPend = true) :
    exec (.fifoFlushTakeEffect x b) s = .next (popRx x b s) := by
  have hx : exec (.fifoFlushTakeEffect x b) s = execFifoFlushTakeEffect x b s := rfl
  simp [hx, execFifoFlushTakeEffect, act_live hl, hreach, hy, hf]

omit hy in
theorem exec_flushRx_reached : exec (.flushRx x b) s = .next (flushFifo x b s) := by
  have hx : exec (.flushRx x b) s = execFlushRx x b s := rfl
  simp [hx, execFlushRx, act_live hl, hreach]

omit hy in
theorem exec_alStatusWrite_reached (n : Nat) : exec (.alStatusWrite x b n) s = .next (clearStatus x b n s) := by
  have hx : exec (.alStatusWrite x b n) s = execAlStatusWrite x b n s := rfl
  simp [hx, execAlStatusWrite, act_live hl, hreach]

omit hy in
theorem exec_flushTx_manager (hx : x = .manager) : exec (.flushTx x b) s = .next (flushFifo .bay b s) := by
  subst hx
  have hrun : exec (.flushTx .manager b) s = execFlushTx .manager b s := rfl
  simp [hrun, execFlushTx, act_live hl, hreach]

end

section
variable {s : State} {b : Nat} {y : Bay} (hy : tget s.bays b = some y)
include hy

/-- A pop of a FIFO that holds messages takes the head, and all of them when a flush waits. -/
theorem popRx_head {x : Side} {m : Bytes} {l : List Bytes} (hm : rxFifo x y = m :: l) :
    popRx x b s = setSide x b (fun a => { a with inRead := false, flushPend := false })
      (setRx x b (if (sideOf x y).flushPend then [] else l) s) := by simp [popRx, hy, hm]

theorem popRx_empty {x : Side} (hm : rxFifo x y = []) :
    popRx x b s = noteSet (.al b x 13) (setSide x b (fun a => { a with underrun := true }) s) := by
  simp [popRx, underrun, hy, hm]

theorem readRx_head {x : Side} {m : Bytes} {l : List Bytes} (n : Nat) (hm : rxFifo x y = m :: l) :
    readRx x b n s = emit (.readValue (rxWordAddr x b n) (unle (slice m (4 * n) 4)))
      (setSide x b (fun a => { a with lastRx := a.lastRx.set n (unle (slice m (4 * n) 4)), inRead := true }) s) := by
  simp [readRx, hy, hm]

theorem readRx_empty {x : Side} (n : Nat) (hm : rxFifo x y = []) :
    readRx x b n s = emit (.readValue (rxWordAddr x b n) ((sideOf x y).lastRx[n]?.getD 0))
      (noteSet (.al b x 13) (setSide x b (fun a => { a with underrun := true }) s)) := by
  simp [readRx, underrun, hy, hm]

theorem flushFifo_present (x : Side) :
    flushFifo x b s = if (sideOf x y).inRead then setSide x b (fun a => { a with flushPend := true }) s else setRx x b [] s := by
  simp [flushFifo, hy]

theorem exec_fifoPointerReset_toManager (hl : live s = true) :
    exec (.fifoPointerReset (.toManager b)) s = .next (alcoveEvent 1 b (resetAlcove .manager b s)) := by
  have hx : exec (.fifoPointerReset (.toManager b)) s = execFifoPointerReset (.toManager b) s := rfl
  simp [hx, execFifoPointerReset, act_live hl, hy]

theorem exec_fifoPointerReset_toBay (hl : live s = true) :
    exec (.fifoPointerReset (.toBay b)) s = .next (postNotices b (alcoveEvent 2 b (resetAlcove .bay b s))) := by
  have hx : exec (.fifoPointerReset (.toBay b)) s = execFifoPointerReset (.toBay b) s := rfl
  simp [hx, execFifoPointerReset, act_live hl, hy]

end

section
variable {s : State} {h : Nat} (hl : live s = true)
include hl

theorem exec_fifoPointerReset_cmdRing (k : Nat) (hh : isType s .h h = true) :
    exec (.fifoPointerReset (.cmdRing h k)) s = .next (fire (srcCentral 8) 1 h noActor
      (setRings h (fun r => { r with cmdCons := k % 65536 }) s)) := by
  have hx : exec (.fifoPointerReset (.cmdRing h k)) s = execFifoPointerReset (.cmdRing h k) s := rfl
  simp [hx, execFifoPointerReset, act_live hl, hh]

theorem exec_fifoPointerReset_rplRing (k : Nat) (hh : isType s .h h = true) :
    exec (.fifoPointerReset (.rplRing h k)) s = .next (fire (srcCentral 8) 2 h noActor
      (setRings h (fun r => { r with rplProd := k % 65536 }) s)) := by
  have hx : exec (.fifoPointerReset (.rplRing h k)) s = execFifoPointerReset (.rplRing h k) s := rfl
  simp [hx, execFifoPointerReset, act_live hl, hh]

theorem exec_fifoPointerReset_evRing (k n : Nat) {r : ℕ × ℕ × ℕ} (hr : s.atr.ring = some r) (hm : s.boot.mgr = some h) :
    exec (.fifoPointerReset (.evRing k n)) s = .next (fire (srcCentral 8) 3 h noActor
      (setAtr (fun a => { a with prod := k % 65536, ovHist := satAdd 16 a.ovHist n }) s)) := by
  have hx : exec (.fifoPointerReset (.evRing k n)) s = execFifoPointerReset (.evRing k n) s := rfl
  simp [hx, execFifoPointerReset, act_live hl, hr, hm]

end

theorem exec_flushTx_bay {s : State} (b : Nat) (hl : live s = true) : exec (.flushTx .bay b) s = .next s := by
  have hx : exec (.flushTx .bay b) s = execFlushTx .bay b s := rfl
  rw [hx, execFlushTx, act_live hl]

/-- Settles O51: what an access that reaches its side does to the FIFO it finds. -/
theorem alcoveFifosFollowTheirRules : Obligations.AlcoveFifosFollowTheirRules := by
  unfold Obligations.AlcoveFifosFollowTheirRules
  intro s x b y hl hy hreach
  refine ⟨exec_alTxDb_pushed hl hy hreach, exec_alTxDb_refused hl hy hreach, fun m l hm => ⟨?_, fun hf => ?_, fun n hn => ?_⟩,
    fun hm => ⟨?_, fun n hn => ?_⟩, fun n => ⟨?_, exec_alStatusWrite_reached hl hreach n⟩, fun hx => ?_, exec_flushTx_bay b hl,
    exec_fifoPointerReset_toManager hy hl, exec_fifoPointerReset_toBay hy hl,
    fun h k hh => ⟨exec_fifoPointerReset_cmdRing hl k hh, exec_fifoPointerReset_rplRing hl k hh⟩,
    fun h k n r hr hm => exec_fifoPointerReset_evRing hl k n hr hm⟩
  · rw [exec_alRxPop_reached hl hreach, popRx_head hy hm]
  · rw [exec_fifoFlushTakeEffect_pending hl hy hreach hf, popRx_head hy hm, if_pos hf]
  · rw [exec_alRxBufRead_reached hl hreach hn, readRx_head hy n hm]
  · rw [exec_alRxPop_reached hl hreach, popRx_empty hy hm]
  · rw [exec_alRxBufRead_reached hl hreach hn, readRx_empty hy n hm]
  · rw [exec_flushRx_reached hl hreach, flushFifo_present hy]
  · rw [exec_flushTx_manager hl hreach hx, flushFifo_present hy]
    rfl

end Sys2Proof.Machine

/-! # Garnet's rules and an unsorted table of ports: O52 -/

namespace Sys2Proof.Machine
open Sys2Proof

/-- An H port in UP whose rings hold one command. -/
def ringPort : Port :=
  { typ := .h, width := 16, widthNow := 16, st := .up, std := { bme := true, rings := { enable := true, cmdProd := 1 } } }

/-- A running device whose H ports 5 and 3 are listed in falling order, with a bay of port 5 and an officer's session over
the rings of port 3. -/
def mpuUnsorted : State :=
  { State.reset with
    boot := { por := false, pin := false, pll := true, atr := true, bedrock := true, mezz := .running, mgr := some 3 },
    sec := { testsOk := true, identity := true, drbg := true,
             sessions := [{ id := 7, role := .officer, origin := some (.ring 3), done := true }] },
    ports := [(5, ringPort), (3, ringPort)],
    bays := [(0, { hport := 5, loc := 0 })] }

/-- MPU_WRITE of entry 0 of the first H port's MPU, for bay 0, in the plain. -/
def mpuEntryBytes : Bytes := le 2 68 ++ le 1 0 ++ [0] ++ le 2 0 ++ le 1 7 ++ le 1 0 ++ le 8 0 ++ le 8 0xFFF

/-- That command on the ring of port 3, sealed under the session's keys. -/
def mpuWriteSealed : Cmd :=
  let c : Cmd := { origin := .ring 3, plen := mpuEntryBytes.length + 16, carrier := 0, session := 7 }
  let x := Crypto.gcmSeal (appKey 0) (appNonce 0 0) (packetHeader 0x0702 c) mpuEntryBytes
  { c with params := x.1 ++ x.2 }

theorem taken_mpuWriteSealed :
    taken specMpuWrite mpuWriteSealed mpuUnsorted { bytes := mpuEntryBytes, noClamp := false } = true := by decide +kernel

/-- As the command is accepted, port 3 enters the table a second time, before port 5: MPU 68 is that of port 3. -/
theorem ownerOk_mpuUnsorted : ownerOk mpuUnsorted 68 0 = true ∧ ownerOk (entered mpuWriteSealed mpuUnsorted) 68 0 = false := by
  decide +kernel

theorem rules_after_mpuWriteSealed :
    leftBy (·.gn.mpus.length) (exec (.mpuWrite mpuWriteSealed) mpuUnsorted) = some 0 := by decide +kernel

/-- Refutes O52: MPU_WRITE checks its owner on the state that has accepted the command, and on a table of ports whose numbers
do not rise the write of the ring's index lists a port twice, which moves the MPUs of H ports. -/
theorem not_garnetRulesChangeUnderTheEpoch : ¬ Obligations.GarnetRulesChangeUnderTheEpoch := by
  unfold Obligations.GarnetRulesChangeUnderTheEpoch
  intro h
  have hnext := h.1 mpuUnsorted mpuWriteSealed { bytes := mpuEntryBytes, noClamp := false } 68 0 0 7 0 0 0xFFF
    taken_mpuWriteSealed (by decide) (by decide) (by decide) (by decide) (by decide) ownerOk_mpuUnsorted.1 (by decide) (by decide)
    (by decide) (by decide) (by decide) (by decide) (by decide) (by decide) (by decide) (by decide) (by decide) (by decide)
    (by decide) (by decide) (by rintro r ⟨⟩)
  have hrules := rules_after_mpuWriteSealed
  rw [hnext] at hrules
  exact absurd hrules (by decide +kernel)

end Sys2Proof.Machine

/-! # SPDM sessions: O53 -/

namespace Sys2Proof.Machine
open Sys2Proof

section
variable {s : State} {a : Party} {i t : Nat} {r : Role} {o : Option Origin} (hrole : partyRole s a = some (r, o))
include hrole

theorem exec_keyExchange_full (hroom : sessionRoom s r = false) : exec (.keyExchange a i t) s = .next (emit (.spdm i 1) s) := by
  have hx : exec (.keyExchange a i t) s = execKeyExchange a i t s := rfl
  simp [hx, execKeyExchange, hrole, hroom]

theorem exec_keyExchange_opens (hroom : sessionRoom s r = true) (hid : s.sec.identity = true) (hdrbg : s.sec.drbg = true)
    (hpos : 0 < i) (hlt : i < 2 ^ 32) (hnew : findSession s i = none) (hlo : 1 ≤ t) (hhi : t ≤ 600) :
    exec (.keyExchange a i t) s = .next (emit (.spdm i 0) (drbgUse (setSec (fun y => { y with sessions := y.sessions ++
      [{ id := i, role := r, origin := o, period := t, anchor := (match a with | .officer _ k => k | _ => 0), beatAt := s.dc,
         reqSecret := freeVal s % 2 ^ 384, rspSecret := freeVal (drawn s) % 2 ^ 384 }] }) (drawn (drawn s))))) := by
  have hx : exec (.keyExchange a i t) s = execKeyExchange a i t s := rfl
  have hopen : (!canExchange s || decide (i = 0) || decide (2 ^ 32 ≤ i) || (findSession s i).isSome) = false := by
    rw [hnew, canExchange, hid, hdrbg, decide_eq_false hpos.ne', decide_eq_false hlt.not_ge]
    rfl
  have hper : (decide (1 ≤ t) && decide (t ≤ 600)) = true := by simp [hlo, hhi]
  rw [hx]
  unfold execKeyExchange
  simp only [hrole, hroom, hopen, hper, if_true, Bool.not_true, Bool.false_eq_true, if_false] <;> rfl

end

section
variable {s : State} {i : Nat} {x : Session} (hfind : findSession s i = some x)
include hfind

theorem exec_spdmFinish_established (hdone : x.done = false) (hb : s.boot.bedrock = true) (hbas : s.boot.basalt = false)
    (hrole : x.role ≠ .officer ∨ anchorOk s x.anchor = true) :
    exec (.spdmFinish i true) s =
      .next (emit (.spdm i 0) (modSession i (fun y => { y with done := true, beatAt := s.dc }) s)) := by
  have hx : exec (.spdmFinish i true) s = execSpdmFinish i true s := rfl
  simp [hx, execSpdmFinish, hfind, hdone, hb, hbas, hrole]

theorem exec_spdmFinish_failed (hdone : x.done = false) (hb : s.boot.bedrock = true) (hbas : s.boot.basalt = false) :
    exec (.spdmFinish i false) s = .next (emit (.spdm i 2) (dropSession i s)) := by
  have hx : exec (.spdmFinish i false) s = execSpdmFinish i false s := rfl
  simp [hx, execSpdmFinish, hfind, hdone, hb, hbas]

theorem exec_heartbeatExpiry_found :
    exec (.heartbeatExpiry i) s = .next (dropSession i (clockTo (x.beatAt + x.period * 2000000000) s)) := by
  have hx : exec (.heartbeatExpiry i) s = execHeartbeatExpiry i s := rfl
  rw [hx, execHeartbeatExpiry, hfind]

end

/-- A request of an established session of an open endpoint acts on that session. -/
theorem inSession_of_on {s : State} {o : Origin} {i : Nat} {x : Session} (hopen : spdmOpen s o = true)
    (hon : sessionOn s o i = some x) (f : Session → State → State) : inSession o i f s = .next (f x s) := by
  simp [inSession, hopen, hon]

theorem inSession_of_off {s : State} {o : Origin} {i : Nat} (hopen : spdmOpen s o = true) (hoff : sessionOn s o i = none)
    (f : Session → State → State) : inSession o i f s = .next (emit (.spdm i 2) s) := by
  simp [inSession, hopen, hoff]

theorem exec_endSession_eq (o : Origin) (i : Nat) (s : State) :
    exec (.endSession o i) s = inSession o i (fun _ s => emit (.spdm i 0) (dropSession i s)) s := rfl

theorem exec_heartbeat_eq (o : Origin) (i : Nat) (s : State) : exec (.heartbeat o i) s =
    inSession o i (fun _ s => emit (.spdm i 0) (modSession i (fun y => { y with beatAt := s.dc }) s)) s := rfl

theorem exec_keyUpdate_eq (o : Origin) (i : Nat) (s : State) :
    exec (.keyUpdate o i) s = inSession o i (fun _ s => emit (.spdm i 0) (modSession i updateKeys s)) s := rfl

theorem exec_officerEnrol_written {s : State} {o : Origin} {i : Nat} {x : Session} (hopen : spdmOpen s o = true)
    (hon : sessionOn s o i = some x) {k h : Nat} (hok : enrolOk s x k false = true) :
    exec (.officerEnrol o i k false h) s = .next
      (let a := (some (h % 2 ^ 384), (s.nv.anchors[k]?.getD (none, false)).2)
       emit (.spdm i 0) (setNv (fun v => { v with anchors := v.anchors.set k a }) s)) := by
  have hx : exec (.officerEnrol o i k false h) s = execOfficerEnrol o i k false h s := rfl
  rw [hx, execOfficerEnrol, inSession_of_on hopen hon]
  simp only [hok]
  rfl

theorem exec_officerEnrol_revoked {s : State} {o : Origin} {i : Nat} {x : Session} (hopen : spdmOpen s o = true)
    (hon : sessionOn s o i = some x) {k h : Nat} (hok : enrolOk s x k true = true) :
    exec (.officerEnrol o i k true h) s = .next
      (let a := ((s.nv.anchors[k]?.getD (none, false)).1, true)
       emit (.spdm i 0) (setNv (fun v => { v with anchors := v.anchors.set k a }) s)) := by
  have hx : exec (.officerEnrol o i k true h) s = execOfficerEnrol o i k true h s := rfl
  rw [hx, execOfficerEnrol, inSession_of_on hopen hon]
  simp only [hok]
  rfl

theorem exec_getMeasurements_open {s : State} {o : Origin} (hopen : spdmOpen s o = true) (hid : s.sec.identity = true) :
    exec (.getMeasurements o) s = .next (emit (.measurements (measurements s)) s) := by
  have hx : exec (.getMeasurements o) s = execGetMeasurements o s := rfl
  simp [hx, execGetMeasurements, hopen, hid]

theorem exec_drbgReseed_running {s : State} (h : s.sec.drbg = true) :
    exec .drbgReseed s = .next (setSec (fun x => { x with drbgReqs := 0 }) s) := by
  have hx : exec .drbgReseed s = execDrbgReseed s := rfl
  simp [hx, execDrbgReseed, h]

section
variable {s : State} (hl : live s = true)
include hl

theorem exec_debugToken_accepted {k : Nat} (ha : anchorOk s k = true) (hb : s.boot.bedrock = true) :
    exec (.debugToken k true) s = .next (setSec (fun x => { x with token := true }) s) := by
  have hx : exec (.debugToken k true) s = execDebugToken k true s := rfl
  simp [hx, execDebugToken, act_live hl, ha, hb]

theorem exec_debugToken_unsigned (k : Nat) : exec (.debugToken k false) s = .next s := by
  have hx : exec (.debugToken k false) s = execDebugToken k false s := rfl
  simp [hx, execDebugToken, act_live hl]

theorem exec_debugHalt_allowed (b : Bool) (h : s.sec.lock.getLsbD 1 = false ∨ s.sec.token = true) :
    exec (.debugHalt b) s = .next (setSec (fun x => { x with halted := b }) s) := by
  have hx : exec (.debugHalt b) s = execDebugHalt b s := rfl
  have hok : (!s.sec.lock.getLsbD 1 || s.sec.token) = true := by
    rcases h with h | h <;> rw [h]
    · rfl
    · exact Bool.or_true _
  rw [hx, execDebugHalt, act_live hl]
  simp only [hok, if_true]

theorem exec_debugHalt_locked (b : Bool) (hlock : s.sec.lock.getLsbD 1 = true) (htok : s.sec.token = false) :
    exec (.debugHalt b) s = .next s := by
  have hx : exec (.debugHalt b) s = execDebugHalt b s := rfl
  rw [hx, execDebugHalt, act_live hl]
  simp only [hlock, htok]
  rfl

end

/-- Settles O53: each request with the session that it finds. -/
theorem spdmSessionsOpenAndEnd : Obligations.SpdmSessionsOpenAndEnd := by
  unfold Obligations.SpdmSessionsOpenAndEnd
  refine ⟨fun s a i t r o hr => ⟨exec_keyExchange_full hr, exec_keyExchange_opens hr⟩,
    fun s i x hf hd hb hbas => ⟨exec_spdmFinish_established hf hd hb hbas, exec_spdmFinish_failed hf hd hb hbas⟩,
    fun s o i x hopen => ⟨fun hon => ⟨(exec_endSession_eq o i s).trans (inSession_of_on hopen hon _),
        (exec_heartbeat_eq o i s).trans (inSession_of_on hopen hon _), (exec_keyUpdate_eq o i s).trans (inSession_of_on hopen hon _),
        fun k h hok => exec_officerEnrol_written hopen hon hok, fun k h hok => exec_officerEnrol_revoked hopen hon hok⟩,
      fun hoff => ⟨(exec_endSession_eq o i s).trans (inSession_of_off hopen hoff _),
        (exec_heartbeat_eq o i s).trans (inSession_of_off hopen hoff _), (exec_keyUpdate_eq o i s).trans (inSession_of_off hopen hoff _)⟩,
      exec_getMeasurements_open hopen⟩,
    fun s i x hf => exec_heartbeatExpiry_found hf, fun s h => exec_drbgReseed_running h,
    fun s k b hl => ⟨exec_debugToken_accepted hl, exec_debugToken_unsigned hl k, exec_debugHalt_allowed hl b,
      exec_debugHalt_locked hl b⟩⟩

end Sys2Proof.Machine

/-! # The commands of Bedrock: O54 -/

namespace Sys2Proof.Machine
open Sys2Proof

theorem commitNames_entered (c : Cmd) (s : State) (m : Nat) : commitNames (entered c s) m = commitNames s m := by
  simp only [commitNames, entered_ops]

/-- A command that is done with a STATUS of its own answers it without clamps or data. -/
theorem taken_failed {sp : OpSpec} {c : Cmd} {s t : State} {p : Params} {st : Nat} (ht : taken sp c s p = true)
    (hst : 0x10 ≤ st) (hb : (sp.body p c (entered c s)).run [] = .ok ((t, .done st []), [])) :
    command sp c s =
      .next (closed sp c s (sendReply { baseReply sp.code c (c.session != 0) with status := st } t)) := by
  obtain ⟨hp, hflag⟩ := taken_iff.mp ht
  have hne : st ≠ 0 := by omega
  rw [command_passes hp]
  simp only [commit_free (passes_free hp), hb, hflag, hne, if_false, ite_self, Bool.false_eq_true]
  rfl

section
variable {s : State} {c : Cmd} {p : Params}

theorem exec_sessionEnd_taken (ht : taken specSessionEnd c s p = true) :
    exec (.sessionEnd c) s =
      .next (replied specSessionEnd c s [] [] (modSession c.session (fun y => { y with ending := true }) (entered c s))) :=
  taken_done ht rfl

theorem exec_approvedGet_taken (ht : taken specApprovedGet c s p = true) {x : Session}
    (hx : findSession (entered c s) c.session = some x) :
    exec (.approvedGet c) s = .next (replied specApprovedGet c s []
      [b2n (approved (entered c s)) + 2 * b2n x.lastApproved] (entered c s)) := by
  refine taken_done ht ?_
  change (bodyApprovedGet p c (entered c s)).run [] = _
  simp only [bodyApprovedGet, hx]
  rfl

theorem exec_deviceInfo_taken (ht : taken specDeviceInfo c s p = true) :
    exec (.deviceInfo c) s = .next (replied specDeviceInfo c s [] (deviceInfoBytes (entered c s)) (entered c s)) :=
  taken_done ht rfl

theorem exec_selftest_taken (ht : taken specSelftest c s p = true) :
    exec (.selftest c) s = .next (opened specSelftest c s .selftest [] []
      (drawn (setSec (fun y => { y with
        testing := some ((entered c s).dc + 1 + freeVal (entered c s) % 10000000, c.env.testsOk) }) (entered c s)))) :=
  taken_later ht rfl

end

section
variable {s : State} {t : Nat} {ok : Bool} (h : s.sec.testing = some (t, ok))
include h

theorem endSelftest_early (hlt : s.dc < t) : endSelftest s = s := by simp [endSelftest, h, hlt]

theorem endSelftest_due (hle : t ≤ s.dc) :
    endSelftest s =
      (let u := if ok then setSec (fun x => { x with testing := none }) s else failTest 1 (setSec (fun x => { x with testing := none }) s)
       endOp .selftest 0 (le 4 (bdStatus u)) u) := by simp [endSelftest, h, Nat.not_lt.mpr hle]

end

theorem exec_selfTestFailure_named {s : State} {k : Nat} (hl : live s = true) (hlo : 1 ≤ k) (hhi : k ≤ 4) :
    exec (.selfTestFailure k) s = .next (failTest k s) := by
  have hx : exec (.selfTestFailure k) s = execSelfTestFailure k s := rfl
  simp [hx, execSelfTestFailure, act_live hl, hlo, hhi]

section
variable {s : State} {c : Cmd} {p : Params} (ht : taken specLockSet c s p = true)
include ht

theorem exec_lockSet_locks {k : Nat} (hkind : raw p 0 1 = some 0) (hmask : (raw p 4 4).getD 0 = k)
    (hmagic : (BitVec.ofNat 6 k).getLsbD 0 = true ∨ (BitVec.ofNat 6 k).getLsbD 2 = true → raw p 16 4 = some 0x43455254)
    (hcert : (BitVec.ofNat 6 k).getLsbD 0 = true → certified (entered c s) = false →
      (entered c s).sec.testsOk = true ∧ (List.range 4).any (anchorIn (entered c s)) = true) :
    exec (.lockSet c) s = .next (replied specLockSet c s [] [] (closeLocks (BitVec.ofNat 6 k) (entered c s))) := by
  have hword : (!((0 : Nat) == 0 && ((BitVec.ofNat 6 k).getLsbD 0 || (BitVec.ofNat 6 k).getLsbD 2))
      || (raw p 16 4).getD 0 == 0x43455254) = true := by
    cases hneed : ((BitVec.ofNat 6 k).getLsbD 0 || (BitVec.ofNat 6 k).getLsbD 2)
    · rfl
    · rw [hmagic (Bool.or_eq_true_iff.mp hneed)]
      rfl
  have hready : ((BitVec.ofNat 6 k).getLsbD 0 && !certified (entered c s)
      && !((entered c s).sec.testsOk && (List.range 4).any (anchorIn (entered c s)))) = false := by
    cases hb : (BitVec.ofNat 6 k).getLsbD 0
    · rfl
    cases hc : certified (entered c s)
    · obtain ⟨htests, hanchor⟩ := hcert hb hc
      rw [htests, hanchor]
      rfl
    · rfl
  refine taken_done ht ?_
  change (bodyLockSet p c (entered c s)).run [] = _
  simp only [bodyLockSet, idF_ok 0 hkind (ok := (· ≤ 1)) rfl, pure_bind,
    idF_ok_or_default 1 (c := p) (off := 2) (w := 1) (d := 0) rfl (ok := fun v => (0 : Nat) == 0 || decide (v < 132)) rfl,
    anyF_ok hmask, anyF_ok (c := p) (off := 8) (w := 8) (d := 0) rfl,
    idF_ok_or_default 4 (c := p) (off := 16) (w := 4) (d := 0) rfl (ok := fun v =>
      !((0 : Nat) == 0 && ((BitVec.ofNat 6 k).getLsbD 0 || (BitVec.ofNat 6 k).getLsbD 2)) || v == 0x43455254) hword,
    rejectIf_ok _ hready]
  rfl

theorem exec_lockSet_entries {m es : Nat} (hkind : raw p 0 1 = some 1) (hm : (raw p 2 1).getD 0 = m) (hin : m < 132)
    (hes : (raw p 8 8).getD 0 = es) (hfree : commitNames s m = false) :
    exec (.lockSet c) s = .next (replied specLockSet c s [] [] (lockEntries m es (entered c s))) := by
  have hf : commitNames (entered c s) m = false := (commitNames_entered c s m).trans hfree
  refine taken_done ht ?_
  change (bodyLockSet p c (entered c s)).run [] = _
  simp only [bodyLockSet, idF_ok 0 hkind (ok := (· ≤ 1)) rfl, pure_bind,
    idF_ok_or_default 1 hm (ok := fun v => (1 : Nat) == 0 || decide (v < 132)) (by simp [hin]),
    anyF_ok (c := p) (off := 4) (w := 4) (d := 0) rfl, anyF_ok hes,
    idF_ok_or_default 4 (c := p) (off := 16) (w := 4) (d := 0) rfl (ok := fun v =>
      !((1 : Nat) == 0 && ((BitVec.ofNat 6 ((raw p 4 4).getD 0)).getLsbD 0
        || (BitVec.ofNat 6 ((raw p 4 4).getD 0)).getLsbD 2)) || v == 0x43455254) rfl,
    Nat.one_ne_zero, if_false]
  change (rejectIf (commitNames (entered c s) m) stBusy >>= _).run [] = _
  rw [rejectIf_ok _ hf]
  rfl

end

section
variable {s : State} {c : Cmd} {p : Params} (ht : taken specZeroize c s p = true) (hmagic : raw p 4 4 = some 0x5A45524F)
include ht hmagic

theorem exec_zeroize_all (hk : raw p 0 1 = some 0) :
    exec (.zeroize c) s = .next (replied specZeroize c s [] [] (zeroAll c.session (entered c s))) := by
  refine taken_done ht ?_
  change (bodyZeroize p c (entered c s)).run [] = _
  simp only [bodyZeroize, idF_ok 0 hk (ok := (· ≤ 2)) rfl, pure_bind,
    idF_ok_or_default 1 (c := p) (off := 2) (w := 2) (d := 0) rfl (ok := fun _ => true) rfl, if_true,
    idF_ok 2 hmagic (ok := (· == 0x5A45524F)) rfl]
  rfl

theorem exec_zeroize_span {n : Nat} (hk : raw p 0 1 = some 1) (hn : (raw p 2 2).getD 0 = n)
    (htype : isType (entered c s) .span n = true) (hdown : (meetDown n (abortOp (.portDown n) (entered c s))).2 = false) :
    exec (.zeroize c) s = .next (replied specZeroize c s [] [] (zeroPort (entered c s) n)) := by
  refine taken_done ht ?_
  change (bodyZeroize p c (entered c s)).run [] = _
  simp only [bodyZeroize, idF_ok 0 hk (ok := (· ≤ 2)) rfl, pure_bind, Nat.one_ne_zero, if_false, if_true,
    idF_ok_or_default 1 hn (ok := isType (entered c s) .span) htype,
    idF_ok 2 hmagic (ok := (· == 0x5A45524F)) rfl, hdown, Bool.and_false, Bool.false_eq_true]
  rfl

theorem exec_zeroize_ide {n : Nat} (hk : raw p 0 1 = some 2) (hn : (raw p 2 2).getD 0 = n)
    (htype : isType (entered c s) .h n = true ∨ isType (entered c s) .d n = true) :
    exec (.zeroize c) s = .next (replied specZeroize c s [] [] (zeroIde n (entered c s))) := by
  refine taken_done ht ?_
  change (bodyZeroize p c (entered c s)).run [] = _
  simp only [bodyZeroize, idF_ok 0 hk (ok := (· ≤ 2)) rfl, pure_bind, OfNat.ofNat_ne_zero, OfNat.ofNat_ne_one, if_false,
    idF_ok_or_default 1 hn (ok := fun v => isType (entered c s) .h v || isType (entered c s) .d v) (Bool.or_eq_true_iff.mpr htype),
    idF_ok 2 hmagic (ok := (· == 0x5A45524F)) rfl]
  rfl

end

section
variable {s : State} {c : Cmd} {p : Params}

theorem exec_fdidSet_quiet {f : Nat} (ht : taken specFdidSet c s p = true) (hr : raw p 0 1 = some f) (hf : f < 256)
    (hq : ∀ x ∈ (entered c s).ports, x.2.typ = .span → x.2.st ≠ .training ∧ x.2.st ≠ .up ∧ x.2.st ≠ .hold) :
    exec (.fdidSet c) s = .next (replied specFdidSet c s [] [] (setBoot (fun b => { b with fdid := f }) (entered c s))) := by
  have hquiet : ((entered c s).ports.any fun e =>
      e.2.typ == .span && (e.2.st == .training || e.2.st == .up || e.2.st == .hold)) = false := by
    rw [List.any_eq_false]
    intro x hx
    by_cases hspan : x.2.typ = .span
    · obtain ⟨htr, hup, hhold⟩ := hq x hx hspan
      simp [hspan, htr, hup, hhold]
    · simp [hspan]
  refine taken_done ht ?_
  change (bodyFdidSet p c (entered c s)).run [] = _
  simp only [bodyFdidSet, idF_ok 0 hr (ok := (· < 256)) (decide_eq_true hf), pure_bind, rejectIf_ok _ hquiet]
  rfl

theorem exec_bundleKeySet_onCurve {k x y u v : Nat} (ht : taken specBundleKeySet c s p = true) (hr : raw p 0 1 = some k)
    (hk : k ≤ 3) (hx : beVal (slice p.bytes 4 48) = x) (hy : beVal (slice p.bytes 52 48) = y) (hu : raw p 4 48 = some u)
    (hv : raw p 52 48 = some v) (hon : onP384 x y = true) (hlock : (entered c s).sec.lock.getLsbD 3 = false) :
    exec (.bundleKeySet c) s = .next (replied specBundleKeySet c s [] []
      (setNv (fun v => { v with bundleKeys := tset v.bundleKeys k (x, y) }) (entered c s))) := by
  subst hx hy
  refine taken_done ht ?_
  change (bodyBundleKeySet p c (entered c s)).run [] = _
  simp only [bodyBundleKeySet, idF_ok 0 hr (ok := (· ≤ 3)) (decide_eq_true hk), pure_bind,
    idF_ok 1 hu (ok := fun _ => decide (p.bytes.length ≤ 52) || onP384 (beVal (slice p.bytes 4 48)) (beVal (slice p.bytes 52 48)))
      (by simp [hon]),
    idF_ok 2 hv (ok := fun _ => onP384 (beVal (slice p.bytes 4 48)) (beVal (slice p.bytes 52 48))) hon, rejectIf_ok _ hlock]
  rfl

end

section
variable {s : State} {c : Cmd} {p : Params} {off n l : Nat} (hsrc : (raw p 0 1).getD 0 = 1) (hlast : (raw p 1 1).getD 1 = l)
  (hl : l ≤ 1) (hoff : (raw p 4 4).getD 0 = off) (hlim : off ≤ 1048576) (hn : raw p 16 4 = some n) (hfit : off + n ≤ 1048576)
include hsrc hlast hl hoff hlim hn hfit

/-- BUNDLE_LOAD from the packet writes the staged bytes; the last part is verified. -/
theorem bodyBundleLoad_packet (s : State) : bodyBundleLoad p c s =
    (let b := stageWrite (if off = 0 then [] else s.stage.bytes) off (slice p.bytes 24 n)
     if l = 0 then okWith { s with stage := { bytes := b } } []
     else
       match verifyBundle s b with
       | .inl st => pure ({ s with stage := { bytes := b } }, .done st [])
       | .inr v => okWith { s with stage := { bytes := b, verified := some v } } []) := by
  simp only [bodyBundleLoad, elseF_ok 0 hsrc (ok := (· ≤ 1)) (app := 0) rfl,
    elseF_ok 1 hlast (ok := (· ≤ 1)) (app := 1) (decide_eq_true hl),
    idF_ok_or_default 2 hoff (ok := (· ≤ 1048576)) (decide_eq_true hlim), pure_bind,
    idF_ok_or_default 3 (c := p) (off := 8) (w := 8) (d := 0) rfl (ok := fun v => (1 : Nat) == 1 || v % 8 == 0) rfl, hn,
    rejectIfAt_ok _ _ (decide_eq_false (Nat.not_lt.mpr hfit)), if_true]
  rfl

variable (ht : taken specBundleLoad c s p = true)
include ht

theorem exec_bundleLoad_part (h0 : l = 0) :
    exec (.bundleLoad c) s = .next (replied specBundleLoad c s [] [] { entered c s with
      stage := { bytes := stageWrite (if off = 0 then [] else s.stage.bytes) off (slice p.bytes 24 n) } }) := by
  have hs : (entered c s).stage = s.stage := by rw [entered_eq]
  refine taken_done ht ?_
  change (bodyBundleLoad p c (entered c s)).run [] = _
  rw [bodyBundleLoad_packet hsrc hlast hl hoff hlim hn hfit, hs]
  simp only [h0, if_true]
  rfl

theorem exec_bundleLoad_verified {v : Nat × List Bytes} (h1 : l = 1)
    (hv : verifyBundle (entered c s) (stageWrite (if off = 0 then [] else s.stage.bytes) off (slice p.bytes 24 n)) = .inr v) :
    exec (.bundleLoad c) s = .next (replied specBundleLoad c s [] [] { entered c s with
      stage := { bytes := stageWrite (if off = 0 then [] else s.stage.bytes) off (slice p.bytes 24 n), verified := some v } }) := by
  have hs : (entered c s).stage = s.stage := by rw [entered_eq]
  refine taken_done ht ?_
  change (bodyBundleLoad p c (entered c s)).run [] = _
  rw [bodyBundleLoad_packet hsrc hlast hl hoff hlim hn hfit, hs]
  simp only [h1, Nat.one_ne_zero, if_false, hv]
  rfl

theorem exec_bundleLoad_refused {st : Nat} (h1 : l = 1)
    (hv : verifyBundle (entered c s) (stageWrite (if off = 0 then [] else s.stage.bytes) off (slice p.bytes 24 n)) = .inl st)
    (hst : 0x10 ≤ st) :
    exec (.bundleLoad c) s =
      .next (closed specBundleLoad c s (sendReply { baseReply 0x0104 c (c.session != 0) with status := st } { entered c s with
        stage := { bytes := stageWrite (if off = 0 then [] else s.stage.bytes) off (slice p.bytes 24 n) } })) := by
  have hs : (entered c s).stage = s.stage := by rw [entered_eq]
  refine taken_failed ht hst ?_
  change (bodyBundleLoad p c (entered c s)).run [] = _
  rw [bodyBundleLoad_packet hsrc hlast hl hoff hlim hn hfit, hs]
  simp only [h1, Nat.one_ne_zero, if_false, hv]
  rfl

end

theorem exec_bundleActivate_verified {s t : State} {c : Cmd} {p : Params} {n : Nat} {l : List Bytes}
    (ht : taken specBundleActivate c s p = true) (hv : s.stage.verified = some (n, l)) (hseq : s.nv.bseq < n)
    (hrun : bundleRun c 0 l (entered c s) = .ok t) :
    exec (.bundleActivate c) s = .next (opened specBundleActivate c s .bundle []
      (le 4 l.length ++ le 4 0xFFFFFFFF ++ List.replicate 16 0)
      { entered c s with bundle := some { cmd := c, seq := n, pkts := l } }) := by
  have he : (entered c s).stage.verified = some (n, l) := by rw [entered_eq]; exact hv
  have hb : ¬ n ≤ (entered c s).nv.bseq := by rw [entered_eq]; exact Nat.not_le.mpr hseq
  refine taken_later ht ?_
  change (bodyBundleActivate p c (entered c s)).run [] = _
  simp only [bodyBundleActivate, he, hb, if_false, hrun]
  rfl

section
variable {s : State} {r : BundleRun} (h : s.bundle = some r)
include h

theorem bundleStep_applied {k : Bytes} {t : State} (hk : r.pkts[r.next]? = some k) (hrun : bundleCommand r.cmd k s = .ok t) :
    bundleStep s = { t with bundle := t.bundle.map fun x => { x with next := r.next + 1 } } := by
  simp only [bundleStep, h, hk, hrun]

theorem bundleStep_failed {k : Bytes} {e : Rej} (hk : r.pkts[r.next]? = some k) (hrun : bundleCommand r.cmd k s = .error e) :
    bundleStep s = endBundle stBundlePartial (le 4 r.next ++ le 4 r.next ++ failHeader k e) s := by
  simp only [bundleStep, h, hk, hrun, activateData]

theorem bundleStep_end (hk : r.pkts[r.next]? = none) :
    bundleStep s = endBundle 0 (le 4 r.next ++ le 4 0xFFFFFFFF ++ List.replicate 16 0) s := by
  simp only [bundleStep, h, hk, activateData]

end

theorem exec_fwUpdate_written {s : State} {c : Cmd} {p : Params} {a n : Nat} (ht : taken specFwUpdate c s p = true)
    (ha : raw p 0 8 = some a) (halign : a % 8 = 0) (hn : raw p 8 4 = some n) (hlim : n ≤ 6291456)
    (hm : s.boot.mgr.isSome = true) (hlock : (entered c s).sec.lock.getLsbD 4 = false)
    (hlen : (imageOf (entered c s) (hostBytes c n)).ilen = n)
    (hgood : imageFault (entered c s) (imageOf (entered c s) (hostBytes c n)) = 0) (hback : c.env.readBackOk = true) :
    exec (.fwUpdate c) s = .next (replied specFwUpdate c s []
      ([updateSlot (entered c s), 0, 0, 0] ++ le 4 (imageOf (entered c s) (hostBytes c n)).version)
      (setNv (fun v => { v with images := tset v.images (updateSlot (entered c s)) (imageOf (entered c s) (hostBytes c n)) })
        (entered c s))) := by
  have hmgr : (entered c s).boot.mgr.isNone = false := by rw [entered_boot]; simpa using hm
  refine taken_done ht ?_
  change (bodyFwUpdate p c (entered c s)).run [] = _
  simp only [bodyFwUpdate, idF_ok 0 ha (ok := (· % 8 == 0)) (beq_iff_eq.mpr halign), pure_bind, hn,
    rejectIfAt_ok _ _ (decide_eq_false (Nat.not_lt.mpr hlim)), rejectIf_ok _ hmgr, rejectIf_ok _ hlock, hlen, bne_self_eq_false,
    rejectIfAt_ok _ _ rfl, hgood, rejectIf_ok _ rfl, hback, if_true]
  rfl

section
variable {s : State} {c : Cmd} {p : Params} {k r : Nat} (ht : taken specFwSelect c s p = true) (hk : raw p 0 1 = some k)
  (hin : k ≤ 1) (hr : (raw p 1 1).getD 0 = r) (hlock : (entered c s).sec.lock.getLsbD 4 = false)
include ht hk hin hr hlock

theorem exec_fwSelect_kept (h0 : r = 0) :
    exec (.fwSelect c) s = .next (replied specFwSelect c s [] []
      (setNv (fun v => { v with select := some k }) (entered c s))) := by
  subst h0
  refine taken_done ht ?_
  change (bodyFwSelect p c (entered c s)).run [] = _
  simp only [bodyFwSelect, idF_ok 0 hk (ok := (· ≤ 1)) (decide_eq_true hin), elseF_ok 1 hr (ok := (· ≤ 1)) (app := 0) rfl, pure_bind,
    rejectIf_ok _ hlock]
  rfl

theorem exec_fwSelect_raised {i : Image} (h1 : r = 1) (hi : slotAccepted (entered c s) k = some i) :
    exec (.fwSelect c) s = .next (replied specFwSelect c s [] []
      (raiseFloor k (setNv (fun v => { v with select := some k }) (entered c s)))) := by
  subst h1
  have hin' : ((1 : Nat) == 1 && (slotAccepted (entered c s) k).isNone) = false := by rw [hi]; rfl
  refine taken_done ht ?_
  change (bodyFwSelect p c (entered c s)).run [] = _
  simp only [bodyFwSelect, idF_ok 0 hk (ok := (· ≤ 1)) (decide_eq_true hin), elseF_ok 1 hr (ok := (· ≤ 1)) (app := 0) rfl, pure_bind,
    rejectIf_ok _ hlock, rejectIf_ok _ hin']
  rfl

end

/-- Settles O54: the checks of each command pass in turn, and the steps of SELFTEST and of a bundle follow what stands there. -/
theorem bedrockCommandsTakeEffect : Obligations.BedrockCommandsTakeEffect := by
  unfold Obligations.BedrockCommandsTakeEffect
  refine ⟨fun s c p => ⟨exec_sessionEnd_taken, fun ht x hx => exec_approvedGet_taken ht hx, exec_deviceInfo_taken,
      exec_selftest_taken⟩,
    fun s u t ok h hu => ⟨endSelftest_early h, fun hle hok => ?_, fun hle hok => ?_⟩,
    fun s k hl hlo hhi => exec_selfTestFailure_named hl hlo hhi,
    fun s c p m es k ht => ⟨fun hkind _ => exec_lockSet_locks ht hkind, exec_lockSet_entries ht⟩,
    fun s c p n ht hmagic => ⟨exec_zeroize_all ht hmagic, exec_zeroize_span ht hmagic, exec_zeroize_ide ht hmagic⟩,
    fun s c p f ht hr hf hq => exec_fdidSet_quiet ht hr hf hq,
    fun s c p k x y u v ht hr hk hx hy hu hv hon hlock => exec_bundleKeySet_onCurve ht hr hk hx hy hu hv hon hlock,
    fun s c p off n a l ht hsrc hlast hl hoff hlim _ hn hfit => ⟨exec_bundleLoad_part hsrc hlast hl hoff hlim hn hfit ht,
      fun v => exec_bundleLoad_verified hsrc hlast hl hoff hlim hn hfit ht,
      fun st => exec_bundleLoad_refused hsrc hlast hl hoff hlim hn hfit ht⟩,
    fun s t c p n l ht hv hseq hrun => exec_bundleActivate_verified ht hv hseq hrun,
    fun s r h => ⟨fun k t => bundleStep_applied h, fun k e => bundleStep_failed h, bundleStep_end h⟩,
    fun s c p a n ht ha hal hn hlim hm hlock hlen hgood hback =>
      exec_fwUpdate_written ht ha hal hn hlim hm hlock hlen hgood hback,
    fun s c p k r ht hk hin hr hlock => ⟨exec_fwSelect_kept ht hk hin hr hlock,
      fun h1 i => exec_fwSelect_raised ht hk hin hr hlock h1⟩⟩
  · rw [endSelftest_due h hle, hu, if_pos hok]
  · rw [endSelftest_due h hle, hu, if_neg (by simp [hok])]

end Sys2Proof.Machine

/-! # Atrium's records and detectors: O55 -/

namespace Sys2Proof.Machine
open Sys2Proof

theorem live_of_mgrReach {s : State} (h : mgrReach s = true) : live s = true := (Bool.and_eq_true_iff.mp h).1

theorem exec_eventDrain_pending {s : State} {k : Nat} {e : Event} (hpor : s.boot.por = false) (hatr : s.boot.atr = true)
    (hrun : s.atr.stopped = false) (hk : k < 8)
    (he : afterPtr (tgetD s.atr.lanePtr k 255) ((lanePend s k).filter fun e => decide (e.cyc < drainCycle s k (lanePend s k)))
      = some e) :
    exec (.eventDrain k) s = .next (drained k e (clockTo (8 * drainCycle s k (lanePend s k)) s)) := by
  have hx : exec (.eventDrain k) s = execEventDrain k s := rfl
  simp [hx, execEventDrain, hpor, hatr, hrun, Nat.not_le.mpr hk, he]

theorem exec_eventReactionSet_free {s : State} {c : Cmd} {p : Params} {n r : Nat} (ht : taken specEventReactionSet c s p = true)
    (hn : raw p 0 2 = some n) (hlt : n < 2048) (hclass : srcClass n ≠ 3) (hfixed : srcFixed n = false)
    (hr : (raw p 2 1).getD (if srcClass n = 2 then 2 else 1) = r) (hlo : (if srcClass n = 2 then 2 else 0) ≤ r) (hhi : r ≤ 4) :
    exec (.eventReactionSet c) s = .next (replied specEventReactionSet c s [] [] (setAtr (fun a => { a with
      reactWas := tset a.reactWas n ((entered c s).dc / 8, reactNow (entered c s) n),
      react := if r = srcReset n then tdel a.react n else tset a.react n r }) (entered c s))) := by
  have hdenied : (srcClass n == 3 || srcFixed n) = false := by simp [hclass, hfixed]
  refine taken_done ht ?_
  change (bodyEventReactionSet p c (entered c s)).run [] = _
  simp only [bodyEventReactionSet, idF_ok 0 hn (ok := (· < 2048)) (decide_eq_true hlt), rejectIfAt_ok _ _ hdenied, beq_iff_eq,
    rangeF_ok 1 hr hlo hhi, pure_bind]
  rfl

/-- CLEAR out of Basalt is applied as asked. -/
theorem clearF_ok {s : State} {p : Params} {k : Nat} (h : (raw p 0 1).getD 0 = k) (hk : k ≤ 1) (hb : s.boot.basalt = false) :
    clearF s p = pure k := elseF_ok 0 h (by
  rcases Nat.le_one_iff_eq_zero_or_eq_one.mp hk with rfl | rfl
  · rfl
  · simp [hb])

section
variable {s : State} {c : Cmd} {p : Params} {k : Nat} (hr : (raw p 0 1).getD 0 = k) (hk : k ≤ 1) (hb : s.boot.basalt = false)
include hr hk hb

theorem exec_firstEventRead_taken (ht : taken specFirstEventRead c s p = true) :
    exec (.firstEventRead c) s = .next (replied specFirstEventRead c s []
      (match s.atr.first with | some e => 1 :: entryBytes e | none => List.replicate 17 0)
      (if k = 1 then setAtr (fun a => { a with first := firstCleared (entered c s) }) (entered c s) else entered c s)) := by
  have hbas : (entered c s).boot.basalt = false := by rw [entered_boot]; exact hb
  refine taken_done ht ?_
  change (bodyFirstEventRead p c (entered c s)).run [] = _
  simp only [bodyFirstEventRead, clearF_ok hr hk hbas, pure_bind, entered_atr]
  rfl

theorem exec_historyRead_taken (ht : taken specHistoryRead c s p = true) :
    exec (.historyRead c) s = .next (replied specHistoryRead c s []
      ([s.atr.hist.length, 0] ++ le 2 s.atr.ovHist ++ le 2 s.atr.ovRing ++ s.atr.hist.flatMap entryBytes)
      (if k = 1 then setAtr (fun a => { a with hist := [], ovHist := 0, ovRing := 0, basaltRec := none }) (entered c s)
       else entered c s)) := by
  have hbas : (entered c s).boot.basalt = false := by rw [entered_boot]; exact hb
  refine taken_done ht ?_
  change (bodyHistoryRead p c (entered c s)).run [] = _
  simp only [bodyHistoryRead, clearF_ok hr hk hbas, pure_bind, entered_atr]
  rfl

end

theorem exec_eventRingSet_applied {s : State} {c : Cmd} {p : Params} {a n m : Nat} (ht : taken specEventRingSet c s p = true)
    (ha : raw p 0 8 = some a) (halign : a % 4096 = 0) (hn : (raw p 8 2).getD 256 = n) (hslots : slotsApp n = n)
    (hm : (raw p 10 1).getD 0 = m) (hclass : m ≤ 3) :
    exec (.eventRingSet c) s = .next (replied specEventRingSet c s [] []
      (setAtr (fun x => { x with ring := if a = 0 then none else some (a, n, m), prod := 0, cons := 0 }) (entered c s))) := by
  refine taken_done ht ?_
  change (bodyEventRingSet p c (entered c s)).run [] = _
  simp only [bodyEventRingSet, idF_ok 0 ha (ok := (· % 4096 == 0)) (beq_iff_eq.mpr halign), cfgF_ok 1 hn hslots,
    elseF_ok 2 hm (ok := (· ≤ 3)) (app := 3) (decide_eq_true hclass), pure_bind]
  rfl

section
variable {s : State} (hm : mgrReach s = true)
include hm

theorem exec_atEvrConsWrite_reached (v : Nat) :
    exec (.atEvrConsWrite v) s = .next (setAtr (fun a => { a with cons := v % 65536 }) s) := by
  have hx : exec (.atEvrConsWrite v) s = execAtEvrConsWrite v s := rfl
  simp [hx, execAtEvrConsWrite, act_live (live_of_mgrReach hm), hm]

theorem exec_atIntStatusWrite_reached (v : Nat) :
    exec (.atIntStatusWrite v) s = .next (setAtr (fun a => { a with
      event := w1c s .atEvent a.event (bit v 0), ringDrop := w1c s .atRingDrop a.ringDrop (bit v 1) }) (noteAlert s)) := by
  have hx : exec (.atIntStatusWrite v) s = execAtIntStatusWrite v s := rfl
  rw [hx, execAtIntStatusWrite, act_live (live_of_mgrReach hm), if_pos hm]
  rfl

end

theorem exec_basaltEntry_due {s : State} {w : Wired} (hl : live s = true) (hw : basaltNext s = some w) :
    exec .basaltEntry s = .next (enterBasalt w.source (clockTo w.due s)) := by
  have hx : exec .basaltEntry s = execBasaltEntry s := rfl
  rw [hx, execBasaltEntry, act_live hl, hw]

theorem exec_atriumSelf_named {s : State} {k : Nat} (hpor : s.boot.por = false) (hk : k = 1 ∨ k = 2) :
    exec (.atriumSelf k) s = .next (fire (srcCentral 1) k 0 noActor s) := by
  have hx : exec (.atriumSelf k) s = execAtriumSelf k s := rfl
  simp [hx, execAtriumSelf, hpor, hk]

section
variable {s : State} (hpor : s.boot.por = false) (hpll : s.boot.pll = true)
include hpor hpll

theorem exec_hallLinkError_named {h : Nat} (hh : h < 8) :
    exec (.hallLinkError h) s = .next (fire (srcHall h 232) 1 0 noActor s) := by
  have hx : exec (.hallLinkError h) s = execHallLinkError h s := rfl
  simp [hx, execHallLinkError, hpor, hpll, hh]

theorem exec_memoryError_hallMem {h : Nat} (hh : h < 8) :
    exec (.uncorrectableMemoryError (.hallMem h)) s = .next (fire (srcHall h 231) 1 0 noActor s) := by
  have hx : exec (.uncorrectableMemoryError (.hallMem h)) s = execUncorrectableMemoryError (.hallMem h) s := rfl
  simp [hx, execUncorrectableMemoryError, hpor, hpll, hh]

theorem exec_memoryError_hallCorr {h : Nat} (hh : h < 8) :
    exec (.uncorrectableMemoryError (.hallCorr h)) s = .next (fire (srcHall h 229) 1 0 noActor s) := by
  have hx : exec (.uncorrectableMemoryError (.hallCorr h)) s = execUncorrectableMemoryError (.hallCorr h) s := rfl
  simp [hx, execUncorrectableMemoryError, hpor, hpll, hh]

theorem exec_memoryError_central {k : Nat} (hlo : 1 ≤ k) (hhi : k ≤ 3) :
    exec (.uncorrectableMemoryError (.centralMem k)) s = .next (fire (srcCentral 3) k 0 noActor s) := by
  have hx : exec (.uncorrectableMemoryError (.centralMem k)) s = execUncorrectableMemoryError (.centralMem k) s := rfl
  simp [hx, execUncorrectableMemoryError, hpor, hpll, hlo, hhi]

theorem exec_memoryError_cellData {p mid : Nat} {x : Stored} (hp : inUse s p = true) (hx : tget s.cells mid = some x) :
    exec (.uncorrectableMemoryError (.cellData p mid)) s = .next
      (fireDegr p 15 { s with cells := tmod s.cells mid fun x => { x with msg := { x.msg with poison := true } } }) := by
  have hrun : exec (.uncorrectableMemoryError (.cellData p mid)) s = execUncorrectableMemoryError (.cellData p mid) s := rfl
  simp [hrun, execUncorrectableMemoryError, hpor, hpll, hp, hx]

section
variable {d : Nat} {t : Int} (hd : d < 10)
include hd

/-- A temperature 5 degrees below the warning re-arms both limits of its sensor. -/
theorem exec_thermalSample_cool (h : t ≤ warnAt s - 20) :
    exec (.thermalSample d t) s = .next (setAtr (fun a => { a with
      hot := a.hot.filter (· != d), warm := a.warm.filter (· != d) }) { s with temps := tset s.temps d t }) := by
  have hx : exec (.thermalSample d t) s = execThermalSample d t s := rfl
  have hwarn : ¬ warnAt s ≤ t := by omega
  have htrip : ¬ tripAt s ≤ t := by
    unfold warnAt at h
    unfold tripAt
    split at h <;> simp_all <;> omega
  have hwarn' : ∀ u, warnAt { s with temps := u } = warnAt s := fun _ => rfl
  have htrip' : ∀ u, tripAt { s with temps := u } = tripAt s := fun _ => rfl
  simp [hx, execThermalSample, hpor, hpll, Nat.not_le.mpr hd, hwarn', htrip', hwarn, htrip, h]

/-- The trip of a sensor that was warm and not hot. -/
theorem exec_thermalSample_trip (h : tripAt s ≤ t) (hhot : s.atr.hot.contains d = false) (hwarm : s.atr.warm.contains d = true) :
    exec (.thermalSample d t) s = .next (setAtr (fun a => { a with
      hot := if a.hot.contains d then a.hot else a.hot ++ [d], warm := if a.warm.contains d then a.warm else a.warm ++ [d] })
      (fire (srcCentral 4) 1 d noActor { s with temps := tset s.temps d t })) := by
  have hx : exec (.thermalSample d t) s = execThermalSample d t s := rfl
  have hwarn : warnAt s ≤ t := by
    unfold tripAt at h
    unfold warnAt
    split at h <;> simp_all <;> omega
  have hwarn' : ∀ u, warnAt { s with temps := u } = warnAt s := fun _ => rfl
  have htrip' : ∀ u, tripAt { s with temps := u } = tripAt s := fun _ => rfl
  rw [hx, execThermalSample]
  simp only [hpor, hpll, Nat.not_le.mpr hd, hwarn', htrip', hwarn, h, hhot, hwarm]
  rfl

/-- The warning of a sensor that was not warm. -/
theorem exec_thermalSample_warn (h : warnAt s ≤ t) (hcool : t < tripAt s) (hwarm : s.atr.warm.contains d = false) :
    exec (.thermalSample d t) s = .next (setAtr (fun a => { a with
      hot := a.hot.filter (· != d), warm := if a.warm.contains d then a.warm else a.warm ++ [d] })
      (fire (srcCentral 5) 1 d noActor { s with temps := tset s.temps d t })) := by
  have hx : exec (.thermalSample d t) s = execThermalSample d t s := rfl
  have hwarn' : ∀ u, warnAt { s with temps := u } = warnAt s := fun _ => rfl
  have htrip' : ∀ u, tripAt { s with temps := u } = tripAt s := fun _ => rfl
  rw [hx, execThermalSample]
  simp only [hpor, hpll, Nat.not_le.mpr hd, hwarn', htrip', h, not_le.mpr hcool, hwarm]
  rfl

end

end

/-- Settles O55: what each lane, command, register and detector finds. -/
theorem atriumRecordsAndDetectors : Obligations.AtriumRecordsAndDetectors := by
  unfold Obligations.AtriumRecordsAndDetectors
  refine ⟨⟨fun s k e hpor hatr hrun hk he => exec_eventDrain_pending hpor hatr hrun hk he,
      fun s c p n r ht hn hlt hc hf hr hlo hhi => exec_eventReactionSet_free ht hn hlt hc hf hr hlo hhi,
      fun s c p k hr hk hb => ⟨fun e ht he => ?_, fun ht he => ?_, exec_historyRead_taken hr hk hb⟩,
      fun s c p a n m ht ha hal hn hs hm hc => exec_eventRingSet_applied ht ha hal hn hs hm hc,
      fun s v hm => ⟨exec_atEvrConsWrite_reached hm v, exec_atIntStatusWrite_reached hm v⟩⟩,
    fun s k hpor hk => exec_atriumSelf_named hpor hk, fun s w hl hw => exec_basaltEntry_due hl hw,
    fun s h k p mid x hpor hpll => ⟨fun hh => ⟨exec_hallLinkError_named hpor hpll hh, exec_memoryError_hallMem hpor hpll hh,
        exec_memoryError_hallCorr hpor hpll hh⟩, exec_memoryError_central hpor hpll, exec_memoryError_cellData hpor hpll⟩,
    fun s d t hpor hpll hd => ⟨exec_thermalSample_cool hpor hpll hd, exec_thermalSample_trip hpor hpll hd,
      exec_thermalSample_warn hpor hpll hd⟩⟩
  · rw [exec_firstEventRead_taken hr hk hb ht, he]
  · rw [exec_firstEventRead_taken hr hk hb ht, he]

end Sys2Proof.Machine

/-! # Newel's commands and registers: O56 -/

namespace Sys2Proof.Machine
open Sys2Proof

theorem getChan_entered (c : Cmd) (s : State) (h : Nat) : getChan (entered c s) h = getChan s h := by rw [entered_eq]; rfl
theorem chanBusy_entered (c : Cmd) (s : State) (h : Nat) : chanBusy (entered c s) h = chanBusy s h := by
  simp only [chanBusy, entered_ops]

theorem chanF_ok {p : Params} {h : Nat} (hr : raw p 0 1 = some h) (hh : h < 32) : chanF p = pure h :=
  idF_ok 0 hr (decide_eq_true hh)

theorem rangeNoneF_ok {c : Params} {off w lo hi v : Nat} (i : Nat) (h : raw c off w = some v) (hl : lo ≤ v) (hh : v ≤ hi) :
    rangeNoneF c i off w lo hi = pure v := by
  have hv : nearer lo hi v = v := by unfold nearer; split <;> [omega; (split <;> omega)]
  simp [rangeNoneF, h, clamped, hv]

theorem exec_newelConfig_applied {s : State} {c : Cmd} {p : Params} {h il d t n f m r : Nat}
    (ht : taken specNewelConfig c s p = true) (hr : raw p 0 1 = some h) (hh : h < 32) (hil : (raw p 2 2).getD 100 = il)
    (hil0 : 10 ≤ il) (hil1 : il ≤ 800) (hd : (raw p 4 1).getD 20 = d) (hd0 : 5 ≤ d) (hd1 : d ≤ 200)
    (htm : (raw p 8 2).getD 1000 = t) (htm0 : 100 ≤ t) (htm1 : t ≤ 60000) (hn : (raw p 12 1).getD 3 = n) (hn1 : n ≤ 15)
    (hf : (raw p 13 1).getD 0 = f) (hf1 : f ≤ 1) (hm : (raw p 14 1).getD 0 = m) (hm1 : m ≤ 1) (hp : (raw p 15 1).getD 0 = r)
    (hp1 : r ≤ 7) (hfree : chanBusy s h = false)
    (hgate : gateOn (getChan s h) = true → il = (getChan s h).ilimit ∧ m = (getChan s h).tempMode) :
    exec (.newelConfig c) s = .next (replied specNewelConfig c s [] [] (reselect h (setChan h (fun c => { c with
      ilimit := il, dead := d, retryTmr := t, retryCnt := n, feedPri := f, tempMode := m, prio := r }) (entered c s)))) := by
  have hkept : (gateOn (getChan (entered c s) h)
      && (il != (getChan (entered c s) h).ilimit || m != (getChan (entered c s) h).tempMode)) = false := by
    rw [getChan_entered]
    cases hg : gateOn (getChan s h)
    · rfl
    · obtain ⟨hi, hmode⟩ := hgate hg
      simp [← hi, ← hmode]
  have hb : chanBusy (entered c s) h = false := (chanBusy_entered c s h).trans hfree
  refine taken_done ht ?_
  change (bodyNewelConfig p c (entered c s)).run [] = _
  simp only [bodyNewelConfig, chanF_ok hr hh, rangeF_ok 1 hil hil0 hil1, rangeF_ok 2 hd hd0 hd1, rangeF_ok 3 htm htm0 htm1,
    rangeF_ok 4 hn (Nat.zero_le n) hn1, elseF_ok 5 hf (ok := (· ≤ 1)) (app := 0) (decide_eq_true hf1),
    elseF_ok 6 hm (ok := (· ≤ 1)) (app := 0) (decide_eq_true hm1), rangeF_ok 7 hp (Nat.zero_le r) hp1, pure_bind,
    rejectIf_ok _ hkept, rejectIf_ok _ hb]
  rfl

section
variable {s : State} {c : Cmd} {p : Params} {h : Nat} (hr : raw p 0 1 = some h) (hh : h < 32) (hfree : chanBusy s h = false)
include hr hh hfree

theorem exec_newelOn_applied (ht : taken specNewelOn c s p = true) (hlock : (getChan s h).st ≠ .lockout)
    (hshort : (getChan s h).st ≠ .short) (hsense : senseOk (getChan s h) = true) :
    exec (.newelOn c) s = .next (replied specNewelOn c s [] [] (took h .on (requestChan h) (entered c s))) := by
  have hb : chanBusy (entered c s) h = false := (chanBusy_entered c s h).trans hfree
  have hst : ((getChan s h).st == .lockout || (getChan s h).st == .short || !senseOk (getChan s h)) = false := by
    simp [hlock, hshort, hsense]
  refine taken_done ht ?_
  change (bodyNewelOn p c (entered c s)).run [] = _
  simp only [bodyNewelOn, chanF_ok hr hh, pure_bind, getChan_entered, rejectIf_ok _ hst, rejectIf_ok _ hb]
  rfl

theorem exec_newelClear_applied (ht : taken specNewelClear c s p = true) (hshort : (getChan s h).st ≠ .short) :
    exec (.newelClear c) s = .next (replied specNewelClear c s [] [] (took h .clear (clearChanLock h) (entered c s))) := by
  have hb : chanBusy (entered c s) h = false := (chanBusy_entered c s h).trans hfree
  have hst : ((getChan s h).st == .short) = false := by simp [hshort]
  refine taken_done ht ?_
  change (bodyNewelClear p c (entered c s)).run [] = _
  simp only [bodyNewelClear, chanF_ok hr hh, pure_bind, getChan_entered, rejectIf_ok _ hst, rejectIf_ok _ hb]
  rfl

variable (ht : taken specNewelOff c s p = true)
include ht

theorem exec_newelOff_alone (halone : bit (getChan s h).assoc.toNat 31 = false) :
    exec (.newelOff c) s = .next (replied specNewelOff c s [] [] (took h .off (chanOff h) (entered c s))) := by
  have hb : chanBusy (entered c s) h = false := (chanBusy_entered c s h).trans hfree
  refine taken_done ht ?_
  change (bodyNewelOff p c (entered c s)).run [] = _
  simp only [bodyNewelOff, chanF_ok hr hh, pure_bind, getChan_entered, rejectIf_ok _ hb, halone, Bool.false_and,
    Bool.false_eq_true, if_false]
  rfl

theorem exec_newelOff_served (hassoc : bit (getChan s h).assoc.toNat 31 = true)
    (hd : isType (entered c s) .d ((getChan s h).assoc.toNat % 512) = true)
    (hst : portSt (entered c s) ((getChan s h).assoc.toNat % 512) = some .up
      ∨ portSt (entered c s) ((getChan s h).assoc.toNat % 512) = some .training) :
    exec (.newelOff c) s = .next (opened specNewelOff c s (.newelOff h ((getChan s h).assoc.toNat % 512)) [] []
      (meetDown ((getChan s h).assoc.toNat % 512) (entered c s)).1) := by
  have hb : chanBusy (entered c s) h = false := (chanBusy_entered c s h).trans hfree
  have hserved : (portSt (entered c s) ((getChan s h).assoc.toNat % 512) == some .training
      || portSt (entered c s) ((getChan s h).assoc.toNat % 512) == some .up) = true := by
    rcases hst with hst | hst <;> rw [hst] <;> rfl
  refine taken_later ht ?_
  change (bodyNewelOff p c (entered c s)).run [] = _
  simp only [bodyNewelOff, chanF_ok hr hh, pure_bind, getChan_entered, rejectIf_ok _ hb, hassoc, hd, hserved, Bool.true_and, if_true]
  rfl

end

section
variable {s : State} {c : Cmd} {p : Params} {f : Nat} (hr : raw p 0 1 = some f)
include hr

theorem exec_newelStatus_applied {n : Nat} (ht : taken specNewelStatus c s p = true) (hf : f < 32) (hn : raw p 1 1 = some n)
    (hlo : 1 ≤ n) (hhi : n ≤ 32 - f) :
    exec (.newelStatus c) s = .next (replied specNewelStatus c s []
      ((List.range n).flatMap fun k => chanRecord (entered c s) k (f + k)) { entered c s with freeN := s.freeN + 2 * n }) := by
  have hfree : (entered c s).freeN = s.freeN := by rw [entered_eq]
  refine taken_done ht ?_
  change (bodyNewelStatus p c (entered c s)).run [] = _
  simp only [bodyNewelStatus, idF_ok 0 hr (ok := (· < 32)) (decide_eq_true hf), rangeNoneF_ok 1 hn hlo hhi, pure_bind, hfree]
  rfl

theorem exec_stairwellSet_applied {b d : Nat} (ht : taken specStairwellSet c s p = true) (hf : f < 2)
    (hb : (raw p 2 2).getD 40 = b) (hb0 : 1 ≤ b) (hb1 : b ≤ 400) (hd : (raw p 4 2).getD 1100 = d) (hd0 : 1000 ≤ d)
    (hd1 : d ≤ 1200) :
    exec (.stairwellSet c) s = .next (replied specStairwellSet c s [] []
      (setFeed f (fun x => { x with budget := b, droop := d }) (entered c s))) := by
  refine taken_done ht ?_
  change (bodyStairwellSet p c (entered c s)).run [] = _
  simp only [bodyStairwellSet, idF_ok 0 hr (ok := (· < 2)) (decide_eq_true hf), rangeF_ok 1 hb hb0 hb1, rangeF_ok 2 hd hd0 hd1,
    pure_bind]
  rfl

end

/-- Settles O56: the checks of each command pass in turn, and a write reaches the channel's register. -/
theorem newelCommandsSetChannels : Obligations.NewelCommandsSetChannels := by
  unfold Obligations.NewelCommandsSetChannels
  refine ⟨fun s c p h il d t n f m r ht hr hh hil hil0 hil1 hd hd0 hd1 htm htm0 htm1 hn hn1 hf hf1 hm hm1 hp hp1 hfree hgate =>
      exec_newelConfig_applied ht hr hh hil hil0 hil1 hd hd0 hd1 htm htm0 htm1 hn hn1 hf hf1 hm hm1 hp hp1 hfree hgate,
    fun s c p h hr hh hfree => ⟨exec_newelOn_applied hr hh hfree, exec_newelClear_applied hr hh hfree,
      exec_newelOff_alone hr hh hfree, exec_newelOff_served hr hh hfree⟩,
    fun s c p f n ht hr hf hn hlo hhi => exec_newelStatus_applied hr ht hf hn hlo hhi,
    fun s c p f b d ht hr hf hb hb0 hb1 hd hd0 hd1 => exec_stairwellSet_applied hr ht hf hb hb0 hb1 hd hd0 hd1,
    fun s h v hpor hpll hh hm => ⟨exec_nwChAssocWrite_reached v hpor hpll hm hh, ?_, ?_⟩⟩
  · rw [exec_nwChBoardWrite_reached v hpor hpll hm hh (by decide), writeBoard_eq_writeAtRest_board]
    rfl
  · rw [exec_nwChBoardWrite_reached v hpor hpll hm hh (by decide), writeBoard_eq_writeAtRest_therm]
    rfl

end Sys2Proof.Machine

/-! # Starts of Newel's channels: O57 -/

namespace Sys2Proof.Machine
open Sys2Proof

theorem mayQueue_clockTo (d : Nat) (s : State) (c : Chan) : mayQueue (clockTo d s) c = mayQueue s c := by simp [mayQueue]

theorem le_clkP (t : Nat) : t ≤ clkP t := by
  unfold clkP ceilDiv
  omega

/-- The CLK_P control takes an event up at the next edge of its clock. -/
theorem clockTo_clkP_dc (s : State) : (clockTo (clkP s.dc) s).dc = clkP s.dc := by
  have h := le_clkP s.dc
  unfold clockTo
  split
  · omega
  · rfl

/-- With no event of this CLK_P cycle before it, an event takes effect on the channel as it stands. -/
theorem inTurn_first {s : State} (r h : Nat) (f : State → State) (hd : doneNow s = []) : inTurn r h f s = f s := by
  simp [inTurn, laterEvs, hd]

theorem took_first {s : State} (h : Nat) (e : ChanEv) (f : State → State) (hd : doneNow s = []) :
    took h e f s = f (noteEv h e s) := inTurn_first _ h _ hd

theorem queueChan_rested {s : State} {h : Nat} (hq : mayQueue s (getChan s h) = true)
    (hrest : ∀ t, (getChan s h).expAt = some t → t + 200000000 ≤ s.dc) :
    queueChan h s = setChan h (fun c => { c with st := .queued, front := false }) s := by
  cases he : (getChan s h).expAt with
  | none => simp [queueChan, hq, he]
  | some t => simp [queueChan, hq, he, hrest t he]

theorem rampChan_queued {s : State} {h f : Nat} (hst : (getChan s h).st = .queued) (hf : feedFor s (getChan s h) = some f) :
    rampChan h f s = emit (.newelGate h true) (setChan h (fun c => { c with
      st := .ramp, feed := f, closed := true, front := false, admitAt := s.dc }) s) := by simp [rampChan, hst, hf]

/-- A board that leaves a channel whose gate is on, out of Basalt, stops the gate and starts the retry timer. -/
theorem unseatBoard_on {s : State} {h : Nat} (hb : s.boot.basalt = false) (hg : gateOn (getChan s h) = true) :
    unseatBoard h s = setChan h (fun c => { c with st := .wait }) (startRetry h (gateOff h
      (setChan h (fun c => { c with present := false, removed := true }) s))) := by
  have hb' : (setChan h (fun c => { c with present := false, removed := true }) s).boot.basalt = false := hb
  simp only [unseatBoard, hb', hg, Bool.false_eq_true, if_false, if_true]

section
variable {s : State} {h : Nat} (hpor : s.boot.por = false) (hpll : s.boot.pll = true)
include hpor hpll

theorem nwAct_of_locked (f : State → State) : nwAct s f = .next (f (clockTo (clkP s.dc) s)) := by simp [nwAct, hpor, hpll]

theorem exec_stairwellAdmission_admitted {f : Nat} (hf : f < 2) (hgood : (getFeed s f).good = true)
    (hdroop : (getFeed s f).droopy = false) (hunder : s.nw.under = false) (hbas : s.boot.basalt = false) {x : Chan}
    (hcand : stairCandidate (clockTo (clkP s.dc) s) f = some (h, x))
    (hroom : chargedTo (clockTo (clkP s.dc) s) f + inrush x ≤ (getFeed s f).budget ∨ chargedTo (clockTo (clkP s.dc) s) f = 0)
    (hlast : (getFeed s f).lastAdm ≠ some (clkP s.dc)) :
    exec (.stairwellAdmission f) s = .next (took h (.admitted f) (rampChan h f)
      (setFeed f (fun x => { x with lastAdm := some (clockTo (clkP s.dc) s).dc }) (clockTo (clkP s.dc) s))) := by
  have hx : exec (.stairwellAdmission f) s = execStairwellAdmission f s := rfl
  have hfeed : getFeed (clockTo (clkP s.dc) s) f = getFeed s f := by simp [getFeed]
  have hfree : ((getFeed s f).lastAdm == some (clkP s.dc)) = false := by simp [hlast]
  have hopen : (decide (2 ≤ f) || !(getFeed s f).good || (getFeed s f).droopy || s.nw.under || s.boot.basalt) = false := by
    simp [Nat.not_le.mpr hf, hgood, hdroop, hunder, hbas]
  have hfits : (decide (chargedTo (clockTo (clkP s.dc) s) f + inrush x ≤ (getFeed s f).budget)
      || decide (chargedTo (clockTo (clkP s.dc) s) f = 0)) = true := by simpa using hroom
  rw [hx, execStairwellAdmission, nwAct_of_locked hpor hpll]
  simp only [hfeed, clockTo_nw, clockTo_boot, hopen, hcand, hfits, clockTo_clkP_dc, hfree, Bool.false_eq_true, if_false, if_true]

variable (hh : h < 32)
include hh

theorem exec_waitToQueued_waiting (hq : mayQueue s (getChan s h) = true) :
    exec (.waitToQueued h) s = .next (took h .eligible (queueChan h)
      (match (getChan s h).expAt with
       | some t => clockTo (clkP (t + 200000000)) (clockTo (clkP s.dc) s)
       | none => clockTo (clkP s.dc) s)) := by
  have hx : exec (.waitToQueued h) s = execWaitToQueued h s := rfl
  rw [hx, execWaitToQueued, chanAct_of_locked hpor hpll hh]
  simp only [getChan_clockTo, mayQueue_clockTo, hq, if_true] <;> rfl

theorem exec_pgAssert_ramped (hg : gateOn (getChan s h) = true) (hpg : (getChan s h).pg = false) :
    exec (.pgAssert h) s = .next (reselect h (setChan h (fun c => { c with
      st := .on, pg := true, pgAt := (clockTo (clkP s.dc) s).dc }) (clockTo (clkP s.dc) s))) := by
  have hx : exec (.pgAssert h) s = execPgAssert h s := rfl
  simp [hx, execPgAssert, chanAct_of_locked hpor hpll hh, hg, hpg]

theorem exec_nwPerstNRise_on (hst : (getChan s h).st = .on) (hpg : (getChan s h).pg = true) :
    exec (.nwPerstNRise h) s = .next (setChan h (fun c => { c with perst := true })
      (clockTo (clkP ((getChan s h).pgAt + 200000000)) (clockTo (clkP s.dc) s))) := by
  have hx : exec (.nwPerstNRise h) s = execNwPerstNRise h s := rfl
  simp [hx, execNwPerstNRise, chanAct_of_locked hpor hpll hh, hst, hpg]

theorem exec_pgHold10s_good (hpg : (getChan s h).pg = true) :
    exec (.pgHold10s h) s = .next (setChan h (fun c => { c with retries := 0 })
      (clockTo (clkP ((getChan s h).pgAt + 20000000000)) (clockTo (clkP s.dc) s))) := by
  have hx : exec (.pgHold10s h) s = execPgHold10s h s := rfl
  simp [hx, execPgHold10s, chanAct_of_locked hpor hpll hh, hpg]

theorem exec_boardInsertion_absent (hen : presEn (getChan s h) = true) (hp : (getChan s h).present = false) :
    exec (.boardInsertion h) s = .next (fireNewel h 10 (took h .inserted (seatBoard h) (clockTo (clkP s.dc) s))) := by
  have hx : exec (.boardInsertion h) s = execBoardInsertion h s := rfl
  simp [hx, execBoardInsertion, chanAct_of_locked hpor hpll hh, hen, hp]

theorem exec_boardRemoval_present (hen : presEn (getChan s h) = true) (hp : (getChan s h).present = true) :
    exec (.boardRemoval h) s = .next (fireNewel h 7 (noteSet (.nw h 17) (inTurn 3 h (unseatBoard h) (clockTo (clkP s.dc) s)))) := by
  have hx : exec (.boardRemoval h) s = execBoardRemoval h s := rfl
  simp [hx, execBoardRemoval, chanAct_of_locked hpor hpll hh, hen, hp]

theorem exec_retryTimerExpiry_running {t : Nat} (ht : (getChan s h).timer = some t) :
    exec (.retryTimerExpiry h) s = .next (took h .expiry (expireRetry h) (clockTo (clkP t) (clockTo (clkP s.dc) s))) := by
  have hx : exec (.retryTimerExpiry h) s = execRetryTimerExpiry h s := rfl
  simp [hx, execRetryTimerExpiry, chanAct_of_locked hpor hpll hh, ht]

theorem exec_diodeMeasure (a b d : Diode) :
    exec (.diodeMeasure h a b d) s = .next (setChan h (fun c =>
        if c.tempMode != 0 then c
        else { c with
          sensor := c.sensor || (a == .bad || b == .bad || d == .bad),
          tj := match [a, b, d].filterMap (diodeTemp c) with | [] => c.tj | t :: r => degC (r.foldl max t) })
        (if (a == .bad || b == .bad || d == .bad) && (getChan s h).tempMode == 0
          then noteSet (.nw h 18) (clockTo (clkP s.dc) s) else clockTo (clkP s.dc) s)) := by
  have hx : exec (.diodeMeasure h a b d) s = execDiodeMeasure h a b d s := rfl
  rw [hx, execDiodeMeasure, chanAct_of_locked hpor hpll hh]
  simp only [getChan_clockTo] <;> rfl

theorem exec_thermalModelUpdate (v i : Nat) :
    exec (.thermalModelUpdate h v i) s = .next (setChan h (fun c =>
      if c.tempMode = 1 && c.st != .off then { c with tj := modelStep c v i } else c) (clockTo (clkP s.dc) s)) := by
  have hx : exec (.thermalModelUpdate h v i) s = execThermalModelUpdate h v i s := rfl
  rw [hx, execThermalModelUpdate, chanAct_of_locked hpor hpll hh]

end

/-- Settles O57: each event of a start on the channel that it finds. -/
theorem channelsStartThroughTheStairwell : Obligations.ChannelsStartThroughTheStairwell := by
  unfold Obligations.ChannelsStartThroughTheStairwell
  intro s h hpor hpll hh
  refine ⟨fun t hq he => ?_, fun hq he => ?_, fun v => queueChan_rested,
    fun f hf hg hd hu hb hc hr hl => exec_stairwellAdmission_admitted hpor hpll hf hg hd hu hb hc hr hl,
    fun v f => rampChan_queued, fun v e f => took_first h e f, exec_pgAssert_ramped hpor hpll hh,
    exec_nwPerstNRise_on hpor hpll hh, exec_pgHold10s_good hpor hpll hh, exec_boardInsertion_absent hpor hpll hh,
    fun v => rfl, exec_boardRemoval_present hpor hpll hh, fun v => unseatBoard_on,
    fun t => exec_retryTimerExpiry_running hpor hpll hh, exec_diodeMeasure hpor hpll hh,
    exec_thermalModelUpdate hpor hpll hh⟩
  · rw [exec_waitToQueued_waiting hpor hpll hh hq, he]
  · rw [exec_waitToQueued_waiting hpor hpll hh hq, he]

end Sys2Proof.Machine

/-! # Faults of Newel's channels and feeds: O58 -/

namespace Sys2Proof.Machine
open Sys2Proof

@[simp] theorem getChan_noteSet (b : W1c) (s : State) (h : Nat) : getChan (noteSet b s) h = getChan s h := rfl
@[simp] theorem getChan_fireNewel (k c : Nat) (s : State) (h : Nat) : getChan (fireNewel k c s) h = getChan s h := by
  simp [getChan, fireNewel]
theorem boot_noteSet (b : W1c) (s : State) : (noteSet b s).boot = s.boot := rfl
theorem boot_gateOff (k : Nat) (s : State) : (gateOff k s).boot = s.boot := by unfold gateOff; dsimp only; split <;> rfl
theorem boot_startRetry (k : Nat) (s : State) : (startRetry k s).boot = s.boot := rfl

/-- A channel whose gate was commanded off and whose retry timer runs. -/
theorem getChan_gateOff (h : Nat) (s : State) : getChan (gateOff h s) h = { getChan s h with
    offAt := if (getChan s h).st == .ramp || (getChan s h).st == .on then s.dc else (getChan s h).offAt, pg := false, perst := false,
    moving := none, blank := false, front := false } := by
  have hgate : getChan (if (getChan s h).st == .ramp || (getChan s h).st == .on then emit (.newelGate h false) s else s) h
      = getChan s h := by split <;> rfl
  unfold gateOff
  dsimp only
  rw [getChan_setChan_self, hgate]
  congr 1
  split <;> rfl

theorem getChan_startRetry (h : Nat) (s : State) : getChan (startRetry h s) h =
    { getChan s h with timer := some ((getChan s h).timer.getD (s.dc + 2000000 * (getChan s h).retryTmr)) } :=
  getChan_setChan_self s h _

/-- A fault of a channel in RAMP or ON, out of Basalt, that has a retry left puts it in WAIT. -/
theorem chanFault_trip_of_retry_left {s : State} {h : Nat} (hst : (getChan s h).st = .ramp ∨ (getChan s h).st = .on)
    (hb : s.boot.basalt = false) (hleft : (getChan s h).retries < (getChan s h).retryCnt) (hcnt : (getChan s h).retryCnt ≤ 15) :
    (getChan (chanFault h 1 s) h).st = .wait ∧ (getChan (chanFault h 1 s) h).trip = true
      ∧ (getChan (chanFault h 1 s) h).retries = (getChan s h).retries + 1 ∧ (getChan (chanFault h 1 s) h).timer.isSome = true := by
  have hmin : min 16 ((getChan s h).retries + 1) = (getChan s h).retries + 1 := by omega
  have hgate : ((getChan s h).st == .off || (getChan s h).st == .lockout || (getChan s h).st == .short) = false := by
    rcases hst with hst | hst <;> rw [hst] <;> rfl
  have hkeep : ¬ (getChan s h).retryCnt < (getChan s h).retries + 1 := by omega
  have hrun : (s.boot.basalt || decide ((getChan s h).retryCnt < (getChan s h).retries + 1)) = false := by simp [hb, hkeep]
  unfold chanFault
  simp only [causeNo, causeBit, getChan_fireNewel, getChan_noteSet, getChan_setChan_self, getChan_startRetry, getChan_gateOff, hgate,
    hmin, fireNewel_boot, boot_noteSet, setChan_boot, boot_startRetry, boot_gateOff, hrun, Bool.false_eq_true, if_false,
    Option.isSome_some, and_self]

/-- FET_SHORT of a channel that no D port is associated with opens its switches and tells. -/
theorem shortChan_alone {s : State} {h : Nat} (ha : bit (getChan s h).assoc.toNat 31 = false) :
    shortChan h s = fireNewel h 5 (setChan h (fun c => { c with
      st := .short, fetShort := true, closed := false, front := false }) s) := by
  simp [shortChan, ha]

section
variable {s : State} (hpor : s.boot.por = false) (hpll : s.boot.pll = true)
include hpor hpll

section
variable {h : Nat} (hh : h < 32)
include hh

theorem exec_fastTrip_locked : exec (.fastTrip h) s = .next (inTurn 2 h (chanFault h 1) (clockTo ((s.dc / 32 + 1) * 32) s)) := by
  have hx : exec (.fastTrip h) s = execFastTrip h s := rfl
  simp [hx, execFastTrip, powerDie, hpor, hpll, hh]

theorem exec_ocTimeout_locked : exec (.ocTimeout h) s =
    .next (inTurn 2 h (fun s => if gateOn (getChan s h) then chanFault h 2 s else s) (clockTo (clkP s.dc) s)) := by
  have hx : exec (.ocTimeout h) s = execOcTimeout h s := rfl
  rw [hx, execOcTimeout, chanAct_of_locked hpor hpll hh]

theorem exec_startTimeout_ramping (hst : (getChan s h).st = .ramp) : exec (.startTimeout h) s = .next (inTurn 2 h (fun s =>
      if (getChan s h).st == .ramp && decide (rampEnd (getChan s h) ≤ s.dc) then chanFault h 3 s else s)
      (clockTo (rampEnd (getChan s h)) (clockTo (clkP s.dc) s))) := by
  have hx : exec (.startTimeout h) s = execStartTimeout h s := rfl
  rw [hx, execStartTimeout, chanAct_of_locked hpor hpll hh]
  simp only [getChan_clockTo, hst, beq_self_eq_true, if_true]

theorem exec_overTemperature_locked : exec (.overTemperature h) s = .next (inTurn 2 h (fun s =>
      if gateOn (getChan s h) && decide (degC (otTrip (getChan s h)) ≤ (getChan s h).tj) then chanFault h 4 s else s)
      (clockTo (clkP s.dc) s)) := by
  have hx : exec (.overTemperature h) s = execOverTemperature h s := rfl
  rw [hx, execOverTemperature, chanAct_of_locked hpor hpll hh]

theorem exec_pgLoss_locked : exec (.pgLoss h) s = .next (losePg h (clockTo (clkP s.dc) s)) := by
  have hx : exec (.pgLoss h) s = execPgLoss h s := rfl
  rw [hx, execPgLoss, chanAct_of_locked hpor hpll hh]

theorem exec_fetShort_gate_off (hg : gateOn (getChan s h) = false) (hst : (getChan s h).st ≠ .short) :
    exec (.fetShort h) s = .next
      (inTurn 1 h (shortChan h) (clockTo (clkP ((getChan s h).offAt + 200400000)) (clockTo (clkP s.dc) s))) := by
  have hx : exec (.fetShort h) s = execFetShort h s := rfl
  simp [hx, execFetShort, chanAct_of_locked hpor hpll hh, hg, hst]

theorem exec_deadTimeExpiry_moving {f : Nat} (hm : (getChan s h).moving = some f) :
    exec (.deadTimeExpiry h) s = .next
      (let t := clockTo (clkP ((getChan s h).moveAt + 2000 * (getChan s h).dead)) (clockTo (clkP s.dc) s)
       setChan h (fun c => { c with feed := (feedFor t c).getD f, closed := true, moving := none }) t) := by
  have hx : exec (.deadTimeExpiry h) s = execDeadTimeExpiry h s := rfl
  rw [hx, execDeadTimeExpiry, chanAct_of_locked hpor hpll hh]
  simp only [getChan_clockTo, hm]

theorem exec_pgBlankingEnd_blank (v : Nat) (hb : (getChan s h).blank = true) :
    exec (.pgBlankingEnd h v) s = .next
      (let t := setChan h (fun c => { c with blank := false })
         (clockTo (clkP ((getChan s h).moveAt + 2000 * ((getChan s h).dead + 50))) (clockTo (clkP s.dc) s))
       if v < 10200 then losePg h t else t) := by
  have hx : exec (.pgBlankingEnd h v) s = execPgBlankingEnd h v s := rfl
  rw [hx, execPgBlankingEnd, chanAct_of_locked hpor hpll hh]
  simp only [getChan_clockTo, hb, if_true]

end

section
variable {f : Nat} (hf : f < 2)
include hf

theorem exec_feedBad_outside {v : Nat} (hv : v < 1020 ∨ 1380 < v) :
    exec (.feedBad f v) s = .next ((List.range 32).foldl (feedLost f (decide (1380 < v)))
      (setFeed f (fun x => { x with good := false, volt := v, ov := decide (1380 < v) }) (clockTo (clkP s.dc) s))) := by
  have hx : exec (.feedBad f v) s = execFeedBad f v s := rfl
  have hout : (decide (2 ≤ f) || decide (1020 ≤ v) && decide (v ≤ 1380)) = false := by
    simp [Nat.not_le.mpr hf]; omega
  rw [hx, execFeedBad, nwAct_of_locked hpor hpll]
  simp only [hout, Bool.false_eq_true, if_false]

theorem exec_feedGood_inside {v : Nat} (hlo : 1050 ≤ v) (hhi : v ≤ 1350) :
    exec (.feedGood f v) s = .next ((List.range 32).foldl (fun s h => reselect h s)
      (setFeed f (fun x => { x with good := true, volt := v, ov := false }) (clockTo (clkP s.dc) s))) := by
  have hx : exec (.feedGood f v) s = execFeedGood f v s := rfl
  have hin : (decide (2 ≤ f) || decide (v < 1050) || decide (1350 < v)) = false := by
    simp [Nat.not_le.mpr hf, hlo, hhi]
  rw [hx, execFeedGood, nwAct_of_locked hpor hpll]
  simp only [hin, Bool.false_eq_true, if_false]

omit hpor hpll hf in
theorem getFeed_clockTo (d : Nat) (s : State) (f : Nat) : getFeed (clockTo d s) f = getFeed s f := by simp [getFeed]

theorem exec_feedDroop_first {v : Nat} (hv : v < (getFeed s f).droop) (hd : (getFeed s f).droopy = false) :
    exec (.feedDroop f v) s = .next (fire (srcCentral (48 + f)) 1 f noActor
      (setFeed f (fun x => { x with droopy := true, volt := v }) (clockTo (clkP s.dc) s))) := by
  have hx : exec (.feedDroop f v) s = execFeedDroop f v s := rfl
  simp [hx, execFeedDroop, nwAct_of_locked hpor hpll, getFeed_clockTo, Nat.not_le.mpr hf, Nat.not_le.mpr hv, hd]

theorem exec_feedDroopEnd_above {v : Nat} (hv : (getFeed s f).droop + 20 < v) :
    exec (.feedDroopEnd f v) s = .next
      (setFeed f (fun x => { x with droopy := false, volt := v }) (clockTo (clkP s.dc) s)) := by
  have hx : exec (.feedDroopEnd f v) s = execFeedDroopEnd f v s := rfl
  simp [hx, execFeedDroopEnd, nwAct_of_locked hpor hpll, getFeed_clockTo, Nat.not_le.mpr hf, Nat.not_le.mpr hv]

end

theorem exec_vnewelUndervoltage_locked : exec .vnewelUndervoltage s = .next (holdAllOff (clockTo (clkP s.dc) s)) := by
  have hx : exec .vnewelUndervoltage s = execVnewelUndervoltage s := rfl
  simp [hx, execVnewelUndervoltage, powerDie, hpor, hpll]

theorem exec_vnewelRestored_locked : exec .vnewelRestored s = .next
    { clockTo (clkP s.dc) s with nw := { (clockTo (clkP s.dc) s).nw with under := false } } := by
  have hx : exec .vnewelRestored s = execVnewelRestored s := rfl
  rw [hx, execVnewelRestored, nwAct_of_locked hpor hpll]

end

/-- Settles O58: each fault at its CLK_P cycle; the one of a channel with a retry left ends in WAIT. -/
theorem channelAndFeedFaults : Obligations.ChannelAndFeedFaults := by
  unfold Obligations.ChannelAndFeedFaults
  refine ⟨fun s h hpor hpll hh => ⟨exec_fastTrip_locked hpor hpll hh, fun hst hb hleft hcnt hd => ?_,
      exec_ocTimeout_locked hpor hpll hh, exec_startTimeout_ramping hpor hpll hh, exec_overTemperature_locked hpor hpll hh,
      fun v r f => inTurn_first r h f, exec_pgLoss_locked hpor hpll hh, exec_fetShort_gate_off hpor hpll hh,
      fun v => shortChan_alone, fun f => exec_deadTimeExpiry_moving hpor hpll hh, exec_pgBlankingEnd_blank hpor hpll hh⟩,
    fun s f v hpor hpll hf => ⟨exec_feedBad_outside hpor hpll hf, exec_feedGood_inside hpor hpll hf,
      exec_feedDroop_first hpor hpll hf, exec_feedDroopEnd_above hpor hpll hf⟩,
    fun s hpor hpll => ⟨exec_vnewelUndervoltage_locked hpor hpll, exec_vnewelRestored_locked hpor hpll⟩⟩
  have hw : getChan (clockTo ((s.dc / 32 + 1) * 32) s) h = getChan s h := getChan_clockTo _ _ _
  refine ⟨_, (exec_fastTrip_locked hpor hpll hh).trans (congrArg _ (inTurn_first _ _ _ hd)), ?_⟩
  have hfault := chanFault_trip_of_retry_left (s := clockTo ((s.dc / 32 + 1) * 32) s) (h := h) (by rwa [hw])
    (by rwa [clockTo_boot]) (by rwa [hw]) (by rwa [hw])
  rwa [hw] at hfault

end Sys2Proof.Machine

/-! # Register accesses: O59 -/

namespace Sys2Proof.Machine
open Sys2Proof

section
variable {s : State} {v a k i o : Nat} (hl : live s = true) (ht : target s v a = some (.reg k i o))
include hl ht

theorem exec_rcCounterRead_reg (hbuf : k = 14 → inWords o 0x80 16 = false) :
    exec (.rcCounterRead v a) s = .next (emit (.readValue a (readAt k i o s).1) (readAt k i o s).2) := by
  have hx : exec (.rcCounterRead v a) s = execRcCounterRead v a s := rfl
  have hno : (decide (k = 14) && inWords o 0x80 16) = false := by
    by_cases hk : k = 14
    · simp [hbuf hk]
    · simp [hk]
  rw [hx, execRcCounterRead, act_live hl]
  simp only [ht, hno, Bool.false_eq_true, if_false]

/-- A write of all four bytes of a word writes the register there. -/
theorem exec_registerWrite_word (w : Nat) : exec (.registerWrite v a w 15) s = .next (writeReg k i o (lo32 w) s) := by
  have hx : exec (.registerWrite v a w 15) s = execRegisterWrite v a w 15 s := rfl
  simp [hx, execRegisterWrite, act_live hl, writeWord, ht]

omit ht in
/-- A write of three bytes of a word writes nothing. -/
theorem exec_registerWrite_part (w : Nat) : exec (.registerWrite v a w 7) s = .next s := by
  have hx : exec (.registerWrite v a w 7) s = execRegisterWrite v a w 7 s := rfl
  simp [hx, execRegisterWrite, act_live hl]

end

theorem writeReg_flrDrain (i w : Nat) (s : State) :
    writeReg 15 i 0 w s = setStd i (fun d => { d with flrDrain := w % 65536 }) s := rfl

theorem exec_rcCounterRead_none {s : State} {v a : Nat} (hl : live s = true) (ht : target s v a = none) (hv : v < 512)
    (hreach : pf0Reach s v = true) : exec (.rcCounterRead v a) s = .next (emit (.readValue a 0) s) := by
  have hx : exec (.rcCounterRead v a) s = execRcCounterRead v a s := rfl
  simp [hx, execRcCounterRead, act_live hl, ht, hv, hreach]

section
variable {s : State} (hm : mgrReach s = true)
include hm

theorem exec_latchedLoRead_tmTime :
    exec (.latchedLoRead .tmTime) s = .next (emit (.readValue 0x40000 (readAt 9 0 0 s).1) (readAt 9 0 0 s).2) := by
  have hx : exec (.latchedLoRead .tmTime) s = execLatchedLoRead .tmTime s := rfl
  simp [hx, execLatchedLoRead, act_live (live_of_mgrReach hm), hm]

theorem exec_latchedLoRead_tmPtm :
    exec (.latchedLoRead .tmPtm) s = .next (emit (.readValue 0x40010 (readAt 9 0 0x10 s).1) (readAt 9 0 0x10 s).2) := by
  have hx : exec (.latchedLoRead .tmPtm) s = execLatchedLoRead .tmPtm s := rfl
  simp [hx, execLatchedLoRead, act_live (live_of_mgrReach hm), hm]

theorem exec_latchedLoRead_tmPtmAt :
    exec (.latchedLoRead .tmPtmAt) s = .next (emit (.readValue 0x40018 (readAt 9 0 0x18 s).1) (readAt 9 0 0x18 s).2) := by
  have hx : exec (.latchedLoRead .tmPtmAt) s = execLatchedLoRead .tmPtmAt s := rfl
  simp [hx, execLatchedLoRead, act_live (live_of_mgrReach hm), hm]

theorem exec_latchedLoRead_atFirstTs :
    exec (.latchedLoRead .atFirstTs) s = .next (emit (.readValue 0x62004 (readAt 7 0 0x2004 s).1) (readAt 7 0 0x2004 s).2) := by
  have hx : exec (.latchedLoRead .atFirstTs) s = execLatchedLoRead .atFirstTs s := rfl
  simp [hx, execLatchedLoRead, act_live (live_of_mgrReach hm), hm]

end

theorem offsetF_ok {p : Params} {k i o : Nat} (n : Nat) (hr : raw p 4 4 = some o) (halign : o % 4 = 0) (hin : o < blkSize k i) :
    offsetF p n k i = pure o :=
  idF_ok n hr (by simp [halign, hin])

section
variable {s : State} {c : Cmd} {p : Params}

theorem exec_countersRead_taken {k l i o n : Nat} (ht : taken specCountersRead c s p = true) (hk : raw p 0 1 = some k) (hk9 : k ≤ 9)
    (hl : (raw p 1 1).getD 0 = l) (hl1 : l ≤ 1) (hi : raw p 2 2 = some i) (hinst : instOk (entered c s) k i = true)
    (ho : raw p 4 4 = some o) (halign : o % 4 = 0) (hin : o < blkSize k i) (hn : (raw p 8 2).getD 1 = n) (hn0 : 1 ≤ n)
    (hn1 : n ≤ 1000) :
    exec (.countersRead c) s = .next (replied specCountersRead c s [] (readWords k i (l == 1) n o (entered c s)).1
      (readWords k i (l == 1) n o (entered c s)).2) := by
  refine taken_done ht ?_
  change (bodyCountersRead p c (entered c s)).run [] = _
  simp only [bodyCountersRead, idF_ok 0 hk (ok := (· ≤ 9)) (decide_eq_true hk9),
    elseF_ok 1 hl (ok := (· ≤ 1)) (app := 0) (decide_eq_true hl1), idF_ok 2 hi (ok := instOk (entered c s) k) hinst,
    offsetF_ok 3 ho halign hin, rangeF_ok 4 hn hn0 hn1, pure_bind]
  rfl

theorem exec_sensorsRead_taken (ht : taken specSensorsRead c s p = true) :
    exec (.sensorsRead c) s = .next (replied specSensorsRead c s []
      (((List.range 10).flatMap fun d => le 2 (unsigned 2 (tgetD s.temps d 0)))
        ++ ((List.range 12).flatMap fun k => le 2 (Config.analog (s.freeN + k)))
        ++ le 2 (getFeed s 0).volt ++ le 2 (getFeed s 1).volt)
      { entered c s with freeN := s.freeN + 12 }) := by
  have htemps : (entered c s).temps = s.temps := by rw [entered_eq]
  have hfree : (entered c s).freeN = s.freeN := by rw [entered_eq]
  have hfeed : ∀ f, getFeed (entered c s) f = getFeed s f := fun f => by rw [entered_eq]; rfl
  refine taken_done ht ?_
  change (bodySensorsRead p c (entered c s)).run [] = _
  simp only [bodySensorsRead, htemps, hfree, hfeed]
  rfl

end

/-- Settles O59: what each access finds at its address, and what the reads of the management commands return. -/
theorem registersAreReadAndWritten : Obligations.RegistersAreReadAndWritten := by
  unfold Obligations.RegistersAreReadAndWritten
  refine ⟨fun s v a k i o hl ht hbuf => ⟨exec_rcCounterRead_reg hl ht hbuf,
      fun w => ⟨exec_registerWrite_word hl ht w, exec_registerWrite_part hl w⟩, fun w hk ho => ?_⟩,
    fun s v a hl ht hv hreach => exec_rcCounterRead_none hl ht hv hreach,
    fun s hm => ⟨exec_latchedLoRead_tmTime hm, exec_latchedLoRead_tmPtm hm, exec_latchedLoRead_tmPtmAt hm,
      exec_latchedLoRead_atFirstTs hm⟩,
    fun s c p k l i o n ht hk hk9 hl hl1 hi hinst ho hal hin hn hn0 hn1 =>
      exec_countersRead_taken ht hk hk9 hl hl1 hi hinst ho hal hin hn hn0 hn1,
    fun s c p ht => exec_sensorsRead_taken ht⟩
  rw [exec_registerWrite_word hl ht w, hk, ho, writeReg_flrDrain]

end Sys2Proof.Machine

/-! # Rings, packets and telemetry: O60 -/

namespace Sys2Proof.Machine
open Sys2Proof

section
variable {s : State} {n v : Nat} {q : Port} (hl : live s = true) (hreach : pf0Reach s n = true) (hq : getPort s n = some q)
include hl hreach

section
include hq

theorem exec_cmdDoorbell_within (hocc : ringOcc (v % 65536) q.std.rings.cmdCons ≤ 2 ^ ringLog q.std.rings) :
    exec (.cmdDoorbell n v) s = .next (setRings n (fun r => { r with cmdProd := v % 65536 }) s) := by
  have hx : exec (.cmdDoorbell n v) s = execCmdDoorbell n v s := rfl
  simp [hx, execCmdDoorbell, act_live hl, hreach, writeCmdProd, hq, Nat.not_lt.mpr hocc]

theorem exec_cmdDoorbell_beyond (hocc : 2 ^ ringLog q.std.rings < ringOcc (v % 65536) q.std.rings.cmdCons) :
    exec (.cmdDoorbell n v) s = .next (fire (srcCentral 9) 1 n noActor s) := by
  have hx : exec (.cmdDoorbell n v) s = execCmdDoorbell n v s := rfl
  simp [hx, execCmdDoorbell, act_live hl, hreach, writeCmdProd, hq, hocc]

omit hl hreach in
/-- A write of CM_RING_CFG while ENABLE is 0. -/
theorem writeRingCfg_idle (v : Nat) (hidle : q.std.rings.enable = false) : writeRingCfg n v s =
    (let u := setRings n (fun r => { r with log := v % 16, stopped := w1c s (.ring n) r.stopped (bit v 5) }) s
     if bit v 4 then
       setRings n (fun r => { r with enable := true, cmdProd := 0, cmdCons := 0, rplProd := 0, rplCons := 0, resv := 0 }) u
     else u) := by
  simp only [writeRingCfg, hq, hidle, Bool.false_eq_true, if_false]

omit hl hreach in
/-- A write of 0 to ENABLE while it is 1 stops the rings; STOPPED keeps what the write left of it. -/
theorem writeRingCfg_stopping {v : Nat} (hrun : q.std.rings.enable = true) (hbit : bit v 4 = false) : writeRingCfg n v s =
    setRings n (fun r => { r with stopped := w1c s (.ring n) q.std.rings.stopped (bit v 5) })
      (stopRings n (setRings n (fun r => { r with stopped := w1c s (.ring n) r.stopped (bit v 5) }) s)) := by
  have hold : (getPort (setRings n (fun r => { r with stopped := w1c s (.ring n) r.stopped (bit v 5) }) s) n).map
      (·.std.rings.stopped) = some (w1c s (.ring n) q.std.rings.stopped (bit v 5)) := by
    simp [setRings, hq]
  unfold writeRingCfg
  simp only [hq, hrun, hbit, hold, Bool.false_eq_true, if_false, if_true, Option.getD_some]

theorem exec_ringEnable_idle (hidle : q.std.rings.enable = false) (hbit : bit (v ||| 16) 4 = true) :
    exec (.ringEnable n v) s = .next
      (setRings n (fun r => { r with enable := true, cmdProd := 0, cmdCons := 0, rplProd := 0, rplCons := 0, resv := 0 })
        (setRings n (fun r => { r with log := (v ||| 16) % 16, stopped := w1c s (.ring n) r.stopped (bit (v ||| 16) 5) }) s)) := by
  have hx : exec (.ringEnable n v) s = execRingEnable n v s := rfl
  rw [hx, execRingEnable, act_live hl, if_pos hreach, writeRingCfg_idle hq _ hidle]
  exact congrArg _ (if_pos hbit)

end

/-- RING_STOP with ENABLE 0 in its value writes that value. -/
theorem exec_ringStop_value (hbit : bit v 4 = false) : exec (.ringStop n v) s = .next (writeRingCfg n v s) := by
  have hx : exec (.ringStop n v) s = execRingStop n v s := rfl
  rw [hx, execRingStop, act_live hl, if_pos hreach, hbit]
  rfl

include hq

theorem exec_ringStop_idle (hidle : q.std.rings.enable = false) (hbit : bit v 4 = false) :
    exec (.ringStop n v) s = .next
      (setRings n (fun r => { r with log := v % 16, stopped := w1c s (.ring n) r.stopped (bit v 5) }) s) := by
  rw [exec_ringStop_value hl hreach hbit, writeRingCfg_idle hq v hidle]
  exact congrArg _ (if_neg (by rw [hbit]; decide))

theorem exec_ringStop_running (hrun : q.std.rings.enable = true) (hbit : bit v 4 = false) :
    exec (.ringStop n v) s = .next
      (setRings n (fun r => { r with stopped := w1c s (.ring n) q.std.rings.stopped (bit v 5) })
        (stopRings n (setRings n (fun r => { r with stopped := w1c s (.ring n) r.stopped (bit v 5) }) s))) := by
  rw [exec_ringStop_value hl hreach hbit, writeRingCfg_stopping hq hrun hbit]

omit hq in
theorem exec_rplConsWrite_reached :
    exec (.rplConsWrite n v) s = .next (setRings n (fun r => { r with rplCons := v % 65536, sent := false }) s) := by
  have hx : exec (.rplConsWrite n v) s = execRplConsWrite n v s := rfl
  rw [hx, execRplConsWrite, act_live hl, if_pos hreach]
  rfl

end

/-- A packet of a known opcode runs as that command. -/
theorem runPacket_named {o : Origin} {b : Bytes} {k : Nat} {e : Env} {sp : OpSpec} (s : State)
    (hsp : specIn (specBundleActivate :: opTable) (unle (slice b 0 2)) = some sp) :
    command sp (packetCmd o b k e) s = .next (runPacket o b k e s) := by
  have ho : (packetCmd o b k e).origin = o := rfl
  rw [command, ho]
  unfold runPacket
  cases pathOpen s o
  · rfl
  · simp only [hsp]
    rfl

theorem exec_mctpCommandReceive_assembled {s : State} {o : Origin} {us : List Bytes} {b : Bytes} (e : Env) (hlo : 16 ≤ b.length)
    (hhi : b.length ≤ 4096) (hb : assembled (mctpUnit s o) us = some b) (ho : ∀ n, o ≠ .ring n) :
    exec (.mctpCommandReceive o us e) s = .next (runPacket o b b.length e s) := by
  have hx : exec (.mctpCommandReceive o us e) s = execMctpCommandReceive o us e s := rfl
  have hlen : (decide (b.length < 16) || decide (4096 < b.length)) = false := by simp [hlo, hhi]
  rw [hx]
  unfold execMctpCommandReceive
  rw [hb]
  cases o with
  | ring n => exact absurd rfl (ho n)
  | vdm _ | bay _ | i3c => simp only [hlen, Bool.false_eq_true, if_false]

section
variable {s : State} {c : Cmd} {p : Params} {k l i o n m : Nat} (ht : taken specTelemetryStream c s p = true)
  (hk : raw p 0 1 = some k) (hk15 : k ≤ 15) (hl : raw p 1 1 = some l) (hl9 : l ≤ 9) (hi : raw p 2 2 = some i)
  (hinst : instOk (entered c s) l i = true) (ho : raw p 4 4 = some o) (halign : o % 4 = 0) (hin : o < blkSize l i)
  (hn : (raw p 8 1).getD 1 = n) (hn0 : 1 ≤ n) (hn1 : n ≤ 64) (hm : (raw p 10 2).getD 0 = m) (hm1 : m ≤ 10000)
include ht hk hk15 hl hl9 hi hinst ho halign hin hn hn0 hn1 hm hm1

/-- TELEMETRY_STREAM with an event ring, or with PERIOD 0, sets or ends the stream. -/
theorem exec_telemetryStream_taken (hring : m = 0 ∨ s.atr.ring.isSome = true) :
    exec (.telemetryStream c) s = .next
      (let t : Tele := { block := l, inst := i, offset := o, count := n, period := m, at_ := (entered c s).dc }
       replied specTelemetryStream c s [] [] { entered c s with tele := if m = 0 then tdel s.tele k else tset s.tele k t }) := by
  have htele : (entered c s).tele = s.tele := by rw [entered_eq]
  have hok : (m != 0 && s.atr.ring.isNone) = false := by
    rcases hring with h | h
    · simp [h]
    · simp [h]
  refine taken_done ht ?_
  change (bodyTelemetryStream p c (entered c s)).run [] = _
  simp only [bodyTelemetryStream, idF_ok 0 hk (ok := (· ≤ 15)) (decide_eq_true hk15),
    idF_ok 1 hl (ok := (· ≤ 9)) (decide_eq_true hl9), idF_ok 2 hi (ok := instOk (entered c s) l) hinst,
    offsetF_ok 3 ho halign hin, rangeF_ok 4 hn hn0 hn1, rangeF_ok 5 hm (Nat.zero_le m) hm1, pure_bind, entered_atr,
    rejectIf_ok _ hok, htele]
  rfl

end

theorem exec_telemetryPeriod_set {s : State} {k : Nat} {x : Tele} (hl : live s = true) (hx : tget s.tele k = some x) :
    exec (.telemetryPeriod k) s = .next
      (let u := clockTo (x.at_ + 2000000 * x.period) s
       let v := { u with tele := tset s.tele k { x with at_ := x.at_ + 2000000 * x.period } }
       if mezzRuns s then (List.range x.count).foldl (teleWord k) v else v) := by
  have hrun : exec (.telemetryPeriod k) s = execTelemetryPeriod k s := rfl
  have hmezz : ∀ d t, mezzRuns { clockTo d s with tele := t } = mezzRuns s := fun d t => by
    simp only [mezzRuns, clockTo_boot, clockTo_sec]
  rw [hrun, execTelemetryPeriod, act_live hl, hx]
  simp only [clockTo_tele, hmezz]

/-- Settles O60: each write moves its index, and each packet runs as its command. -/
theorem ringsAndPacketsCarryCommands : Obligations.RingsAndPacketsCarryCommands := by
  unfold Obligations.RingsAndPacketsCarryCommands
  refine ⟨fun s n v q hl hreach hq => ⟨exec_cmdDoorbell_within hl hreach hq, exec_cmdDoorbell_beyond hl hreach hq,
      exec_rplConsWrite_reached hl hreach, exec_ringEnable_idle hl hreach hq, exec_ringStop_idle hl hreach hq,
      exec_ringStop_running hl hreach hq⟩,
    fun s o us b e sp hlo hhi hsp => ⟨fun hb ho =>
        ⟨_, exec_mctpCommandReceive_assembled e hlo hhi hb ho, runPacket_named s hsp⟩,
      fun n => ⟨_, rfl, runPacket_named s hsp⟩⟩,
    fun s c p k l i o n m ht hk hk15 hl hl9 hi hinst ho hal hin hn hn0 hn1 hm hm1 => ⟨fun h0 => ?_, fun h0 hring => ?_⟩,
    fun s k x hl hx => exec_telemetryPeriod_set hl hx⟩
  · rw [exec_telemetryStream_taken ht hk hk15 hl hl9 hi hinst ho hal hin hn hn0 hn1 hm hm1 (.inl h0)]
    simp only [h0, if_true]
  · rw [exec_telemetryStream_taken ht hk hk15 hl hl9 hi hinst ho hal hin hn hn0 hn1 hm hm1 (.inr hring)]
    simp only [h0, if_false]

end Sys2Proof.Machine
